-- ==== Sys2Proof/Word.lean ====
section
/-! DEFINITION. The words of the machine: the widths the spec treats as bits (R6, R200). -/

namespace Sys2Proof

/-- A byte of memory. -/
abbrev Byte := BitVec 8
/-- A 32-bit lane element (R204). -/
abbrev Lane := BitVec 32
/-- A 64-bit scalar, address or special register (R200). -/
abbrev Word := BitVec 64
/-- A vector register, transit latch or queue entry: 64 bytes (R200, R204). -/
abbrev Vec := BitVec 512
/-- One 128-byte line or latch row, as bits (R149, R251). -/
abbrev Line := BitVec 1024
/-- A bundle: 768 bits (R19). -/
abbrev Bundle768 := BitVec 768

end Sys2Proof
end

