-- ==== Sys2Proof/Config.lean ====
section
/-! DEFINITION. What the spec leaves to the implementation, and the free values: constants with no body. -/

namespace Sys2Proof

/-- The L1 set (0 to 511) in which a line address is held: the spec gives 512 sets but no
mapping (R176). Left open; log entry 3. -/
opaque Config.l1Set : Nat → Nat

/-- The set (0 to 1,023) of a slice in which a line is held: not given (R96). Left open; log entry 3. -/
opaque Config.l2Set : Nat → Nat

/-- A fresh 64-bit value for each use, where the spec states no result. Log entry 4. -/
opaque Config.freeWord : Nat → Word

/-- A fresh yes or no where the spec leaves one open. Log entry 4. -/
opaque Config.freeChoice : Nat → Bool

/-- The hashes of the two keys of each algorithm that mask ROM holds (R395; `true`: RSA). Log entry 75. -/
opaque Config.romHash : Bool → Nat → BitVec 384

/-- What an image's payload configures, as words that firmware reads from it: R396 says what it configures and gives no
layout. Log entry 75. -/
opaque Config.payloadWord : List (BitVec 8) → Nat → Word

/-- The four words of a record of the fault log, from the cycle, cause, first cause, core, context, APC, XPC, task index and
detail that it holds: R399 gives no layout. Log entry 46. -/
opaque Config.faultRecord : List Word → Nat → Word

end Sys2Proof
end

