-- ==== Sys2Proof/Syntax.lean ====
section
/-! DEFINITION. The instructions of the slots and the events of the module: one constructor of `Instr`
per row of spec/opcode_table.json. -/

namespace Sys2Proof

/-- a0 to a63. -/
abbrev AReg := BitVec 6
/-- g0 to g31. -/
abbrev GReg := BitVec 5
/-- k0 to k7. -/
abbrev KReg := BitVec 3
/-- Which scalar slot: 0 for S0, 1 for S1. -/
abbrev SSlot := BitVec 1

/-! ### Scalar slot shapes (R25, R284 to R291) -/

/-- Register and register to register (R285). -/
structure SRRR where
  sl : SSlot
  d : AReg
  a : AReg
  b : AReg
  deriving DecidableEq, Repr

/-- Register and 14-bit immediate to register (R286). -/
structure SRRI where
  sl : SSlot
  d : AReg
  a : AReg
  imm : BitVec 14
  deriving DecidableEq, Repr

/-- Register and 6-bit count to register (SHLI, SHRI, SRAI; R286). -/
structure SRRC where
  sl : SSlot
  d : AReg
  a : AReg
  cnt : BitVec 6
  deriving DecidableEq, Repr

/-- One register to a register (CLZ, CTZ, POPC; R288). -/
structure SRR where
  sl : SSlot
  d : AReg
  a : AReg
  deriving DecidableEq, Repr

/-- Two registers to a flag (R287). -/
structure SKRR where
  sl : SSlot
  d : KReg
  a : AReg
  b : AReg
  deriving DecidableEq, Repr

/-- A register and an immediate to a flag (R287). -/
structure SKRI where
  sl : SSlot
  d : KReg
  a : AReg
  imm : BitVec 14
  deriving DecidableEq, Repr

/-- Two flags to a flag (R287). -/
structure SKKK where
  sl : SSlot
  d : KReg
  a : KReg
  b : KReg
  deriving DecidableEq, Repr

/-- A special register of R205. -/
inductive SR where
  | psel | qctl | rseed | upk | sfault | cpcause
  | deck | dklim | l1smp | ctxid | tidx | tstat | vwin | mwin
  | lc (i : BitVec 2)
  | csh (i : BitVec 2) | cshs (i : BitVec 2)
  | msh (i : BitVec 2) | mshs (i : BitVec 2)
  | ssh (i : BitVec 2) | sshs (i : BitVec 2)
  deriving DecidableEq, Repr

/-! ### Memory slot shapes (R26) -/

/-- The four fields that form an effective address or segment offset. -/
structure GAddr where
  base : AReg
  idx : AReg
  sc : BitVec 2
  off : BitVec 20
  deriving DecidableEq, Repr

/-- The ordering qualifier ORD (R26). -/
inductive MemOrd where
  | plain | acquire | release | acqRel
  deriving DecidableEq, Repr

/-- A scope of R301. -/
inductive Scope where
  | ctx | core | grp | part | dev | sys
  deriving DecidableEq, Repr

/-- A global memory operand: address, hint, `.w`, ordering and its scope. -/
structure GMem where
  a : GAddr
  hint : BitVec 2
  w : Bool
  ord : MemOrd
  scope : Scope
  deriving DecidableEq, Repr

/-- A local memory operand: segment name register and offset. -/
structure LMem where
  g : GReg
  a : GAddr
  deriving DecidableEq, Repr

/-- An input queue qM of cluster N, or of every cluster (R26). -/
structure InQ where
  all : Bool
  cl : BitVec 3
  q : BitVec 2
  deriving DecidableEq, Repr

/-- An output queue wM of cluster N (R26). -/
structure OutQ where
  cl : BitVec 3
  w : BitVec 1
  deriving DecidableEq, Repr

/-- The scalar load types (R183). -/
inductive LdTy where
  | i8 | i16 | i32 | i64 | w8 | w16 | w32
  deriving DecidableEq, Repr

/-- The scalar store widths (R184). -/
inductive StTy where
  | b8 | b16 | b32 | b64
  deriving DecidableEq, Repr

/-- The operand of an atomic: an a-register that receives the old value, or a popped output queue (R104). -/
inductive AtomArg where
  | scalar (d : AReg)
  | vector (q : OutQ)
  deriving DecidableEq, Repr

/-- The twelve operations of ATOM (R104). -/
inductive AtomOp where
  | add | min | max | wmin | wmax | and | or | xor | swap | cas | fadd | qadd
  deriving DecidableEq, Repr

/-- Where CLRD delivers its data (R108). -/
inductive ClrdDst where
  | queue (q : InQ)
  | reg (d : AReg)
  deriving DecidableEq, Repr

/-- The queue an SBIND or SUNB names: q0 to q3 or w0, w1 of a cluster (R195). -/
inductive StreamQ where
  | inq (cl : BitVec 3) (q : BitVec 2)
  | outq (cl : BitVec 3) (w : BitVec 1)
  deriving DecidableEq, Repr

/-- The base of a stream: global (with a hint) or in a segment (R195). -/
inductive StreamBase where
  | glob (hint : BitVec 2)
  | loc (g : GReg)
  deriving DecidableEq, Repr

/-- The class of shape registers SHLD and SHST act on (R210). -/
inductive ShapeClass where
  | csh | msh | ssh
  deriving DecidableEq, Repr

/-- The element formats of R88. -/
inductive ElemFmt where
  | f32 | f16 | bf16 | e4m3 | e5m2 | e2m1b | i8 | i32 | w8 | w32 | q64
  deriving DecidableEq, Repr

/-! ### Copy slot shapes (R27, R117) -/

/-- The options of a data-moving copy: CID, BE with its barrier, SH with its shape register. -/
structure CopyOpt where
  cid : BitVec 4
  be : Bool
  bar : BitVec 6
  sh : Bool
  csh : BitVec 2
  deriving DecidableEq, Repr

/-- The operations of CGRED (R143). -/
inductive CgOp where
  | fadd | iadd | imax | imin | fmax | fmin | qadd
  deriving DecidableEq, Repr

/-! ### Matrix slot shapes (R28, R254) -/

/-- The memory operand of an MX slot. -/
inductive MxSrc where
  | seg (g : GReg)
  | glob (a : AReg) (hint : BitVec 2) (pin : Bool)
  | tile (h : AReg)
  deriving DecidableEq, Repr

/-- Formats of MMA (R264). -/
inductive MmaFmt where
  | bf16 | f16 | e4m3 | e5m2 | i8 | e2m1b
  deriving DecidableEq, Repr

/-! ### Cluster slot shapes (R29, R30) -/

/-- The units of a cluster (R38). -/
inductive VUnit where
  | ia | fm | sf | xm
  deriving DecidableEq, Repr

/-- The slot's cluster, guard predicate and write-back suppression. -/
structure VHd where
  cl : BitVec 3
  pr : BitVec 3
  nw : Bool
  deriving DecidableEq, Repr

/-- A destination of a cluster slot (R29). -/
inductive VDst where
  | reg (n : BitVec 10)
  | w (i : BitVec 1)
  | bq
  | sq
  deriving DecidableEq, Repr

/-- An 11-bit source operand (R30). -/
inductive VSrc where
  | reg (n : BitVec 10)
  | latch (u : VUnit) (t : BitVec 2)
  | queue (pop : Bool) (q : BitVec 2)
  | scalar (a : AReg)
  | imm (i : BitVec 8)
  deriving DecidableEq, Repr

/-- One source. -/
structure V1 where
  h : VHd
  d : VDst
  a : VSrc
  deriving DecidableEq, Repr

/-- Two sources. -/
structure V2 where
  h : VHd
  d : VDst
  a : VSrc
  b : VSrc
  deriving DecidableEq, Repr

/-- Three sources. -/
structure V3 where
  h : VHd
  d : VDst
  a : VSrc
  b : VSrc
  c : VSrc
  deriving DecidableEq, Repr

/-- Two predicates to a predicate (R234). -/
structure VPPP where
  h : VHd
  d : BitVec 4
  a : BitVec 4
  b : BitVec 4
  deriving DecidableEq, Repr

/-- The lane compares (R233). -/
inductive CmpOp where
  | eq | ne | ilt | ile | wlt | wle | feq | flt | fle | funord
  deriving DecidableEq, Repr

/-- CVT between FP32 and 32-bit integers (R225). -/
inductive CvtOp where
  | f32i32 | i32f32 | f32w32 | w32f32
  deriving DecidableEq, Repr

/-- The narrow formats of the widening and narrowing conversions (R226, R227). -/
inductive NarrowFmt where
  | bf16 | f16 | e4m3 | e5m2 | i8
  deriving DecidableEq, Repr

/-- The eight special functions (R247). -/
inductive SpecFn where
  | rcp | rsq | exp2 | log2 | sin | cos | tanh | sigm
  deriving DecidableEq, Repr

/-- VRED's node operations (R246). -/
inductive RedOp where
  | fadd | fmax | fmin | iadd | imax | imin
  deriving DecidableEq, Repr

/-- What XMV and XBC name in the source cluster (R237). -/
inductive XSrc where
  | reg (n : BitVec 10)
  | latch (u : VUnit) (t : BitVec 2)
  deriving DecidableEq, Repr

/-! ### Causes and traps (R365) -/

/-- The cause codes of R365. -/
inductive Cause where
  | malformed | badIndex | badQuire | noCode | codeFault | badTarget | brk | badSr | vRange | mRange
  | badShape | badEret | badGrow | growLate | badAddr | misalign | pgAbsent | pgPerm | sealed | badHandle
  | stale | bounds | tileAbsent | tileFmt | badAtom | noSeg | segBound | segBusy | segAbsent | floor
  | badLen | badConv | badUnpack | qEmpty | qFull | qBound | streamFault | streamEnd | noGroup | badPhase
  | phaseSync | phaseTimeout | phaseAbort | collMismatch | nonInv | nonUniform | swTrap
  | pteBad | layerOff | linkFail | poison | core | double | l2Lost | noJcb
  deriving DecidableEq, Repr

/-- The identity of a trap: what the cause word and the detail word record (R371). -/
structure TrapInfo where
  cause : Cause
  xhalf : Bool
  slot : Nat
  swc : BitVec 16
  detail : Word
  deriving DecidableEq, Repr

/-- The causes that abort a transfer phase (R140). -/
inductive PhaseCause where
  | op | segBound | routeBad | machineCheck
  deriving DecidableEq, Repr

/-- A layer that power management may switch off (R86): a bank group of a near store, or an HBM4 stack, which may
instead be put into self-refresh. -/
inductive Layer where
  | bank (die : BitVec 2) (group : BitVec 5)
  | stack (n : BitVec 3) (sleep : Bool)
  deriving DecidableEq, Repr

/-- What a soft error strikes (R378). -/
inductive SoftTarget where
  /-- A 64-byte unit of memory at a physical address; whether the error is correctable. -/
  | memUnit (pa : Nat) (correctable : Bool)
  /-- A vector register of a cluster (physical number). -/
  | vecReg (cl : Nat) (phys : Nat) (correctable : Bool)
  /-- An a-register of the running context. -/
  | aReg (i : AReg) (correctable : Bool)
  /-- A shape register or shadow of the running context: 8 × class + register, + 4 for a shadow. -/
  | shape (k : Nat) (correctable : Bool)
  /-- A 64-byte unit of a resident segment of a context: the local store. -/
  | segUnit (ctx : BitVec 2) (name : BitVec 16) (unit : Nat) (correctable : Bool)
  /-- The entry at a place of a queue of the running context (numbered as `qIdIn` numbers queues). -/
  | queueEntry (queue place : Nat) (correctable : Bool)
  /-- A transit latch of the core (16 × cluster + 4 × unit + place), and a line of a stationary latch (64 × physical
  number + row). -/
  | transit (k : Nat) (correctable : Bool)
  | stationary (k : Nat) (correctable : Bool)
  /-- A 64-byte unit of a latch's scale side: 16 × physical number + unit. -/
  | scale (k : Nat) (correctable : Bool)
  /-- A 64-byte unit of an accumulator of the running context: 128 × z + unit. -/
  | accumulator (k : Nat) (correctable : Bool)
  /-- A result held on the shelf of the running context, by its place; and one that a trap has set aside. -/
  | shelf (place : Nat) (correctable : Bool)
  | asideShelf (place : Nat) (correctable : Bool)
  /-- Predicates, flags, g-registers, loop counters and special registers of the running context. -/
  | smallReg (correctable : Bool)
  /-- A row of an HBM4 stack or near store whose errors were corrected again and again, by an address in it; whether the
  stack has a spare row left (R397). -/
  | row (pa : Nat) (spare : Bool)
  /-- A TLB or L1 entry, protected by parity: dropped. -/
  | parity
  /-- L2 tags: one copy, or both copies. -/
  | l2Tag (slice : Nat) (both : Bool)
  /-- Segment table, placement map or pipeline control: a CORE machine check. -/
  | coreState
  deriving DecidableEq, Repr

/-- What an image's payload configures (R396): the logical cores that it does not enable, the SKU code, the default
partition masks, and the key slots that its signed commands revoke. -/
structure BootConfig where
  off : List Nat
  sku : Word
  masks : List Word
  revRsa : BitVec 2
  revSlh : BitVec 2
  deriving DecidableEq, Repr

/-- A firmware image (R395): the words of its header, its payload, whose trailer holds the two public keys and their hashes,
and its two signatures. -/
structure BootImage where
  header : List Word
  payload : List Byte
  rsaSig : List Byte
  slhSig : List Byte
  deriving DecidableEq, Repr

/-- A training of a vertical link (R113): how long, in microseconds, it has been put off, and the link whose lane fails at
it. -/
structure Retrain where
  pendingUs : Nat
  failed : Option Nat
  deriving DecidableEq, Repr

/-- A place in a BAR: the function, and the offset there (R384, R389). -/
structure RegPlace where
  fn : BitVec 3
  off : Nat
  deriving DecidableEq, Repr

/-- A 64-byte unit that a group peer's copy writes into an anchored segment of this core: its first takes the copy's pin,
and the last of a line's makes the line full (R120, R122). -/
structure PeerUnit where
  name : BitVec 16
  job : Word
  off : Nat
  val : Vec
  poison : Bool
  full : Bool
  first : Bool
  deriving DecidableEq, Repr
/-- A unit of a copy: of the core's own copy by its number, or of a peer's. -/
inductive CopyFrom where
  | own (i : Nat)
  | peer (u : PeerUnit)
  deriving DecidableEq, Repr

/-- The end of a group peer's copy: the anchored segment of this core that it names and whether it holds a pin there, and
the arrival that it posts (R120). -/
structure PeerEnd where
  name : BitVec 16
  job : Word
  pinned : Bool
  bar : Option (BitVec 6)
  count : Word
  deriving DecidableEq, Repr
inductive EndFrom where
  | own (i : Nat)
  | peer (e : PeerEnd)
  deriving DecidableEq, Repr

/-- A task that is released: that of a context of this core, or the task of an index that another core's member took, with
its status. -/
inductive Released where
  | own (ctx : BitVec 2)
  | away (launch index : Nat) (status : BitVec 2)
  deriving DecidableEq, Repr

/-- One write the comparator sees: its key, physical address, byte mask and bytes (R404). -/
structure KeyedWrite where
  jcb : Word
  task : BitVec 32
  seq : BitVec 32
  unit : BitVec 16
  pa : Nat
  mask : Word
  bytes : Vec
  deriving DecidableEq, Repr

/-- One constructor per row of spec/opcode_table.json. -/
inductive Instr where
  -- issue and expansion
  | aHalfIssue | xHalfIssue | resultLanding | yield | contextSwitch | quantumExpiry
  | bundleExpansion
  | quireFetch (frame : Word)
  -- control slot
  | nop
  | bra (disp : BitVec 24)
  | brf (k : KReg) (neg : Bool) (disp : BitVec 24)
  | brq (neg : Bool) (disp : BitVec 24)
  | brp (p : BitVec 4) (neg : Bool) (disp : BitVec 24)
  | jmpr (k : KReg) (neg : Bool) (a : AReg) (disp : BitVec 24)
  | call (a : AReg) (disp : BitVec 24)
  | ret (k : KReg) (neg : Bool) (a : AReg)
  | loop (lc : BitVec 2) (a : AReg) (disp : BitVec 24)
  | lend (lc : BitVec 2) (disp : BitVec 24)
  | jtab (a : AReg) (idx : AReg) (g : GReg) (loc : Bool)
  | trap (k : KReg) (neg : Bool) (code : BitVec 16)
  | trapSet (a : AReg) (mask : BitVec 5) (disp : BitVec 17)
  | trapClr
  | retire
  | trig
  | wvis
  | eret
  | eretGo (disp : BitVec 23)
  | bara (h : BitVec 6) (a : AReg) (scope : Scope)
  | barw (h : BitVec 6) (a : AReg) (scope : Scope)
  | grow (a : AReg)
  -- scalar slots
  | add (o : SRRR) | sub (o : SRRR) | and (o : SRRR) | or (o : SRRR) | xor (o : SRRR)
  | shl (o : SRRR) | shr (o : SRRR) | sra (o : SRRR) | mul (o : SRRR) | mulh (o : SRRR)
  | mulhw (o : SRRR) | min (o : SRRR) | max (o : SRRR) | wmin (o : SRRR) | wmax (o : SRRR)
  | addi (o : SRRI) | andi (o : SRRI) | ori (o : SRRI) | xori (o : SRRI)
  | shli (o : SRRC) | shri (o : SRRC) | srai (o : SRRC)
  | li (sl : SSlot) (d : AReg) (imm : BitVec 14)
  | lih (o : SRRI)
  | lea (o : SRRR) (sh : BitVec 3) (off : BitVec 11)
  | cmpeq (o : SKRR) | cmplt (o : SKRR) | cmpltw (o : SKRR)
  | cmpeqi (o : SKRI) | cmplti (o : SKRI)
  | selk (o : SRRR) (k : KReg)
  | kand (o : SKKK) | kor (o : SKKK) | kxor (o : SKKK)
  | knot (sl : SSlot) (d : KReg) (a : KReg)
  | bfx (o : SRR) (pos : BitVec 6) (len : BitVec 7)
  | bfi (o : SRRR) (pos : BitVec 6) (len : BitVec 7)
  | clz (o : SRR) | ctz (o : SRR) | popc (o : SRR)
  | mfsr (sl : SSlot) (d : AReg) (r : SR)
  | mtsr (sl : SSlot) (r : SR) (a : AReg)
  | getg (sl : SSlot) (d : AReg) (g : GReg)
  | setg (sl : SSlot) (g : GReg) (a : AReg)
  | popsq (sl : SSlot) (d : AReg)
  | popbq (sl : SSlot) (d : AReg)
  -- memory slot
  | lda (t : LdTy) (d : AReg) (m : GMem)
  | ldaLocal (t : LdTy) (d : AReg) (m : LMem)
  | sta (t : StTy) (d : AReg) (m : GMem)
  | staLocal (t : StTy) (d : AReg) (m : LMem)
  | ldq (q : InQ) (m : GMem)
  | ldqLocal (q : InQ) (m : LMem)
  | ldqx (q : InQ) (m : GMem)
  | ldqxLocal (q : InQ) (m : LMem)
  | stq (q : OutQ) (m : GMem)
  | stqLocal (q : OutQ) (m : LMem)
  | loadDataArrival (i : Nat)
  | storePerformed (i : Nat)
  | atomAdd (x : AtomArg) (m : GMem) | atomMin (x : AtomArg) (m : GMem) | atomMax (x : AtomArg) (m : GMem)
  | atomWmin (x : AtomArg) (m : GMem) | atomWmax (x : AtomArg) (m : GMem) | atomAnd (x : AtomArg) (m : GMem)
  | atomOr (x : AtomArg) (m : GMem) | atomXor (x : AtomArg) (m : GMem) | atomSwap (x : AtomArg) (m : GMem)
  | atomCas (x : AtomArg) (m : GMem) | atomFadd (x : AtomArg) (m : GMem) | atomQadd (x : AtomArg) (m : GMem)
  | atomLocal (op : AtomOp) (x : AtomArg) (m : LMem)
  | clrd (d : ClrdDst) (m : GMem)
  | cmstStage (q : OutQ) (m : GMem)
  | cmstCommit (d : AReg) (ord : MemOrd) (scope : Scope)
  | cmab
  | fence (ord : MemOrd) (scope : Scope)
  | sbind (q : StreamQ) (b : StreamBase) (base : AReg) (ssh : BitVec 2)
  | sunb (q : StreamQ)
  | sfence
  | segnew (d : AReg) (g : GReg) (size : AReg) (fmt : ElemFmt) (empty : Bool)
  | segfree (g : GReg)
  | segpin (g : GReg)
  | segunpin (g : GReg)
  | segsz (d : AReg) (g : GReg)
  | segclr (g : GReg) (off : AReg) (cnt : AReg) (act : BitVec 2)
  | segfmt (d : AReg) (g : GReg) (fmt : ElemFmt)
  | shld (c : ShapeClass) (a : GAddr) (hint : BitVec 2)
  | shst (c : ShapeClass) (a : GAddr) (hint : BitVec 2)
  -- copy slot
  | cpss (sg dg : GReg) (sa da len : AReg) (o : CopyOpt)
  | cpsp (mbr : BitVec 3) (sg dg : GReg) (sa da len : AReg) (o : CopyOpt)
  | cpgs (hint : BitVec 2) (dg : GReg) (sa da len : AReg) (o : CopyOpt)
  | cpsg (hint : BitVec 2) (sg : GReg) (sa da len : AReg) (o : CopyOpt)
  | cpts (hint : BitVec 2) (dg : GReg) (sa da len : AReg) (o : CopyOpt)
  | cpst (hint : BitVec 2) (sg : GReg) (sa da len : AReg) (o : CopyOpt)
  | cpwarm (hint : BitVec 2) (sa len : AReg) (o : CopyOpt)
  | cpfill (dg : GReg) (sa da len : AReg) (o : CopyOpt)
  | cpwait (da : AReg) (mask : BitVec 16)
  | cpcan (mask : BitVec 16)
  | copyUnitWrite (c : CopyFrom)
  | copyCompletion (c : EndFrom)
  | parkedAccessRelease (i : Nat) (leaf : Option Word)
  | xpin (sg dg : GReg) (sa da len : AReg)
  | xpout
  | xmit (sg : GReg) (sa : AReg)
  | xsel (dg : GReg) (da : AReg) (port : BitVec 3)
  | phaseStart | phasetimeout | routerCycle
  | phaseabort (c : PhaseCause)
  | cgjoin (gid : BitVec 8) (sa len da : AReg)
  | cgred (op : CgOp) (gid : BitVec 8) (sg dg : GReg) (sa da len : AReg) (cid : BitVec 4) (be : Bool) (bar : BitVec 6)
  | cgbc (gid : BitVec 8) (sg dg : GReg) (sa da len : AReg) (cid : BitVec 4) (be : Bool) (bar : BitVec 6)
  | cgleave (gid : BitVec 8)
  | collectiveStart (gid : BitVec 8)
  | groupDrained (gid : BitVec 8)
  | enq (sa da len : AReg) (cid : BitVec 4)
  | enqDelivery (i : Nat)
  -- matrix slot
  | mld (ml : BitVec 3) (src : MxSrc) (bo : AReg) (msh : BitVec 2)
  | zclr (z : BitVec 1)
  | mma (f : MmaFmt) (z : BitVec 1) (ml : BitVec 3) (src : MxSrc) (bo : AReg) (msh : BitVec 2) (ss : AReg)
  | zrd (bf : Bool) (z : BitVec 1) (bo : AReg)
  | zst (bf : Bool) (z : BitVec 1) (src : MxSrc) (bo : AReg) (msh : BitVec 2)
  | tileFetch (i : Nat)
  | arrayAccept
  | zstWritePerformed (i : Nat)
  -- cluster slots
  | iadd (o : V2) | isub (o : V2) | imin (o : V2) | imax (o : V2) | vWmin (o : V2) | vWmax (o : V2)
  | iabs (o : V1) | vAnd (o : V2) | vOr (o : V2) | vXor (o : V2) | andn (o : V2)
  | vShl (o : V2) | vShr (o : V2) | vSra (o : V2) | rol (o : V2)
  | iadds (o : V2) | isubs (o : V2) | wadds (o : V2) | wsubs (o : V2)
  | imul (o : V2) | imulh (o : V2) | wmulh (o : V2)
  | vdot4 (unsigned : Bool) (o : V3)
  | vPopc (o : V1) | vClz (o : V1) | sel (o : V3) | mov (o : V1)
  | vBfx (o : V2) | vBfi (o : V3)
  | laneCompare (c : CmpOp) (h : VHd) (d : BitVec 4) (a b : VSrc)
  | pand (o : VPPP) | por (o : VPPP) | pxor (o : VPPP)
  | pnot (h : VHd) (d a : BitVec 4)
  | pany (h : VHd) (d a : BitVec 4)
  | pcnt (h : VHd) (d : VDst) (a : BitVec 4)
  | lperm (o : V2) | lbc (o : V2) | lrot (o : V2)
  | xmv (h : VHd) (d : VDst) (a : XSrc) (sc : BitVec 3)
  | xbc (h : VHd) (d : VDst) (a : XSrc) (sc : BitVec 3) (ln : BitVec 4)
  | cvt (c : CvtOp) (o : V1)
  | cvtWiden (f : NarrowFmt) (o : V1) (part : BitVec 2)
  | cvtNarrow (f : NarrowFmt) (h : VHd) (d : VDst) (a c : VSrc) (part : BitVec 2)
  | qntE2m1b (o : V2)
  | dqntE2m1b (o : V2) (sel : BitVec 6)
  | fadd (o : V2) | fsub (o : V2) | fmul (o : V2)
  | ffma (o : V3) | ffms (o : V3) | fnma (o : V3)
  | fdiv (o : V2) | fsqrt (o : V1) | fmin (o : V2) | fmax (o : V2)
  | fabs (o : V1) | fneg (o : V1) | fcps (o : V2) | fclass (o : V1)
  | vred (r : RedOp) (o : V1)
  | frcp (o : V1) | frsq (o : V1) | fexp2 (o : V1) | flog2 (o : V1)
  | fsin (o : V1) | fcos (o : V1) | ftanh (o : V1) | fsigm (o : V1)
  | specialFunction16 (f : SpecFn) (half : Bool) (o : V1)
  | qenc (f32 : Bool) (o : V2)
  | qadd (o : V2) | qsub (o : V2) | qneg (o : V1) | qmul (o : V2) | qdiv (o : V2) | qinv (o : V1)
  | qcmpeq (h : VHd) (d : BitVec 4) (a b : VSrc)
  | qdig (o : V1) (s : BitVec 2)
  | qsetd (o : V2) (s : BitVec 2)
  | qdec (den : Bool) (o : V1)
  | qcvt (o : V1)
  -- translation, layers, slices, links
  | tlbMiss (asid : BitVec 12) (va : Word)
  | pageWalk (asid : BitVec 12) (va : Word)
  | xivcGo (w : Word)
  | invalidationComplete
  | nsEpochEnd (die : BitVec 2)
  | nsPromotion (die : BitVec 2) (block : Nat)
  | nsDemotion (die : BitVec 2) (block : Nat)
  | nsrsvWrite (die : BitVec 2) (v : Word)
  | layerPowerDown (l : Layer)
  | hbmWake (stack : BitVec 3)
  | tminvWrite (h : Word)
  | l2wmWrite (c : BitVec 4) (v : Word)
  | l2WriteBack | l2WriteBackInvalidate
  | cmpctlWrite (v : Word)
  | linkReplay (lost : Option Nat)
  | linkRetrain (r : Retrain)
  -- segments and the deckle
  | segmentRecall
  | pushOut (ctx : BitVec 2) (name : BitVec 16)
  | tamperMove (ctx : BitVec 2) (name : BitVec 16) (line : Nat)
  | deckleTakeWay | deckleGiveWay | deckleEpochEnd
  | streamFetch (i : Nat) | streamWrite (i : Nat)
  -- dispatcher
  | admission (l : Nat)
  | launchCheck (l : Nat)
  | lookaheadRevoke
  | stagingStart (ctx : BitVec 2) (e : Nat)
  | stagingAbandon (i : Nat)
  | refill (ctx : BitVec 2) (e : Nat)
  | dispatch (ctx : BitVec 2)
  | taskRelease (t : Released)
  | jcbPost
  | cancelApply
  | enqueueTake (q : BitVec 8)
  | drainPoint
  | heavySave (ctx : BitVec 2)
  | preemptTask (ctx : BitVec 2)
  | taskResume (i : Nat)
  | trapEntry (t : TrapInfo)
  | trapToControlCore (t : TrapInfo)
  -- errors, repair, health
  | softError (t : SoftTarget)
  | coreMigration (spare : Option (BitVec 10)) (images : BitVec 4)
  | sliceSpare (slice : BitVec 9) (spare : Bool)
  | thermalThrottle (die : BitVec 5)
  | thermalShutdown (die : BitVec 5)
  | pwrcapWrite (v : Word)
  -- host
  | launch | cancel | preempt | resume | tbind | tunbind | qcreate | qdestroy
  | functionLevelReset
  | bar2Read (place : RegPlace)
  | bar2Write (place : RegPlace) (v : Word)
  | pcfgWrite (i : BitVec 3) (v : Word)
  | twinWrite (v : Word)
  | cmpstClear
  | comparatorCheck (twin : Bool) (w : KeyedWrite)
  | cgspanWrite (g : BitVec 8) (v : Word)
  | dbgStop | dbgGo | dbgStep
  | snapshotFire
  | trcbaseWrite (v : Word)
  | trclostClear
  | lpselWrite (v : Word)
  | pcfgsClear
  | registerWrite (place : RegPlace) (v : Word)
  | powerOn (selfTestOk : Bool)
  | bootLinkUp (ok : Bool)
  | bootDhcp (ok : Bool)
  | bootTftp (ok : Bool)
  | imageVerify (img : BootImage)
  | bootConfigure (ok : Bool)
  | mailboxSlotWrite (slot : BitVec 8) (word : BitVec 2) (v : Word)
  | badrec
  | remoteWindowAccess (pa : Nat) (wr : Option Word)
  | throttleRelease (die : BitVec 5)
  deriving DecidableEq, Repr

/-- The header and prefix of a bundle (R21, R22). -/
structure Header where
  dp : Bool
  ll : Bool
  yb : Bool
  ra : Bool
  swc : Bool
  swm : Bool
  sws : Bool
  pxe : Bool
  brk : Bool
  snp : Bool
  rm : BitVec 3
  sat : BitVec 2
  nz : Bool
  deriving DecidableEq, Repr

/-- The all-zero header (R20). -/
def Header.zero : Header :=
  ⟨false, false, false, false, false, false, false, false, false, false, 0, 0, false⟩

/-- A bundle taken apart: header and prefix, and the instruction of each slot, `nop` where the slot is
all zero (R19, R20). -/
structure Bundle where
  hdr : Header
  c : Instr
  s0 : Instr
  s1 : Instr
  m : Instr
  k : Instr
  mx : Instr
  v : List Instr
  deriving DecidableEq, Repr

/-- The all-zero bundle. -/
def Bundle.zero : Bundle :=
  ⟨Header.zero, .nop, .nop, .nop, .nop, .nop, .nop, List.replicate 8 .nop⟩

end Sys2Proof
end

