-- ==== Sys2Proof/WellFormed.lean ====
section
/-! DEFINITION. Which instructions and bundles are well formed: the operand limits of each entry, and the
cross-slot rules of R50. -/

namespace Sys2Proof

/-- A V register name below 640 (R29, R30). -/
def VSrc.wf : VSrc → Bool
  | .reg n => n.toNat < 640
  | _ => true

/-- A destination name below 640 (R29). -/
def VDst.wf : VDst → Bool
  | .reg n => n.toNat < 640
  | _ => true

/-- With NW = 1 the D field is zero (R42). -/
def VHd.dstOk (h : VHd) (d : VDst) : Bool := d.wf && (!h.nw || d == .reg 0)

/-- With NW = 1 a predicate destination is zero (R42). -/
def VHd.predOk (h : VHd) (d : BitVec 4) : Bool := !h.nw || d == 0

def V1.wf (o : V1) : Bool := o.h.dstOk o.d && o.a.wf
def V2.wf (o : V2) : Bool := o.h.dstOk o.d && o.a.wf && o.b.wf
def V3.wf (o : V3) : Bool := o.h.dstOk o.d && o.a.wf && o.b.wf && o.c.wf
def VPPP.wf (o : VPPP) : Bool := o.h.predOk o.d

/-- In the global form with ORD plain, G is zero (R26). -/
def GMem.wf (m : GMem) : Bool := m.ord != .plain || m.scope == .ctx

/-- Load qualifiers (R182). -/
def GMem.loadOk (m : GMem) : Bool := m.wf && (m.ord == .plain || m.ord == .acquire)
/-- Store qualifiers (R182). -/
def GMem.storeOk (m : GMem) : Bool := m.wf && (m.ord == .plain || m.ord == .release) && !m.w
/-- Atomic qualifiers (R104). -/
def GMem.atomOk (m : GMem) : Bool := m.wf && !m.w

/-- ALL = 1 leaves the cluster field zero (R26). -/
def InQ.wf (q : InQ) : Bool := !q.all || q.cl == 0

/-- With BE = 0, BAR is zero; with SH = 0, CSH is zero (R117). -/
def CopyOpt.wf (o : CopyOpt) : Bool := (o.be || o.bar == 0) && (o.sh || o.csh == 0)
/-- A tensor copy or a warm that ignores the shape register (R125). -/
def CopyOpt.linear (o : CopyOpt) : Bool := o.wf && !o.sh

/-- The group and core barrier scopes (R314). -/
def Scope.barrierOk (s : Scope) : Bool :=
  match s with
  | .ctx | .core => false
  | _ => true

/-- SS names a0 unless MMA.e2m1b uses it, and never with a tensor (R254). -/
def mxScaleOk (f : MmaFmt) (src : MxSrc) (ss : AReg) : Bool :=
  ss == 0 || (f == .e2m1b && (match src with | .tile _ => false | _ => true))

def XSrc.wf : XSrc → Bool
  | .reg n => n.toNat < 640
  | .latch _ _ => true

def SR.writable : SR → Bool
  | .deck | .dklim | .l1smp | .ctxid | .tidx | .tstat | .vwin | .mwin => false
  | _ => true

/-- The operand limits of each instruction; an event has none (they are not encoded). -/
def Instr.wf : Instr → Bool
  | .bara _ _ sc | .barw _ _ sc => sc.barrierOk
  | .grow a => a != 0
  | .jtab _ _ g loc => loc || g == 0
  | .mtsr _ r _ => r.writable
  | .lda _ _ m => m.loadOk
  | .sta _ _ m => m.storeOk
  | .ldq q m | .ldqx q m => q.wf && m.loadOk
  | .ldqLocal q _ | .ldqxLocal q _ => q.wf
  | .stq _ m => m.storeOk
  | .atomAdd _ m | .atomMin _ m | .atomMax _ m | .atomWmin _ m | .atomWmax _ m | .atomAnd _ m
  | .atomOr _ m | .atomXor _ m | .atomFadd _ m | .atomQadd _ m => m.atomOk
  | .atomSwap x m => m.atomOk && (match x with | .scalar _ => true | .vector _ => false)
  | .atomCas x m => m.atomOk && m.a.sc == 0 && (match x with | .scalar _ => true | .vector _ => false)
  | .atomLocal op x m =>
    (match op, x with
      | .swap, .vector _ => false
      | .cas, .vector _ => false
      | .cas, .scalar _ => m.a.sc == 0
      | _, _ => true)
  | .clrd d m =>
    m.wf && (m.ord == .plain || m.ord == .acquire) && m.hint == 0 && !m.w &&
    (match d with | .queue q => q.wf | .reg _ => true)
  | .cmstStage _ m => m.ord == .plain && m.scope == .ctx && m.hint == 0 && !m.w
  | .cmstCommit _ ord sc => ord != .plain || sc == .ctx
  | .fence ord _ => ord != .plain
  | .cpss _ _ _ _ _ o | .cpsp _ _ _ _ _ _ o | .cpgs _ _ _ _ _ o | .cpsg _ _ _ _ _ o => o.wf
  | .cpts _ _ _ _ _ o | .cpst _ _ _ _ _ o => o.linear
  | .cpwarm _ _ _ o | .cpfill _ _ _ _ o => o.wf
  | .xsel _ _ port => port != 0 && port.toNat < 5
  | .cgred _ _ _ _ _ _ _ _ be bar | .cgbc _ _ _ _ _ _ _ be bar => be || bar == 0
  | .mma f _ _ src _ _ ss => mxScaleOk f src ss
  | .zst _ _ (.glob _ _ pin) _ _ => !pin
  | .iadd o | .isub o | .imin o | .imax o | .vWmin o | .vWmax o | .vAnd o | .vOr o | .vXor o | .andn o
  | .vShl o | .vShr o | .vSra o | .rol o | .iadds o | .isubs o | .wadds o | .wsubs o | .imul o | .imulh o
  | .wmulh o | .vBfx o | .lperm o | .lbc o | .lrot o | .qntE2m1b o | .dqntE2m1b o _
  | .fadd o | .fsub o | .fmul o | .fdiv o | .fmin o | .fmax o | .fcps o
  | .qadd o | .qsub o | .qmul o | .qdiv o | .qsetd o _ => o.wf
  | .qenc f o => o.wf && (!f || o.b == .reg 0)
  | .iabs o | .vPopc o | .vClz o | .mov o | .cvt _ o | .fsqrt o | .fabs o | .fneg o | .fclass o | .vred _ o
  | .frcp o | .frsq o | .fexp2 o | .flog2 o | .fsin o | .fcos o | .ftanh o | .fsigm o
  | .specialFunction16 _ _ o | .qneg o | .qinv o | .qdig o _ | .qdec _ o | .qcvt o => o.wf
  | .vdot4 _ o | .sel o | .vBfi o | .ffma o | .ffms o | .fnma o => o.wf
  | .laneCompare _ h d a b => h.predOk d && a.wf && b.wf
  | .qcmpeq h d a b => h.predOk d && a.wf && b.wf
  | .pand o | .por o | .pxor o => o.wf
  | .pnot h d _ | .pany h d _ => h.predOk d
  | .pcnt h d _ => h.dstOk d
  | .xmv h d a _ | .xbc h d a _ _ => h.dstOk d && a.wf
  | .cvtWiden f o part => o.wf && (part.toNat < 2 || f == .e4m3 || f == .e5m2 || f == .i8)
  | .cvtNarrow f h d a c part =>
    h.dstOk d && a.wf && c.wf && (part.toNat < 2 || f == .e4m3 || f == .e5m2 || f == .i8)
  | _ => true

/-! ### What a slot writes, for the duplicate-write rule of R50 -/

/-- A destination that two slots of a bundle may not both write (R50). -/
inductive WriteTo where
  | a (i : AReg) | k (i : KReg) | g (i : GReg) | lc (i : BitVec 2) | sr (r : SR)
  | p (cl : BitVec 3) (i : BitVec 4) | q (id : Nat)
  deriving DecidableEq, Repr

/-- Queue numbers of a context: 6 × cluster + 0 to 3 for q0 to q3, + 4 and + 5 for w0 and w1; 48 is bq and
49 is sq. -/
def qIdIn (cl : BitVec 3) (q : BitVec 2) : Nat := 6 * cl.toNat + q.toNat
def qIdOut (cl : BitVec 3) (w : BitVec 1) : Nat := 6 * cl.toNat + 4 + w.toNat
def qIdBq : Nat := 48
def qIdSq : Nat := 49

/-- The queues an input-queue operand pushes into. -/
def InQ.ids (q : InQ) : List Nat :=
  if q.all then (List.range 8).map (fun c => 6 * c + q.q.toNat) else [qIdIn q.cl q.q]

def VDst.writes (h : VHd) : VDst → List WriteTo
  | .reg _ => []
  | .w i => [.q (qIdOut h.cl i)]
  | .bq => [.q qIdBq]
  | .sq => [.q qIdSq]

/-- The a-register, flag, predicate, loop counter, special register and queue writes of a slot; writes to
a0, k0 and p0 do not count (R50). -/
def Instr.writes : Instr → List WriteTo
  | .call a _ | .grow a => if a = 0 then [] else [.a a]
  | .loop lc _ _ | .lend lc _ => [.lc lc]
  | .add o | .sub o | .and o | .or o | .xor o | .shl o | .shr o | .sra o | .mul o | .mulh o | .mulhw o
  | .min o | .max o | .wmin o | .wmax o | .lea o _ _ | .selk o _ | .bfi o _ _ => if o.d = 0 then [] else [.a o.d]
  | .addi o | .andi o | .ori o | .xori o | .lih o => if o.d = 0 then [] else [.a o.d]
  | .shli o | .shri o | .srai o => if o.d = 0 then [] else [.a o.d]
  | .bfx o _ _ | .clz o | .ctz o | .popc o => if o.d = 0 then [] else [.a o.d]
  | .li _ d _ | .mfsr _ d _ | .getg _ d _ | .popsq _ d | .popbq _ d => if d = 0 then [] else [.a d]
  | .cmpeq o | .cmplt o | .cmpltw o => if o.d = 0 then [] else [.k o.d]
  | .cmpeqi o | .cmplti o => if o.d = 0 then [] else [.k o.d]
  | .kand o | .kor o | .kxor o => if o.d = 0 then [] else [.k o.d]
  | .knot _ d _ => if d = 0 then [] else [.k d]
  | .mtsr _ (.lc i) _ => [.lc i]
  | .mtsr _ r _ => [.sr r]
  | .setg _ g _ => [.g g]
  | .lda _ d _ | .ldaLocal _ d _ => if d = 0 then [] else [.a d]
  | .ldq q _ | .ldqx q _ | .ldqLocal q _ | .ldqxLocal q _ => q.ids.map .q
  | .atomAdd (.scalar d) _ | .atomMin (.scalar d) _ | .atomMax (.scalar d) _ | .atomWmin (.scalar d) _
  | .atomWmax (.scalar d) _ | .atomAnd (.scalar d) _ | .atomOr (.scalar d) _ | .atomXor (.scalar d) _
  | .atomSwap (.scalar d) _ | .atomCas (.scalar d) _ | .atomFadd (.scalar d) _ | .atomQadd (.scalar d) _
  | .atomLocal _ (.scalar d) _ => if d = 0 then [] else [.a d]
  | .clrd (.queue q) _ => q.ids.map .q
  | .clrd (.reg d) _ | .cmstCommit d _ _ => if d = 0 then [] else [.a d]
  | .segnew d _ _ _ _ | .segsz d _ | .segfmt d _ _ => if d = 0 then [] else [.a d]
  | .shld .csh _ _ => (List.range 4).map (fun i => .sr (.cshs (BitVec.ofNat 2 i)))
  | .shld .msh _ _ => (List.range 4).map (fun i => .sr (.mshs (BitVec.ofNat 2 i)))
  | .shld .ssh _ _ => (List.range 4).map (fun i => .sr (.sshs (BitVec.ofNat 2 i)))
  | .cpwait d _ => if d = 0 then [] else [.a d]
  | .cgjoin _ _ _ d => if d = 0 then [] else [.a d]
  | .zrd _ _ _ => (List.range 8).map (fun c => .q (6 * c + 3))
  | .iadd o | .isub o | .imin o | .imax o | .vWmin o | .vWmax o | .vAnd o | .vOr o | .vXor o | .andn o
  | .vShl o | .vShr o | .vSra o | .rol o | .iadds o | .isubs o | .wadds o | .wsubs o | .imul o | .imulh o
  | .wmulh o | .vBfx o | .lperm o | .lbc o | .lrot o | .qntE2m1b o | .dqntE2m1b o _
  | .fadd o | .fsub o | .fmul o | .fdiv o | .fmin o | .fmax o | .fcps o
  | .qenc _ o | .qadd o | .qsub o | .qmul o | .qdiv o | .qsetd o _ => o.d.writes o.h
  | .iabs o | .vPopc o | .vClz o | .mov o | .cvt _ o | .cvtWiden _ o _ | .fsqrt o | .fabs o | .fneg o
  | .fclass o | .vred _ o | .frcp o | .frsq o | .fexp2 o | .flog2 o | .fsin o | .fcos o | .ftanh o
  | .fsigm o | .specialFunction16 _ _ o | .qneg o | .qinv o | .qdig o _ | .qdec _ o | .qcvt o => o.d.writes o.h
  | .vdot4 _ o | .sel o | .vBfi o | .ffma o | .ffms o | .fnma o => o.d.writes o.h
  | .laneCompare _ h d _ _ | .qcmpeq h d _ _ => if d = 0 then [] else [.p h.cl d]
  | .pand o | .por o | .pxor o => if o.d = 0 then [] else [.p o.h.cl o.d]
  | .pnot h d _ | .pany h d _ => if d = 0 then [] else [.p h.cl d]
  | .pcnt h d _ | .xmv h d _ _ | .xbc h d _ _ _ | .cvtNarrow _ h d _ _ _ => d.writes h
  | _ => []

/-- The queue an A-half slot pops, for R291. -/
def Instr.aPops : Instr → List Nat
  | .brq _ _ | .popbq _ _ => [qIdBq]
  | .popsq _ _ => [qIdSq]
  | _ => []

/-- The class a special register belongs to, for the swap rule of R206. -/
def SR.shapeClass : SR → Option ShapeClass
  | .csh _ | .cshs _ => some .csh
  | .msh _ | .mshs _ => some .msh
  | .ssh _ | .sshs _ => some .ssh
  | _ => none

/-- Whether the header swaps a class. -/
def Header.swaps (h : Header) : ShapeClass → Bool
  | .csh => h.swc
  | .msh => h.swm
  | .ssh => h.sws

/-- An MTSR into a class that the same bundle swaps (R206). -/
def Instr.badSwap (h : Header) : Instr → Bool
  | .mtsr _ r _ => match r.shapeClass with
    | some c => h.swaps c
    | none => false
  | _ => false

/-- The slots of a bundle in the order C, S0, S1, M, K, MX, V0 to V7. -/
def Bundle.slots (b : Bundle) : List Instr := [b.c, b.s0, b.s1, b.m, b.k, b.mx] ++ b.v

/-- Prefix and header conditions (R22, R50). -/
def Header.wf (h : Header) : Bool :=
  !(h.yb && h.ll) &&
  (if h.pxe then h.rm.toNat < 6 && h.sat.toNat < 3 else h.rm == 0 && h.sat == 0 && !h.nz)

/-- The cross-slot conditions of R50, R206, R291 and R298. -/
def Bundle.wf (b : Bundle) : Bool :=
  b.hdr.wf && b.v.length == 8 &&
  b.slots.all Instr.wf &&
  decide ((b.slots.flatMap Instr.writes).Nodup) &&
  decide ((b.slots.flatMap Instr.aPops).Nodup) &&
  !(b.s0.badSwap b.hdr) && !(b.s1.badSwap b.hdr) &&
  (b.c != .retire || (b.mx == .nop && b.v.all (· == .nop)))

end Sys2Proof
end

