-- ==== Sys2Proof/Decode.lean ====
section
/-! DEFINITION. The decoder of each slot and of the bundle (R19 to R31, R59 to R65), total on any bits and
rejecting by name; after it the encoder, written from the same tables. -/

namespace Sys2Proof

/-- Why a slot or a bundle is malformed (R50). -/
inductive BadEnc where
  /-- An opcode that the slot's map marks illegal (R59). -/
  | illegalOpcode
  /-- A reserved field, or a field the instruction does not use, is non-zero (R31). -/
  | reservedField
  /-- A reserved code, or an operand out of its range. -/
  | badOperand
  /-- Two slots write one destination, or another cross-slot rule fails (R50). -/
  | badBundle
  deriving DecidableEq, Repr

/-- What a decoder answers. -/
abbrev Decoded := Except BadEnc Instr

/-- A Bool of a one-bit field. -/
def b1 (b : BitVec 1) : Bool := b == 1
/-- The one-bit field of a Bool. -/
def ofB (b : Bool) : BitVec 1 := if b then 1 else 0

/-- The instruction, provided that its reserved fields are zero and its operands are in range. -/
def guarded (zero : Bool) (i : Instr) : Decoded :=
  if !zero then .error .reservedField
  else if !i.wf then .error .badOperand
  else .ok i

/-- The instruction of an operand that may be undecodable. -/
def guardedO (zero : Bool) (i : Option Instr) : Decoded :=
  match i with
  | some i => guarded zero i
  | none => .error .badOperand

/-- A scope code (R26, R301). -/
def decodeScope (s : BitVec 3) : Option Scope :=
  match s.toNat with
  | 0 => some .ctx | 1 => some .core | 2 => some .grp | 3 => some .part | 4 => some .dev | 5 => some .sys
  | _ => none
/-- The code of a scope. -/
def encodeScope : Scope → BitVec 3
  | .ctx => 0 | .core => 1 | .grp => 2 | .part => 3 | .dev => 4 | .sys => 5

/-- An ORD code (R26). -/
def decodeOrd (o : BitVec 3) : Option MemOrd :=
  match o.toNat with
  | 0 => some .plain | 1 => some .acquire | 2 => some .release | 3 => some .acqRel
  | _ => none
/-- The code of an ordering. -/
def encodeOrd : MemOrd → BitVec 3
  | .plain => 0 | .acquire => 1 | .release => 2 | .acqRel => 3

/-- An element format code of R88. -/
def decodeFmt (f : BitVec 4) : Option ElemFmt :=
  match f.toNat with
  | 0 => some .f32 | 1 => some .f16 | 2 => some .bf16 | 3 => some .e4m3 | 4 => some .e5m2
  | 5 => some .e2m1b | 6 => some .i8 | 7 => some .i32 | 8 => some .w8 | 9 => some .w32 | 10 => some .q64
  | _ => none
/-- The code of an element format. -/
def encodeFmt : ElemFmt → BitVec 4
  | .f32 => 0 | .f16 => 1 | .bf16 => 2 | .e4m3 => 3 | .e5m2 => 4 | .e2m1b => 5 | .i8 => 6 | .i32 => 7
  | .w8 => 8 | .w32 => 9 | .q64 => 10

/-- A special register number of R205. -/
def decodeSR (n : BitVec 12) : Option SR :=
  let i : BitVec 2 := n.extractLsb' 0 2
  match n.toNat with
  | 0x000 => some .psel | 0x001 => some .qctl | 0x002 => some .rseed | 0x003 => some .upk
  | 0x004 => some .sfault | 0x005 => some .cpcause | 0x006 => some .deck | 0x007 => some .dklim
  | 0x008 => some .l1smp | 0x009 => some .ctxid | 0x00A => some .tidx | 0x00B => some .tstat
  | 0x00C => some .vwin | 0x00D => some .mwin
  | 0x010 | 0x011 | 0x012 | 0x013 => some (.lc i)
  | 0x020 | 0x021 | 0x022 | 0x023 => some (.csh i)
  | 0x024 | 0x025 | 0x026 | 0x027 => some (.cshs i)
  | 0x028 | 0x029 | 0x02A | 0x02B => some (.msh i)
  | 0x02C | 0x02D | 0x02E | 0x02F => some (.mshs i)
  | 0x030 | 0x031 | 0x032 | 0x033 => some (.ssh i)
  | 0x034 | 0x035 | 0x036 | 0x037 => some (.sshs i)
  | _ => none
/-- The number of a special register. -/
def encodeSR : SR → BitVec 12
  | .psel => 0 | .qctl => 1 | .rseed => 2 | .upk => 3 | .sfault => 4 | .cpcause => 5 | .deck => 6
  | .dklim => 7 | .l1smp => 8 | .ctxid => 9 | .tidx => 0xA | .tstat => 0xB | .vwin => 0xC | .mwin => 0xD
  | .lc i => 0x4#10 ++ i
  | .csh i => 0x8#10 ++ i | .cshs i => 0x9#10 ++ i | .msh i => 0xA#10 ++ i | .mshs i => 0xB#10 ++ i
  | .ssh i => 0xC#10 ++ i | .sshs i => 0xD#10 ++ i

/-! ### The control slot (R24, R60) -/

/-- The control slot. -/
def decodeC (w : BitVec 40) : Decoded :=
  let op := w.extractLsb 39 34
  let k := w.extractLsb 33 31
  let neg := w.getLsbD 30
  let a := w.extractLsb 29 24
  let disp := w.extractLsb 23 0
  let zk := k == 0
  let zn := !neg
  let za := a == 0
  let zd := disp == 0
  match op.toNat with
  | 0x00 => guarded (w == 0) .nop
  | 0x01 => guarded (zk && zn && za) (.bra disp)
  | 0x02 => guarded za (.brf k neg disp)
  | 0x03 => guarded (zk && za) (.brq neg disp)
  | 0x04 => guarded (zk && a.extractLsb 5 4 == 0) (.brp (a.extractLsb 3 0) neg disp)
  | 0x05 => guarded true (.jmpr k neg a disp)
  | 0x06 => guarded (zk && zn) (.call a disp)
  | 0x07 => guarded zd (.ret k neg a)
  | 0x08 => guarded (k.extractLsb 2 2 == 0 && zn) (.loop (k.extractLsb 1 0) a disp)
  | 0x09 => guarded (k.extractLsb 2 2 == 0 && zn && za) (.lend (k.extractLsb 1 0) disp)
  | 0x0A => guarded (zk && zn && disp.extractLsb 23 12 == 0)
      (.jtab a (disp.extractLsb 5 0) (disp.extractLsb 10 6) (disp.getLsbD 11))
  | 0x0B =>
    match (disp.extractLsb 23 22).toNat with
    | 0 => guarded (za && disp.extractLsb 21 16 == 0) (.trap k neg (disp.extractLsb 15 0))
    | 1 => guarded (zk && zn) (.trapSet a (disp.extractLsb 21 17) (disp.extractLsb 16 0))
    | 2 => guarded (zk && zn && za && disp.extractLsb 21 0 == 0) .trapClr
    | _ => .error .badOperand
  | 0x0C => guarded (zk && zn && za && zd) .retire
  | 0x0D => guarded (zk && zn && za && zd) .trig
  | 0x0E => guarded (zk && zn && za && zd) .wvis
  | 0x0F =>
    if disp.getLsbD 23 then guarded (zk && zn && za) (.eretGo (disp.extractLsb 22 0))
    else guarded (zk && zn && za && zd) .eret
  | 0x10 => guardedO (zk && zn && disp.extractLsb 23 9 == 0)
      ((decodeScope (disp.extractLsb 8 6)).map (fun s => .bara (disp.extractLsb 5 0) a s))
  | 0x11 => guardedO (zk && zn && disp.extractLsb 23 9 == 0)
      ((decodeScope (disp.extractLsb 8 6)).map (fun s => .barw (disp.extractLsb 5 0) a s))
  | 0x12 => guarded (zk && zn && zd) (.grow a)
  | _ => .error .illegalOpcode

/-! ### The scalar slots (R25, R61) -/

/-- The scalar slot S0 (sl = 0) or S1 (sl = 1). -/
def decodeS (sl : SSlot) (w : BitVec 40) : Decoded :=
  let op := w.extractLsb 39 32
  let d := w.extractLsb 31 26
  let a := w.extractLsb 25 20
  let b := w.extractLsb 19 14
  let imm := w.extractLsb 13 0
  let za := a == 0
  let zb := b == 0
  let zd := d == 0
  let zi := imm == 0
  let kd : KReg := d.extractLsb 2 0
  let kdz := d.extractLsb 5 3 == 0
  let rrr : SRRR := ⟨sl, d, a, b⟩
  let rri : SRRI := ⟨sl, d, a, imm⟩
  let rrc : SRRC := ⟨sl, d, a, imm.extractLsb 5 0⟩
  let zc := imm.extractLsb 13 6 == 0
  let rr : SRR := ⟨sl, d, a⟩
  let krr : SKRR := ⟨sl, kd, a, b⟩
  let kri : SKRI := ⟨sl, kd, a, imm⟩
  let kkk : SKKK := ⟨sl, kd, a.extractLsb 2 0, b.extractLsb 2 0⟩
  let kaz := a.extractLsb 5 3 == 0
  let kbz := b.extractLsb 5 3 == 0
  let pos := imm.extractLsb 5 0
  let len := imm.extractLsb 12 6
  let z13 := imm.extractLsb 13 13 == 0
  match op.toNat with
  | 0x00 => guarded (w == 0) .nop
  | 0x01 => guarded zi (.add rrr)
  | 0x02 => guarded zi (.sub rrr)
  | 0x03 => guarded zi (.and rrr)
  | 0x04 => guarded zi (.or rrr)
  | 0x05 => guarded zi (.xor rrr)
  | 0x06 => guarded zi (.shl rrr)
  | 0x07 => guarded zi (.shr rrr)
  | 0x08 => guarded zi (.sra rrr)
  | 0x09 => guarded zi (.mul rrr)
  | 0x0A => guarded zi (.mulh rrr)
  | 0x0B => guarded zi (.mulhw rrr)
  | 0x0C => guarded zi (.min rrr)
  | 0x0D => guarded zi (.max rrr)
  | 0x0E => guarded zi (.wmin rrr)
  | 0x0F => guarded zi (.wmax rrr)
  | 0x10 => guarded zb (.addi rri)
  | 0x11 => guarded zb (.andi rri)
  | 0x12 => guarded zb (.ori rri)
  | 0x13 => guarded zb (.xori rri)
  | 0x14 => guarded (zb && zc) (.shli rrc)
  | 0x15 => guarded (zb && zc) (.shri rrc)
  | 0x16 => guarded (zb && zc) (.srai rrc)
  | 0x17 => guarded (za && zb) (.li sl d imm)
  | 0x18 => guarded zb (.lih rri)
  | 0x19 => guarded true (.lea rrr (imm.extractLsb 2 0) (imm.extractLsb 13 3))
  | 0x1A => guarded (kdz && zi) (.cmpeq krr)
  | 0x1B => guarded (kdz && zi) (.cmplt krr)
  | 0x1C => guarded (kdz && zi) (.cmpltw krr)
  | 0x1D => guarded (kdz && zb) (.cmpeqi kri)
  | 0x1E => guarded (kdz && zb) (.cmplti kri)
  | 0x1F => guarded (imm.extractLsb 13 3 == 0) (.selk rrr (imm.extractLsb 2 0))
  | 0x20 => guarded (zb && z13) (.bfx rr pos len)
  | 0x21 => guarded z13 (.bfi rrr pos len)
  | 0x22 => guarded (zb && zi) (.clz rr)
  | 0x23 => guarded (zb && zi) (.ctz rr)
  | 0x24 => guarded (zb && zi) (.popc rr)
  | 0x25 => guardedO (za && zb && imm.extractLsb 13 12 == 0)
      ((decodeSR (imm.extractLsb 11 0)).map (fun r => .mfsr sl d r))
  | 0x26 => guardedO (zd && zb && imm.extractLsb 13 12 == 0)
      ((decodeSR (imm.extractLsb 11 0)).map (fun r => .mtsr sl r a))
  | 0x27 => guarded (a.extractLsb 5 5 == 0 && zb && zi) (.getg sl d (a.extractLsb 4 0))
  | 0x28 => guarded (d.extractLsb 5 5 == 0 && zb && zi) (.setg sl (d.extractLsb 4 0) a)
  | 0x29 => guarded (kdz && kaz && kbz && zi) (.kand kkk)
  | 0x2A => guarded (kdz && kaz && kbz && zi) (.kor kkk)
  | 0x2B => guarded (kdz && kaz && kbz && zi) (.kxor kkk)
  | 0x2C => guarded (kdz && kaz && zb && zi) (.knot sl kd (a.extractLsb 2 0))
  | 0x2D => guarded (za && zb && zi) (.popsq sl d)
  | 0x2E => guarded (za && zb && zi) (.popbq sl d)
  | _ => .error .illegalOpcode

/-! ### The memory slot (R26, R62) -/

/-- An input queue in the D field. -/
def decodeInQ (d : BitVec 11) : Option InQ :=
  if d.getLsbD 10 && !d.getLsbD 9 && d.extractLsb 7 6 == 0 && d.extractLsb 2 2 == 0 then
    some ⟨d.getLsbD 8, d.extractLsb 5 3, d.extractLsb 1 0⟩
  else none
/-- An output queue in the D field. -/
def decodeOutQ (d : BitVec 11) : Option OutQ :=
  if d.getLsbD 10 && d.getLsbD 9 && d.extractLsb 8 6 == 0 && d.extractLsb 2 1 == 0 then
    some ⟨d.extractLsb 5 3, d.extractLsb 0 0⟩
  else none
/-- An a-register in the D field. -/
def decodeDA (d : BitVec 11) : Option AReg :=
  if d.extractLsb 10 6 == 0 then some (d.extractLsb 5 0) else none
/-- An atomic's operand in the D field (R104). -/
def decodeAtomArg (d : BitVec 11) : Option AtomArg :=
  match decodeDA d with
  | some a => some (.scalar a)
  | none => (decodeOutQ d).map .vector

/-- The D field of an input queue. -/
def encodeInQ (q : InQ) : BitVec 11 := 0b10#2 ++ ofB q.all ++ 0#2 ++ q.cl ++ 0#1 ++ q.q
/-- The D field of an output queue. -/
def encodeOutQ (q : OutQ) : BitVec 11 := 0b11000#5 ++ q.cl ++ 0#2 ++ q.w
/-- The D field of an a-register. -/
def encodeDA (a : AReg) : BitVec 11 := 0#5 ++ a
/-- The D field of an atomic's operand. -/
def encodeAtomArg : AtomArg → BitVec 11
  | .scalar a => encodeDA a
  | .vector q => encodeOutQ q

/-- The twelve atomic operations by their code n (R104). -/
def decodeAtomOp : Nat → Option AtomOp
  | 0 => some .add | 1 => some .min | 2 => some .max | 3 => some .wmin | 4 => some .wmax | 5 => some .and
  | 6 => some .or | 7 => some .xor | 8 => some .swap | 9 => some .cas | 10 => some .fadd | 11 => some .qadd
  | _ => none
/-- The code n of an atomic operation. -/
def encodeAtomOp : AtomOp → BitVec 4
  | .add => 0 | .min => 1 | .max => 2 | .wmin => 3 | .wmax => 4 | .and => 5 | .or => 6 | .xor => 7
  | .swap => 8 | .cas => 9 | .fadd => 10 | .qadd => 11

/-- The global form of an atomic operation. -/
def atomInstr (op : AtomOp) (x : AtomArg) (m : GMem) : Instr :=
  match op with
  | .add => .atomAdd x m | .min => .atomMin x m | .max => .atomMax x m | .wmin => .atomWmin x m
  | .wmax => .atomWmax x m | .and => .atomAnd x m | .or => .atomOr x m | .xor => .atomXor x m
  | .swap => .atomSwap x m | .cas => .atomCas x m | .fadd => .atomFadd x m | .qadd => .atomQadd x m

/-- The load types in opcode order from 1 (R183). -/
def decodeLdTy : Nat → Option LdTy
  | 1 => some .i8 | 2 => some .i16 | 3 => some .i32 | 4 => some .i64 | 5 => some .w8 | 6 => some .w16
  | 7 => some .w32 | _ => none
/-- The low four opcode bits of a load. -/
def encodeLdTy : LdTy → BitVec 4
  | .i8 => 1 | .i16 => 2 | .i32 => 3 | .i64 => 4 | .w8 => 5 | .w16 => 6 | .w32 => 7
/-- The store widths in opcode order from 8 (R184). -/
def decodeStTy : Nat → Option StTy
  | 8 => some .b8 | 9 => some .b16 | 10 => some .b32 | 11 => some .b64 | _ => none
/-- The low four opcode bits of a store. -/
def encodeStTy : StTy → BitVec 4
  | .b8 => 8 | .b16 => 9 | .b32 => 10 | .b64 => 11

/-- The stream queue of SBIND and SUNB. -/
def decodeStreamQ (d : BitVec 11) : Option StreamQ :=
  match decodeInQ d with
  | some q => if q.all then none else some (.inq q.cl q.q)
  | none => (decodeOutQ d).map (fun q => .outq q.cl q.w)
/-- The D field of a stream queue. -/
def encodeStreamQ : StreamQ → BitVec 11
  | .inq cl q => encodeInQ ⟨false, cl, q⟩
  | .outq cl w => encodeOutQ ⟨cl, w⟩

/-- The shape class in D[1:0] (R210). -/
def decodeShapeClass (d : BitVec 11) : Option ShapeClass :=
  match d.toNat with
  | 0 => some .csh | 1 => some .msh | 2 => some .ssh | _ => none
/-- The code of a shape class. -/
def encodeShapeClass : ShapeClass → BitVec 11
  | .csh => 0 | .msh => 1 | .ssh => 2

/-- The memory slot. -/
def decodeM (w : BitVec 64) : Decoded :=
  let op := w.extractLsb 63 56
  let d := w.extractLsb 55 45
  let g := w.extractLsb 44 40
  let base := w.extractLsb 39 34
  let idx := w.extractLsb 33 28
  let sc := w.extractLsb 27 26
  let hint := w.extractLsb 25 24
  let wbit := w.getLsbD 23
  let ord := w.extractLsb 22 20
  let off := w.extractLsb 19 0
  let addr : GAddr := ⟨base, idx, sc, off⟩
  let loc : LMem := ⟨g, addr⟩
  let locz := hint == 0 && !wbit && ord == 0
  let gz := g.extractLsb 4 3 == 0
  let zero4 := base == 0 && idx == 0 && sc == 0 && off == 0
  let dz := d == 0
  let bz := base == 0
  let iz := idx == 0 && sc == 0
  let mem : Option GMem := do
    let o ← decodeOrd ord
    let s ← decodeScope (g.extractLsb 2 0)
    return ⟨addr, hint, wbit, o, s⟩
  let lo := (op.extractLsb 3 0).toNat
  match (op.extractLsb 7 4).toNat with
  | 0 =>
    match lo with
    | 0 => guarded (w == 0) .nop
    | 12 => guardedO gz (do return .ldq (← decodeInQ d) (← mem))
    | 13 => guardedO gz (do return .ldqx (← decodeInQ d) (← mem))
    | 14 => guardedO gz (do return .stq (← decodeOutQ d) (← mem))
    | 15 => .error .illegalOpcode
    | n => if n < 8 then guardedO gz (do return .lda (← decodeLdTy n) (← decodeDA d) (← mem))
           else guardedO gz (do return .sta (← decodeStTy n) (← decodeDA d) (← mem))
  | 1 =>
    if lo < 12 then guardedO gz (do return atomInstr (← decodeAtomOp lo) (← decodeAtomArg d) (← mem))
    else .error .illegalOpcode
  | 2 =>
    match lo with
    | 0 => guardedO gz (do
        let m ← mem
        match decodeDA d with
        | some a => return .clrd (.reg a) m
        | none => return .clrd (.queue (← decodeInQ d)) m)
    | 1 => guardedO gz (do
        let m ← mem
        match decodeDA d with
        | some a => if zero4 && hint == 0 && !wbit then return .cmstCommit a m.ord m.scope else none
        | none => return .cmstStage (← decodeOutQ d) m)
    | 2 => guarded (dz && g == 0 && zero4 && locz) .cmab
    | 8 => guardedO (dz && zero4 && hint == 0 && !wbit && gz) (do
        return .fence (← decodeOrd ord) (← decodeScope (g.extractLsb 2 0)))
    | 9 => guardedO (iz && !wbit && ord == 0 && off.extractLsb 19 3 == 0 &&
          (if off.getLsbD 2 then hint == 0 else g == 0)) (do
        return .sbind (← decodeStreamQ d) (if off.getLsbD 2 then .loc g else .glob hint) base
          (off.extractLsb 1 0))
    | 10 => guardedO (g == 0 && zero4 && locz) (do return .sunb (← decodeStreamQ d))
    | 11 => guarded (dz && g == 0 && zero4 && locz) .sfence
    | _ => .error .illegalOpcode
  | 3 =>
    match lo with
    | 0 => guardedO (locz && iz && off.extractLsb 19 5 == 0) (do
        return .segnew (← decodeDA d) g base (← decodeFmt (off.extractLsb 3 0)) (off.getLsbD 4))
    | 1 => guarded (locz && dz && zero4) (.segfree g)
    | 2 => guarded (locz && dz && zero4) (.segpin g)
    | 3 => guarded (locz && dz && zero4) (.segunpin g)
    | 4 => guardedO (locz && zero4) (do return .segsz (← decodeDA d) g)
    | 5 => guarded (locz && dz && sc == 0 && off.extractLsb 19 2 == 0) (.segclr g base idx (off.extractLsb 1 0))
    | 6 => guardedO (locz && bz && iz && off.extractLsb 19 4 == 0) (do
        return .segfmt (← decodeDA d) g (← decodeFmt (off.extractLsb 3 0)))
    | 8 => guardedO (g == 0 && !wbit && ord == 0) (do return .shld (← decodeShapeClass d) addr hint)
    | 9 => guardedO (g == 0 && !wbit && ord == 0) (do return .shst (← decodeShapeClass d) addr hint)
    | _ => .error .illegalOpcode
  | 8 =>
    match lo with
    | 0 => .error .illegalOpcode
    | 12 => guardedO locz (do return .ldqLocal (← decodeInQ d) loc)
    | 13 => guardedO locz (do return .ldqxLocal (← decodeInQ d) loc)
    | 14 => guardedO locz (do return .stqLocal (← decodeOutQ d) loc)
    | 15 => .error .illegalOpcode
    | n => if n < 8 then guardedO locz (do return .ldaLocal (← decodeLdTy n) (← decodeDA d) loc)
           else guardedO locz (do return .staLocal (← decodeStTy n) (← decodeDA d) loc)
  | 9 =>
    if lo < 12 then guardedO locz (do return .atomLocal (← decodeAtomOp lo) (← decodeAtomArg d) loc)
    else .error .illegalOpcode
  | _ => .error .illegalOpcode

/-! ### The copy slot (R27, R63, R117) -/

/-- The CGRED operation code in IMM16[7:5] (R143). -/
def decodeCgOp (o : BitVec 3) : Option CgOp :=
  match o.toNat with
  | 0 => some .fadd | 1 => some .iadd | 2 => some .imax | 3 => some .imin | 4 => some .fmax | 5 => some .fmin
  | 6 => some .qadd | _ => none
/-- The code of a CGRED operation. -/
def encodeCgOp : CgOp → BitVec 3
  | .fadd => 0 | .iadd => 1 | .imax => 2 | .imin => 3 | .fmax => 4 | .fmin => 5 | .qadd => 6

/-- The copy slot. -/
def decodeK (w : BitVec 64) : Decoded :=
  let op := w.extractLsb 63 58
  let sg := w.extractLsb 57 53
  let dg := w.extractLsb 52 48
  let sa := w.extractLsb 47 42
  let da := w.extractLsb 41 36
  let len := w.extractLsb 35 30
  let csh := w.extractLsb 29 28
  let bar := w.extractLsb 27 22
  let dcore := w.extractLsb 21 18
  let hint := w.extractLsb 17 16
  let imm := w.extractLsb 15 0
  let o : CopyOpt := ⟨imm.extractLsb 3 0, imm.getLsbD 4, bar, imm.getLsbD 5, csh⟩
  let iz := imm.extractLsb 15 6 == 0
  let dc := dcore == 0
  let zsg := sg == 0
  let zdg := dg == 0
  let zsa := sa == 0
  let zda := da == 0
  let zlen := len == 0
  let tail := csh == 0 && bar == 0 && dc && hint == 0
  let cid := imm.extractLsb 3 0
  let gid := imm.extractLsb 15 8
  match op.toNat with
  | 0x00 => guarded (w == 0) .nop
  | 0x01 => guarded (dc && hint == 0 && iz) (.cpss sg dg sa da len o)
  | 0x02 => guarded (dcore.getLsbD 3 && hint == 0 && iz) (.cpsp (dcore.extractLsb 2 0) sg dg sa da len o)
  | 0x03 => guarded (dc && zsg && iz) (.cpgs hint dg sa da len o)
  | 0x04 => guarded (dc && zdg && iz) (.cpsg hint sg sa da len o)
  | 0x05 => guarded (dc && zsg && iz) (.cpts hint dg sa da len o)
  | 0x06 => guarded (dc && zdg && iz) (.cpst hint sg sa da len o)
  | 0x07 => guarded (dc && zsg && zdg && zda && iz) (.cpwarm hint sa len o)
  | 0x08 => guarded (dc && zsg && hint == 0 && iz) (.cpfill dg sa da len o)
  | 0x09 => guarded (zsg && zdg && zsa && zlen && tail) (.cpwait da imm)
  | 0x0A => guarded (zsg && zdg && zsa && zda && zlen && tail) (.cpcan imm)
  | 0x10 => guarded (tail && imm == 0) (.xpin sg dg sa da len)
  | 0x11 => guarded (w.extractLsb 57 0 == 0) .xpout
  | 0x12 => guarded (zdg && zda && zlen && tail && imm == 0) (.xmit sg sa)
  | 0x13 => guarded (zsg && zsa && zlen && tail && imm.extractLsb 15 3 == 0) (.xsel dg da (imm.extractLsb 2 0))
  | 0x14 => guarded (zsg && zdg && tail && imm.extractLsb 7 0 == 0) (.cgjoin gid sa len da)
  | 0x15 => guardedO (csh == 0 && dc && hint == 0) (do
      return .cgred (← decodeCgOp (imm.extractLsb 7 5)) gid sg dg sa da len cid (imm.getLsbD 4) bar)
  | 0x16 => guarded (csh == 0 && dc && hint == 0 && imm.extractLsb 7 5 == 0)
      (.cgbc gid sg dg sa da len cid (imm.getLsbD 4) bar)
  | 0x17 => guarded (zsg && zdg && zsa && zda && zlen && tail && imm.extractLsb 7 0 == 0) (.cgleave gid)
  | 0x18 => guarded (zsg && zdg && tail && imm.extractLsb 15 4 == 0) (.enq sa da len cid)
  | _ => .error .illegalOpcode

/-! ### The matrix slot (R28, R64) -/

/-- The memory operand of an MX slot. -/
def decodeMxSrc (bk : BitVec 2) (bs : BitVec 6) (hint : BitVec 2) (pin : Bool) : Option MxSrc :=
  match bk.toNat with
  | 0 => if bs.extractLsb 5 5 == 0 && hint == 0 && !pin then some (.seg (bs.extractLsb 4 0)) else none
  | 1 => some (.glob bs hint pin)
  | 2 => if hint == 0 && !pin then some (.tile bs) else none
  | _ => none

/-- MMA's formats by opcode (R264). -/
def decodeMmaFmt : Nat → Option MmaFmt
  | 4 => some .bf16 | 5 => some .f16 | 6 => some .e4m3 | 7 => some .e5m2 | 8 => some .i8 | 9 => some .e2m1b
  | _ => none
/-- The opcode of an MMA format. -/
def encodeMmaFmt : MmaFmt → BitVec 6
  | .bf16 => 4 | .f16 => 5 | .e4m3 => 6 | .e5m2 => 7 | .i8 => 8 | .e2m1b => 9

/-- The matrix slot. -/
def decodeX (w : BitVec 48) : Decoded :=
  let op := w.extractLsb 47 42
  let z := w.extractLsb 41 41
  let ml := w.extractLsb 40 38
  let bk := w.extractLsb 37 36
  let bs := w.extractLsb 35 30
  let bo := w.extractLsb 29 24
  let msh := w.extractLsb 23 22
  let ss := w.extractLsb 21 16
  let hint := w.extractLsb 15 14
  let pin := w.getLsbD 13
  let rz := w.extractLsb 12 0 == 0
  let src := decodeMxSrc bk bs hint pin
  match op.toNat with
  | 0x00 => guarded (w == 0) .nop
  | 0x01 => guardedO (rz && z == 0 && ss == 0) (src.map (fun s => .mld ml s bo msh))
  | 0x02 => guarded (w.extractLsb 40 0 == 0) (.zclr z)
  | 0x10 => guarded (w.extractLsb 40 30 == 0 && w.extractLsb 23 0 == 0) (.zrd false z bo)
  | 0x11 => guarded (w.extractLsb 40 30 == 0 && w.extractLsb 23 0 == 0) (.zrd true z bo)
  | 0x12 => guardedO (rz && ml == 0 && ss == 0) (src.map (fun s => .zst false z s bo msh))
  | 0x13 => guardedO (rz && ml == 0 && ss == 0) (src.map (fun s => .zst true z s bo msh))
  | n =>
    match decodeMmaFmt n with
    | some f => guardedO rz (src.map (fun s => .mma f z ml s bo msh ss))
    | none => .error .illegalOpcode

/-! ### The cluster slots (R29, R30, R65) -/

/-- A unit code. -/
def decodeUnit (u : BitVec 2) : VUnit :=
  match u.toNat with
  | 0 => .ia | 1 => .fm | 2 => .sf | _ => .xm
/-- The code of a unit. -/
def encodeUnit : VUnit → BitVec 2
  | .ia => 0 | .fm => 1 | .sf => 2 | .xm => 3

/-- An 11-bit source operand (R30). -/
def decodeSrc (o : BitVec 11) : Option VSrc :=
  if !o.getLsbD 10 then some (.reg (o.extractLsb 9 0))
  else match (o.extractLsb 9 8).toNat with
    | 0 => if o.extractLsb 7 6 == 0 && o.extractLsb 3 2 == 0 then
        some (.latch (decodeUnit (o.extractLsb 5 4)) (o.extractLsb 1 0)) else none
    | 1 => if o.extractLsb 6 2 == 0 then some (.queue (o.getLsbD 7) (o.extractLsb 1 0)) else none
    | 2 => if o.extractLsb 7 6 == 0 then some (.scalar (o.extractLsb 5 0)) else none
    | _ => some (.imm (o.extractLsb 7 0))
/-- The code of a source operand. -/
def encodeSrc : VSrc → BitVec 11
  | .reg n => 0#1 ++ n
  | .latch u t => 0b100#3 ++ 0#2 ++ encodeUnit u ++ 0#2 ++ t
  | .queue pop q => 0b101#3 ++ ofB pop ++ 0#5 ++ q
  | .scalar a => 0b110#3 ++ 0#2 ++ a
  | .imm i => 0b111#3 ++ i

/-- A selector: an immediate (R224). -/
def decodeSel (o : BitVec 11) : Option (BitVec 8) :=
  if o.extractLsb 10 8 == 0b111 then some (o.extractLsb 7 0) else none
/-- The code of a selector. -/
def encodeSel (s : BitVec 8) : BitVec 11 := 0b111#3 ++ s

/-- A destination (R29). -/
def decodeDst (d : BitVec 10) : Option VDst :=
  if d.toNat < 640 then some (.reg d)
  else match d.toNat with
    | 1020 => some (.w 0) | 1021 => some (.w 1) | 1022 => some .bq | 1023 => some .sq
    | _ => none
/-- The code of a destination. -/
def encodeDst : VDst → BitVec 10
  | .reg n => n
  | .w i => 0b111111110#9 ++ i
  | .bq => 1022
  | .sq => 1023

/-- A predicate in a source field (R234). -/
def decodePredSrc (o : BitVec 11) : Option (BitVec 4) :=
  if o.extractLsb 10 4 == 0 then some (o.extractLsb 3 0) else none
/-- A predicate in the D field. -/
def decodePredDst (d : BitVec 10) : Option (BitVec 4) :=
  if d.extractLsb 9 4 == 0 then some (d.extractLsb 3 0) else none

/-- A register or latch of another cluster (R237). -/
def decodeXSrc (o : BitVec 11) : Option XSrc :=
  match decodeSrc o with
  | some (.reg n) => some (.reg n)
  | some (.latch u t) => some (.latch u t)
  | _ => none
/-- The code of a register or latch of another cluster. -/
def encodeXSrc : XSrc → BitVec 11
  | .reg n => encodeSrc (.reg n)
  | .latch u t => encodeSrc (.latch u t)

/-- The compares by the low opcode bits (R233). -/
def decodeCmp : Nat → Option CmpOp
  | 0 => some .eq | 1 => some .ne | 2 => some .ilt | 3 => some .ile | 4 => some .wlt | 5 => some .wle
  | 6 => some .feq | 7 => some .flt | 8 => some .fle | 9 => some .funord | _ => none
/-- The low opcode bits of a compare. -/
def encodeCmp : CmpOp → BitVec 4
  | .eq => 0 | .ne => 1 | .ilt => 2 | .ile => 3 | .wlt => 4 | .wle => 5 | .feq => 6 | .flt => 7 | .fle => 8
  | .funord => 9

/-- The special functions by code (R247). -/
def decodeSpec : Nat → SpecFn
  | 0 => .rcp | 1 => .rsq | 2 => .exp2 | 3 => .log2 | 4 => .sin | 5 => .cos | 6 => .tanh | _ => .sigm
/-- The code of a special function. -/
def encodeSpec : SpecFn → BitVec 3
  | .rcp => 0 | .rsq => 1 | .exp2 => 2 | .log2 => 3 | .sin => 4 | .cos => 5 | .tanh => 6 | .sigm => 7

/-- The reductions by code (R246). -/
def decodeRed : Nat → Option RedOp
  | 0 => some .fadd | 1 => some .fmax | 2 => some .fmin | 3 => some .iadd | 4 => some .imax | 5 => some .imin
  | _ => none
/-- The code of a reduction. -/
def encodeRed : RedOp → BitVec 4
  | .fadd => 0 | .fmax => 1 | .fmin => 2 | .iadd => 3 | .imax => 4 | .imin => 5

/-- A selector below a bound. -/
def selBelow (o : BitVec 11) (n : Nat) : Option (BitVec 8) :=
  match decodeSel o with
  | some s => if s.toNat < n then some s else none
  | none => none

/-- The cluster slot of cluster cl. -/
def decodeV (cl : BitVec 3) (w : BitVec 56) : Decoded :=
  let op := w.extractLsb 8 0
  let df := w.extractLsb 18 9
  let fa := w.extractLsb 29 19
  let fb := w.extractLsb 40 30
  let fc := w.extractLsb 51 41
  let h : VHd := ⟨cl, w.extractLsb 54 52, w.getLsbD 55⟩
  let zb := fb == 0
  let zc := fc == 0
  let o1 (f : V1 → Instr) : Decoded := guardedO (zb && zc) (do
    return f ⟨h, ← decodeDst df, ← decodeSrc fa⟩)
  let o2 (f : V2 → Instr) : Decoded := guardedO zc (do
    return f ⟨h, ← decodeDst df, ← decodeSrc fa, ← decodeSrc fb⟩)
  let o3 (f : V3 → Instr) : Decoded := guardedO true (do
    return f ⟨h, ← decodeDst df, ← decodeSrc fa, ← decodeSrc fb, ← decodeSrc fc⟩)
  let widen (f : NarrowFmt) (n : Nat) : Decoded := guardedO zc (do
    let s ← selBelow fb n
    return .cvtWiden f ⟨h, ← decodeDst df, ← decodeSrc fa⟩ (s.extractLsb 1 0))
  let narrow (f : NarrowFmt) (n : Nat) : Decoded := guardedO true (do
    let s ← selBelow fb n
    return .cvtNarrow f h (← decodeDst df) (← decodeSrc fa) (← decodeSrc fc) (s.extractLsb 1 0))
  let ppp (f : VPPP → Instr) : Decoded := guardedO zc (do
    return f ⟨h, ← decodePredDst df, ← decodePredSrc fa, ← decodePredSrc fb⟩)
  match (op.extractLsb 8 4).toNat, (op.extractLsb 3 0).toNat with
  | 0, 0 => guarded (w == 0) .nop
  | 0x0, 1 => o2 .iadd
  | 0x0, 2 => o2 .isub
  | 0x0, 3 => o2 .imin
  | 0x0, 4 => o2 .imax
  | 0x0, 5 => o2 .vWmin
  | 0x0, 6 => o2 .vWmax
  | 0x0, 7 => o1 .iabs
  | 0x0, 8 => o2 .vAnd
  | 0x0, 9 => o2 .vOr
  | 0x0, 10 => o2 .vXor
  | 0x0, 11 => o2 .andn
  | 0x0, 12 => o2 .vShl
  | 0x0, 13 => o2 .vShr
  | 0x0, 14 => o2 .vSra
  | 0x0, 15 => o2 .rol
  | 0x1, 0 => o2 .iadds
  | 0x1, 1 => o2 .isubs
  | 0x1, 2 => o2 .wadds
  | 0x1, 3 => o2 .wsubs
  | 0x1, 4 => o2 .imul
  | 0x1, 5 => o2 .imulh
  | 0x1, 6 => o2 .wmulh
  | 0x1, 7 => o3 (.vdot4 false)
  | 0x1, 8 => o3 (.vdot4 true)
  | 0x1, 9 => o1 .vPopc
  | 0x1, 10 => o1 .vClz
  | 0x1, 11 => o3 .sel
  | 0x1, 12 => o1 .mov
  | 0x1, 13 => o2 .vBfx
  | 0x1, 14 => o3 .vBfi
  | 2, 10 => ppp .pand
  | 2, 11 => ppp .por
  | 2, 12 => ppp .pxor
  | 2, 13 => guardedO (zb && zc) (do return .pnot h (← decodePredDst df) (← decodePredSrc fa))
  | 2, 14 => guardedO (zb && zc) (do return .pany h (← decodePredDst df) (← decodePredSrc fa))
  | 2, 15 => guardedO (zb && zc) (do return .pcnt h (← decodeDst df) (← decodePredSrc fa))
  | 2, n => guardedO zc (do
      return .laneCompare (← decodeCmp n) h (← decodePredDst df) (← decodeSrc fa) (← decodeSrc fb))
  | 0x3, 0 => o2 .lperm
  | 0x3, 1 => o2 .lbc
  | 0x3, 2 => o2 .lrot
  | 3, 4 => guardedO zc (do
      let s ← selBelow fb 8
      return .xmv h (← decodeDst df) (← decodeXSrc fa) (s.extractLsb 2 0))
  | 3, 5 => guardedO zc (do
      let s ← selBelow fb 128
      return .xbc h (← decodeDst df) (← decodeXSrc fa) (s.extractLsb 2 0) (s.extractLsb 6 3))
  | 0x4, 0 => o2 .fadd
  | 0x4, 1 => o2 .fsub
  | 0x4, 2 => o2 .fmul
  | 0x4, 3 => o3 .ffma
  | 0x4, 4 => o3 .ffms
  | 0x4, 5 => o3 .fnma
  | 0x4, 6 => o2 .fmin
  | 0x4, 7 => o2 .fmax
  | 0x4, 8 => o1 .fabs
  | 0x4, 9 => o1 .fneg
  | 0x4, 10 => o2 .fdiv
  | 0x4, 11 => o1 .fsqrt
  | 0x4, 12 => o2 .fcps
  | 0x4, 13 => o1 .fclass
  | 0x5, 0 => o1 (.cvt .f32i32)
  | 0x5, 1 => o1 (.cvt .i32f32)
  | 0x5, 2 => o1 (.cvt .f32w32)
  | 0x5, 3 => o1 (.cvt .w32f32)
  | 5, 4 => narrow .bf16 2
  | 5, 5 => widen .bf16 2
  | 5, 6 => narrow .f16 2
  | 5, 7 => widen .f16 2
  | 5, 8 => narrow .e4m3 4
  | 5, 9 => widen .e4m3 4
  | 5, 10 => narrow .e5m2 4
  | 5, 11 => widen .e5m2 4
  | 5, 12 => o2 .qntE2m1b
  | 5, 13 => guardedO true (do
      let s ← selBelow fc 64
      return .dqntE2m1b ⟨h, ← decodeDst df, ← decodeSrc fa, ← decodeSrc fb⟩ (s.extractLsb 5 0))
  | 5, 14 => narrow .i8 4
  | 5, 15 => widen .i8 4
  | 0x6, 0 => o1 .frcp
  | 0x6, 1 => o1 .frsq
  | 0x6, 2 => o1 .fexp2
  | 0x6, 3 => o1 .flog2
  | 0x6, 4 => o1 .fsin
  | 0x6, 5 => o1 .fcos
  | 0x6, 6 => o1 .ftanh
  | 0x6, 7 => o1 .fsigm
  | 7, n => o1 (.specialFunction16 (decodeSpec (n % 8)) (decide (8 ≤ n)))
  | 8, 0 => guardedO true (do
      let s ← selBelow fc 2
      return .qenc (s.getLsbD 0) ⟨h, ← decodeDst df, ← decodeSrc fa, ← decodeSrc fb⟩)
  | 0x8, 1 => o2 .qadd
  | 0x8, 2 => o2 .qsub
  | 0x8, 3 => o2 .qmul
  | 0x8, 4 => o2 .qdiv
  | 0x8, 5 => o1 .qinv
  | 0x8, 6 => o1 .qneg
  | 8, 7 => guardedO zc (do
      return .qcmpeq h (← decodePredDst df) (← decodeSrc fa) (← decodeSrc fb))
  | 8, 8 => guardedO zc (do
      let s ← selBelow fb 4
      return .qdig ⟨h, ← decodeDst df, ← decodeSrc fa⟩ (s.extractLsb 1 0))
  | 8, 9 => guardedO zc (do
      let s ← selBelow fb 2
      return .qdec (s.getLsbD 0) ⟨h, ← decodeDst df, ← decodeSrc fa⟩)
  | 8, 10 => o1 .qcvt
  | 8, 11 => guardedO true (do
      let s ← selBelow fc 4
      return .qsetd ⟨h, ← decodeDst df, ← decodeSrc fa, ← decodeSrc fb⟩ (s.extractLsb 1 0))
  | 9, n =>
    match decodeRed n with
    | some r => o1 (.vred r)
    | none => .error .illegalOpcode
  | _, _ => .error .illegalOpcode

/-! ### The bundle (R19 to R22, R50) -/

/-- The header and prefix, with their reserved bits zero (R21, R22). -/
def decodeHeader (w : BitVec 24) : Option Header :=
  if w.extractLsb 15 10 == 0 && w.extractLsb 23 22 == 0 then
    some ⟨w.getLsbD 0, w.getLsbD 1, w.getLsbD 2, w.getLsbD 3, w.getLsbD 4, w.getLsbD 5, w.getLsbD 6,
      w.getLsbD 7, w.getLsbD 8, w.getLsbD 9, w.extractLsb 18 16, w.extractLsb 20 19, w.getLsbD 21⟩
  else none

/-- The cluster slots in order, from cluster n on. -/
def decodeVs (w : Bundle768) : Nat → Nat → Except BadEnc (List Instr)
  | 0, _ => .ok []
  | n + 1, c => do
    let i ← decodeV (BitVec.ofNat 3 c) (w.extractLsb' (320 + 56 * c) 56)
    let r ← decodeVs w n (c + 1)
    return i :: r

/-- The bundle: every slot decoded, and the cross-slot rules of R50 checked. -/
def decodeBundle (w : Bundle768) : Except BadEnc Bundle := do
  let hdr ← match decodeHeader (w.extractLsb' 0 24) with
    | some h => .ok h
    | none => .error .reservedField
  let c ← decodeC (w.extractLsb' 24 40)
  let s0 ← decodeS 0 (w.extractLsb' 64 40)
  let s1 ← decodeS 1 (w.extractLsb' 104 40)
  let m ← decodeM (w.extractLsb' 144 64)
  let k ← decodeK (w.extractLsb' 208 64)
  let mx ← decodeX (w.extractLsb' 272 48)
  let v ← decodeVs w 8 0
  let b : Bundle := ⟨hdr, c, s0, s1, m, k, mx, v⟩
  if b.wf then return b else .error .badBundle

/-- The instruction of the first non-zero slot of a bundle, `nop` when every slot is zero. -/
def Bundle.first (b : Bundle) : Instr :=
  match b.slots.filter (· != .nop) with
  | i :: _ => i
  | [] => .nop

/-- The instruction the decoder reads from a bundle whose low bits are w, the bits above zero: that of its
first non-zero slot. -/
def decodeTableWord (nbits w : Nat) : Option Instr :=
  match decodeBundle (BitVec.ofNat 768 (w % 2 ^ nbits)) with
  | .ok b => some b.first
  | .error _ => none

/-! ### The encoder -/

/-- A slot of the bundle, and its bits. -/
inductive SlotBits where
  | c (w : BitVec 40)
  | s (sl : SSlot) (w : BitVec 40)
  | m (w : BitVec 64)
  | k (w : BitVec 64)
  | x (w : BitVec 48)
  | v (cl : BitVec 3) (w : BitVec 56)
  deriving DecidableEq, Repr

/-- The decoder of whichever slot the bits are for. -/
def decodeSlot : SlotBits → Decoded
  | .c w => decodeC w
  | .s sl w => decodeS sl w
  | .m w => decodeM w
  | .k w => decodeK w
  | .x w => decodeX w
  | .v cl w => decodeV cl w

/-- The fields of a control slot (R24). -/
def encC (op : BitVec 6) (k : KReg) (neg : Bool) (a : AReg) (disp : BitVec 24) : SlotBits :=
  .c (op ++ k ++ ofB neg ++ a ++ disp)
/-- The fields of a scalar slot (R25). -/
def encS (sl : SSlot) (op : BitVec 8) (d a b : AReg) (imm : BitVec 14) : SlotBits :=
  .s sl (op ++ d ++ a ++ b ++ imm)
/-- The fields of a memory slot (R26). -/
def encM (op : BitVec 8) (d : BitVec 11) (g : GReg) (a : GAddr) (hint : BitVec 2) (w : Bool) (ord : BitVec 3) :
    SlotBits :=
  .m (op ++ d ++ g ++ a.base ++ a.idx ++ a.sc ++ hint ++ ofB w ++ ord ++ a.off)
/-- A global memory operand. -/
def encG (op : BitVec 8) (d : BitVec 11) (m : GMem) : SlotBits :=
  encM op d (0#2 ++ encodeScope m.scope) m.a m.hint m.w (encodeOrd m.ord)
/-- A local memory operand. -/
def encL (op : BitVec 8) (d : BitVec 11) (m : LMem) : SlotBits := encM op d m.g m.a 0 false 0
/-- No address. -/
def GAddr.zero : GAddr := ⟨0, 0, 0, 0⟩
/-- The fields of a copy slot (R27). -/
def encK (op : BitVec 6) (sg dg : GReg) (sa da len : AReg) (csh : BitVec 2) (bar : BitVec 6) (dcore : BitVec 4)
    (hint : BitVec 2) (imm : BitVec 16) : SlotBits :=
  .k (op ++ sg ++ dg ++ sa ++ da ++ len ++ csh ++ bar ++ dcore ++ hint ++ imm)
/-- A data-moving copy (R117). -/
def encCopy (op : BitVec 6) (sg dg : GReg) (sa da len : AReg) (dcore : BitVec 4) (hint : BitVec 2)
    (o : CopyOpt) : SlotBits :=
  encK op sg dg sa da len o.csh o.bar dcore hint (0#10 ++ ofB o.sh ++ ofB o.be ++ o.cid)
/-- The fields of a matrix slot (R28). -/
def encX (op : BitVec 6) (z : BitVec 1) (ml : BitVec 3) (src : MxSrc) (bo : AReg) (msh : BitVec 2) (ss : AReg) :
    SlotBits :=
  let (bk, bs, hint, pin) : BitVec 2 × BitVec 6 × BitVec 2 × Bool := match src with
    | .seg g => (0, 0#1 ++ g, 0, false)
    | .glob a hint pin => (1, a, hint, pin)
    | .tile h => (2, h, 0, false)
  .x (op ++ z ++ ml ++ bk ++ bs ++ bo ++ msh ++ ss ++ hint ++ ofB pin ++ 0#13)
/-- The fields of a cluster slot (R29). -/
def encV (op : BitVec 9) (h : VHd) (d : BitVec 10) (a b c : BitVec 11) : SlotBits :=
  .v h.cl (ofB h.nw ++ h.pr ++ c ++ b ++ a ++ d ++ op)
/-- One source. -/
def encV1 (op : BitVec 9) (o : V1) : SlotBits := encV op o.h (encodeDst o.d) (encodeSrc o.a) 0 0
/-- Two sources. -/
def encV2 (op : BitVec 9) (o : V2) : SlotBits := encV op o.h (encodeDst o.d) (encodeSrc o.a) (encodeSrc o.b) 0
/-- Three sources. -/
def encV3 (op : BitVec 9) (o : V3) : SlotBits :=
  encV op o.h (encodeDst o.d) (encodeSrc o.a) (encodeSrc o.b) (encodeSrc o.c)
/-- Two predicates to a predicate. -/
def encVP (op : BitVec 9) (o : VPPP) : SlotBits := encV op o.h (0#6 ++ o.d) (0#7 ++ o.a) (0#7 ++ o.b) 0
/-- An atomic. -/
def encAtom (op : AtomOp) (x : AtomArg) (m : GMem) : SlotBits := encG (1#4 ++ encodeAtomOp op) (encodeAtomArg x) m

/-- The slot an instruction belongs in and its bits; none for an event, which has no encoding, and for
`nop`, whose slot is all zero in every slot (R20). -/
def encode : Instr → Option SlotBits
  | .bra disp => some (encC 1 0 false 0 disp)
  | .brf k neg disp => some (encC 2 k neg 0 disp)
  | .brq neg disp => some (encC 3 0 neg 0 disp)
  | .brp p neg disp => some (encC 4 0 neg (0#2 ++ p) disp)
  | .jmpr k neg a disp => some (encC 5 k neg a disp)
  | .call a disp => some (encC 6 0 false a disp)
  | .ret k neg a => some (encC 7 k neg a 0)
  | .loop lc a disp => some (encC 8 (0#1 ++ lc) false a disp)
  | .lend lc disp => some (encC 9 (0#1 ++ lc) false 0 disp)
  | .jtab a idx g loc => some (encC 0xA 0 false a (0#12 ++ ofB loc ++ g ++ idx))
  | .trap k neg code => some (encC 0xB k neg 0 (0#8 ++ code))
  | .trapSet a mask disp => some (encC 0xB 0 false a (1#2 ++ mask ++ disp))
  | .trapClr => some (encC 0xB 0 false 0 (2#2 ++ 0#22))
  | .retire => some (encC 0xC 0 false 0 0)
  | .trig => some (encC 0xD 0 false 0 0)
  | .wvis => some (encC 0xE 0 false 0 0)
  | .eret => some (encC 0xF 0 false 0 0)
  | .eretGo disp => some (encC 0xF 0 false 0 (1#1 ++ disp))
  | .bara h a sc => some (encC 0x10 0 false a (0#15 ++ encodeScope sc ++ h))
  | .barw h a sc => some (encC 0x11 0 false a (0#15 ++ encodeScope sc ++ h))
  | .grow a => some (encC 0x12 0 false a 0)
  | .add o => some (encS o.sl 0x01 o.d o.a o.b 0)
  | .sub o => some (encS o.sl 0x02 o.d o.a o.b 0)
  | .and o => some (encS o.sl 0x03 o.d o.a o.b 0)
  | .or o => some (encS o.sl 0x04 o.d o.a o.b 0)
  | .xor o => some (encS o.sl 0x05 o.d o.a o.b 0)
  | .shl o => some (encS o.sl 0x06 o.d o.a o.b 0)
  | .shr o => some (encS o.sl 0x07 o.d o.a o.b 0)
  | .sra o => some (encS o.sl 0x08 o.d o.a o.b 0)
  | .mul o => some (encS o.sl 0x09 o.d o.a o.b 0)
  | .mulh o => some (encS o.sl 0x0A o.d o.a o.b 0)
  | .mulhw o => some (encS o.sl 0x0B o.d o.a o.b 0)
  | .min o => some (encS o.sl 0x0C o.d o.a o.b 0)
  | .max o => some (encS o.sl 0x0D o.d o.a o.b 0)
  | .wmin o => some (encS o.sl 0x0E o.d o.a o.b 0)
  | .wmax o => some (encS o.sl 0x0F o.d o.a o.b 0)
  | .addi o => some (encS o.sl 0x10 o.d o.a 0 o.imm)
  | .andi o => some (encS o.sl 0x11 o.d o.a 0 o.imm)
  | .ori o => some (encS o.sl 0x12 o.d o.a 0 o.imm)
  | .xori o => some (encS o.sl 0x13 o.d o.a 0 o.imm)
  | .shli o => some (encS o.sl 0x14 o.d o.a 0 (0#8 ++ o.cnt))
  | .shri o => some (encS o.sl 0x15 o.d o.a 0 (0#8 ++ o.cnt))
  | .srai o => some (encS o.sl 0x16 o.d o.a 0 (0#8 ++ o.cnt))
  | .li sl d imm => some (encS sl 0x17 d 0 0 imm)
  | .lih o => some (encS o.sl 0x18 o.d o.a 0 o.imm)
  | .lea o sh off => some (encS o.sl 0x19 o.d o.a o.b (off ++ sh))
  | .cmpeq o => some (encS o.sl 0x1A (0#3 ++ o.d) o.a o.b 0)
  | .cmplt o => some (encS o.sl 0x1B (0#3 ++ o.d) o.a o.b 0)
  | .cmpltw o => some (encS o.sl 0x1C (0#3 ++ o.d) o.a o.b 0)
  | .cmpeqi o => some (encS o.sl 0x1D (0#3 ++ o.d) o.a 0 o.imm)
  | .cmplti o => some (encS o.sl 0x1E (0#3 ++ o.d) o.a 0 o.imm)
  | .selk o k => some (encS o.sl 0x1F o.d o.a o.b (0#11 ++ k))
  | .bfx o pos len => some (encS o.sl 0x20 o.d o.a 0 (0#1 ++ len ++ pos))
  | .bfi o pos len => some (encS o.sl 0x21 o.d o.a o.b (0#1 ++ len ++ pos))
  | .clz o => some (encS o.sl 0x22 o.d o.a 0 0)
  | .ctz o => some (encS o.sl 0x23 o.d o.a 0 0)
  | .popc o => some (encS o.sl 0x24 o.d o.a 0 0)
  | .mfsr sl d r => some (encS sl 0x25 d 0 0 (0#2 ++ encodeSR r))
  | .mtsr sl r a => some (encS sl 0x26 0 a 0 (0#2 ++ encodeSR r))
  | .getg sl d g => some (encS sl 0x27 d (0#1 ++ g) 0 0)
  | .setg sl g a => some (encS sl 0x28 (0#1 ++ g) a 0 0)
  | .kand o => some (encS o.sl 0x29 (0#3 ++ o.d) (0#3 ++ o.a) (0#3 ++ o.b) 0)
  | .kor o => some (encS o.sl 0x2A (0#3 ++ o.d) (0#3 ++ o.a) (0#3 ++ o.b) 0)
  | .kxor o => some (encS o.sl 0x2B (0#3 ++ o.d) (0#3 ++ o.a) (0#3 ++ o.b) 0)
  | .knot sl d a => some (encS sl 0x2C (0#3 ++ d) (0#3 ++ a) 0 0)
  | .popsq sl d => some (encS sl 0x2D d 0 0 0)
  | .popbq sl d => some (encS sl 0x2E d 0 0 0)
  | .lda t d m => some (encG (0#4 ++ encodeLdTy t) (encodeDA d) m)
  | .ldaLocal t d m => some (encL (8#4 ++ encodeLdTy t) (encodeDA d) m)
  | .sta t d m => some (encG (0#4 ++ encodeStTy t) (encodeDA d) m)
  | .staLocal t d m => some (encL (8#4 ++ encodeStTy t) (encodeDA d) m)
  | .ldq q m => some (encG 0x0C (encodeInQ q) m)
  | .ldqLocal q m => some (encL 0x8C (encodeInQ q) m)
  | .ldqx q m => some (encG 0x0D (encodeInQ q) m)
  | .ldqxLocal q m => some (encL 0x8D (encodeInQ q) m)
  | .stq q m => some (encG 0x0E (encodeOutQ q) m)
  | .stqLocal q m => some (encL 0x8E (encodeOutQ q) m)
  | .atomAdd x m => some (encAtom .add x m)
  | .atomMin x m => some (encAtom .min x m)
  | .atomMax x m => some (encAtom .max x m)
  | .atomWmin x m => some (encAtom .wmin x m)
  | .atomWmax x m => some (encAtom .wmax x m)
  | .atomAnd x m => some (encAtom .and x m)
  | .atomOr x m => some (encAtom .or x m)
  | .atomXor x m => some (encAtom .xor x m)
  | .atomSwap x m => some (encAtom .swap x m)
  | .atomCas x m => some (encAtom .cas x m)
  | .atomFadd x m => some (encAtom .fadd x m)
  | .atomQadd x m => some (encAtom .qadd x m)
  | .atomLocal op x m => some (encL (9#4 ++ encodeAtomOp op) (encodeAtomArg x) m)
  | .clrd (.queue q) m => some (encG 0x20 (encodeInQ q) m)
  | .clrd (.reg d) m => some (encG 0x20 (encodeDA d) m)
  | .cmstStage q m => some (encG 0x21 (encodeOutQ q) m)
  | .cmstCommit d ord sc => some (encM 0x21 (encodeDA d) (0#2 ++ encodeScope sc) .zero 0 false (encodeOrd ord))
  | .cmab => some (encM 0x22 0 0 .zero 0 false 0)
  | .fence ord sc => some (encM 0x28 0 (0#2 ++ encodeScope sc) .zero 0 false (encodeOrd ord))
  | .sbind q (.glob hint) base ssh => some (encM 0x29 (encodeStreamQ q) 0 ⟨base, 0, 0, 0#18 ++ ssh⟩ hint false 0)
  | .sbind q (.loc g) base ssh =>
    some (encM 0x29 (encodeStreamQ q) g ⟨base, 0, 0, 0#17 ++ 1#1 ++ ssh⟩ 0 false 0)
  | .sunb q => some (encM 0x2A (encodeStreamQ q) 0 .zero 0 false 0)
  | .sfence => some (encM 0x2B 0 0 .zero 0 false 0)
  | .segnew d g size fmt empty =>
    some (encM 0x30 (encodeDA d) g ⟨size, 0, 0, 0#15 ++ ofB empty ++ encodeFmt fmt⟩ 0 false 0)
  | .segfree g => some (encM 0x31 0 g .zero 0 false 0)
  | .segpin g => some (encM 0x32 0 g .zero 0 false 0)
  | .segunpin g => some (encM 0x33 0 g .zero 0 false 0)
  | .segsz d g => some (encM 0x34 (encodeDA d) g .zero 0 false 0)
  | .segclr g off cnt act => some (encM 0x35 0 g ⟨off, cnt, 0, 0#18 ++ act⟩ 0 false 0)
  | .segfmt d g fmt => some (encM 0x36 (encodeDA d) g ⟨0, 0, 0, 0#16 ++ encodeFmt fmt⟩ 0 false 0)
  | .shld c a hint => some (encM 0x38 (encodeShapeClass c) 0 a hint false 0)
  | .shst c a hint => some (encM 0x39 (encodeShapeClass c) 0 a hint false 0)
  | .cpss sg dg sa da len o => some (encCopy 1 sg dg sa da len 0 0 o)
  | .cpsp mbr sg dg sa da len o => some (encCopy 2 sg dg sa da len (1#1 ++ mbr) 0 o)
  | .cpgs hint dg sa da len o => some (encCopy 3 0 dg sa da len 0 hint o)
  | .cpsg hint sg sa da len o => some (encCopy 4 sg 0 sa da len 0 hint o)
  | .cpts hint dg sa da len o => some (encCopy 5 0 dg sa da len 0 hint o)
  | .cpst hint sg sa da len o => some (encCopy 6 sg 0 sa da len 0 hint o)
  | .cpwarm hint sa len o => some (encCopy 7 0 0 sa 0 len 0 hint o)
  | .cpfill dg sa da len o => some (encCopy 8 0 dg sa da len 0 0 o)
  | .cpwait da mask => some (encK 9 0 0 0 da 0 0 0 0 0 mask)
  | .cpcan mask => some (encK 0xA 0 0 0 0 0 0 0 0 0 mask)
  | .xpin sg dg sa da len => some (encK 0x10 sg dg sa da len 0 0 0 0 0)
  | .xpout => some (encK 0x11 0 0 0 0 0 0 0 0 0 0)
  | .xmit sg sa => some (encK 0x12 sg 0 sa 0 0 0 0 0 0 0)
  | .xsel dg da port => some (encK 0x13 0 dg 0 da 0 0 0 0 0 (0#13 ++ port))
  | .cgjoin gid sa len da => some (encK 0x14 0 0 sa da len 0 0 0 0 (gid ++ 0#8))
  | .cgred op gid sg dg sa da len cid be bar =>
    some (encK 0x15 sg dg sa da len 0 bar 0 0 (gid ++ encodeCgOp op ++ ofB be ++ cid))
  | .cgbc gid sg dg sa da len cid be bar =>
    some (encK 0x16 sg dg sa da len 0 bar 0 0 (gid ++ 0#3 ++ ofB be ++ cid))
  | .cgleave gid => some (encK 0x17 0 0 0 0 0 0 0 0 0 (gid ++ 0#8))
  | .enq sa da len cid => some (encK 0x18 0 0 sa da len 0 0 0 0 (0#12 ++ cid))
  | .mld ml src bo msh => some (encX 1 0 ml src bo msh 0)
  | .zclr z => some (encX 2 z 0 (.seg 0) 0 0 0)
  | .mma f z ml src bo msh ss => some (encX (encodeMmaFmt f) z ml src bo msh ss)
  | .zrd bf z bo => some (encX (0b01000#5 ++ ofB bf) z 0 (.seg 0) bo 0 0)
  | .zst bf z src bo msh => some (encX (0b01001#5 ++ ofB bf) z 0 src bo msh 0)
  | .iadd o => some (encV2 0x001 o)
  | .isub o => some (encV2 0x002 o)
  | .imin o => some (encV2 0x003 o)
  | .imax o => some (encV2 0x004 o)
  | .vWmin o => some (encV2 0x005 o)
  | .vWmax o => some (encV2 0x006 o)
  | .iabs o => some (encV1 0x007 o)
  | .vAnd o => some (encV2 0x008 o)
  | .vOr o => some (encV2 0x009 o)
  | .vXor o => some (encV2 0x00A o)
  | .andn o => some (encV2 0x00B o)
  | .vShl o => some (encV2 0x00C o)
  | .vShr o => some (encV2 0x00D o)
  | .vSra o => some (encV2 0x00E o)
  | .rol o => some (encV2 0x00F o)
  | .iadds o => some (encV2 0x010 o)
  | .isubs o => some (encV2 0x011 o)
  | .wadds o => some (encV2 0x012 o)
  | .wsubs o => some (encV2 0x013 o)
  | .imul o => some (encV2 0x014 o)
  | .imulh o => some (encV2 0x015 o)
  | .wmulh o => some (encV2 0x016 o)
  | .vPopc o => some (encV1 0x019 o)
  | .vClz o => some (encV1 0x01A o)
  | .sel o => some (encV3 0x01B o)
  | .mov o => some (encV1 0x01C o)
  | .vBfx o => some (encV2 0x01D o)
  | .vBfi o => some (encV3 0x01E o)
  | .lperm o => some (encV2 0x030 o)
  | .lbc o => some (encV2 0x031 o)
  | .lrot o => some (encV2 0x032 o)
  | .fadd o => some (encV2 0x040 o)
  | .fsub o => some (encV2 0x041 o)
  | .fmul o => some (encV2 0x042 o)
  | .ffma o => some (encV3 0x043 o)
  | .ffms o => some (encV3 0x044 o)
  | .fnma o => some (encV3 0x045 o)
  | .fmin o => some (encV2 0x046 o)
  | .fmax o => some (encV2 0x047 o)
  | .fabs o => some (encV1 0x048 o)
  | .fneg o => some (encV1 0x049 o)
  | .fdiv o => some (encV2 0x04A o)
  | .fsqrt o => some (encV1 0x04B o)
  | .fcps o => some (encV2 0x04C o)
  | .fclass o => some (encV1 0x04D o)
  | .frcp o => some (encV1 0x060 o)
  | .frsq o => some (encV1 0x061 o)
  | .fexp2 o => some (encV1 0x062 o)
  | .flog2 o => some (encV1 0x063 o)
  | .fsin o => some (encV1 0x064 o)
  | .fcos o => some (encV1 0x065 o)
  | .ftanh o => some (encV1 0x066 o)
  | .fsigm o => some (encV1 0x067 o)
  | .qadd o => some (encV2 0x081 o)
  | .qsub o => some (encV2 0x082 o)
  | .qmul o => some (encV2 0x083 o)
  | .qdiv o => some (encV2 0x084 o)
  | .qinv o => some (encV1 0x085 o)
  | .qneg o => some (encV1 0x086 o)
  | .vdot4 false o => some (encV3 0x017 o)
  | .vdot4 true o => some (encV3 0x018 o)
  | .cvt .f32i32 o => some (encV1 0x050 o)
  | .cvt .i32f32 o => some (encV1 0x051 o)
  | .cvt .f32w32 o => some (encV1 0x052 o)
  | .cvt .w32f32 o => some (encV1 0x053 o)
  | .laneCompare c h d a b => some (encV (2#5 ++ encodeCmp c) h (0#6 ++ d) (encodeSrc a) (encodeSrc b) 0)
  | .pand o => some (encVP 0x02A o)
  | .por o => some (encVP 0x02B o)
  | .pxor o => some (encVP 0x02C o)
  | .pnot h d a => some (encV 0x02D h (0#6 ++ d) (0#7 ++ a) 0 0)
  | .pany h d a => some (encV 0x02E h (0#6 ++ d) (0#7 ++ a) 0 0)
  | .pcnt h d a => some (encV 0x02F h (encodeDst d) (0#7 ++ a) 0 0)
  | .xmv h d a sc => some (encV 0x034 h (encodeDst d) (encodeXSrc a) (encodeSel (0#5 ++ sc)) 0)
  | .xbc h d a sc ln => some (encV 0x035 h (encodeDst d) (encodeXSrc a) (encodeSel (0#1 ++ ln ++ sc)) 0)
  | .cvtWiden f o part =>
    some (encV (match f with | .bf16 => 0x055 | .f16 => 0x057 | .e4m3 => 0x059 | .e5m2 => 0x05B | .i8 => 0x05F)
      o.h (encodeDst o.d) (encodeSrc o.a) (encodeSel (0#6 ++ part)) 0)
  | .cvtNarrow f h d a c part =>
    some (encV (match f with | .bf16 => 0x054 | .f16 => 0x056 | .e4m3 => 0x058 | .e5m2 => 0x05A | .i8 => 0x05E)
      h (encodeDst d) (encodeSrc a) (encodeSel (0#6 ++ part)) (encodeSrc c))
  | .qntE2m1b o => some (encV2 0x05C o)
  | .dqntE2m1b o sel => some (encV 0x05D o.h (encodeDst o.d) (encodeSrc o.a) (encodeSrc o.b) (encodeSel (0#2 ++ sel)))
  | .vred r o => some (encV1 (9#5 ++ encodeRed r) o)
  | .specialFunction16 f half o => some (encV1 (7#5 ++ ofB half ++ encodeSpec f) o)
  | .qenc f32 o => some (encV 0x080 o.h (encodeDst o.d) (encodeSrc o.a) (encodeSrc o.b) (encodeSel (0#7 ++ ofB f32)))
  | .qcmpeq h d a b => some (encV 0x087 h (0#6 ++ d) (encodeSrc a) (encodeSrc b) 0)
  | .qdig o s => some (encV 0x088 o.h (encodeDst o.d) (encodeSrc o.a) (encodeSel (0#6 ++ s)) 0)
  | .qdec den o => some (encV 0x089 o.h (encodeDst o.d) (encodeSrc o.a) (encodeSel (0#7 ++ ofB den)) 0)
  | .qcvt o => some (encV1 0x08A o)
  | .qsetd o s => some (encV 0x08B o.h (encodeDst o.d) (encodeSrc o.a) (encodeSrc o.b) (encodeSel (0#6 ++ s)))
  | _ => none

end Sys2Proof
end

