-- ==== Sys2Proof/Machine/Num.lean ====
section
/-! DEFINITION. Exact values, the rounding and saturation of R219 to R223, the floating-point formats of
R211 and the exact arithmetic of R240 to R242. -/

namespace Sys2Proof.Machine

/-! ### Exact magnitudes -/

/-- floor(√n) by trial of each bit from the highest down. -/
def isqrtAux (n : Nat) : Nat → Nat → Nat
  | 0, r => r
  | i + 1, r => isqrtAux n i (if (r + 2 ^ i) * (r + 2 ^ i) ≤ n then r + 2 ^ i else r)

/-- floor(√n). -/
def isqrt (n : Nat) : Nat := isqrtAux n (n.log2 / 2 + 1) 0

/-- A positive magnitude: n/d exactly, √(n/d) exactly, or an irrational value that n/d approximates far
more closely than any rounding step (log entry 10). -/
inductive Mag where
  | rat (n d : Nat)
  | root (n d : Nat)
  | approx (n d : Nat)
  deriving DecidableEq, Repr

/-- ⌊x · 2^k⌋ for the ratio n/d, and whether anything was cut off. -/
def scaleRat (n d : Nat) (k : Int) : Nat × Bool :=
  let num := if 0 ≤ k then n * 2 ^ k.toNat else n
  let den := if 0 ≤ k then d else d * 2 ^ (-k).toNat
  (num / den, num % den != 0)

/-- ⌊|x| · 2^k⌋, and whether anything was cut off. -/
def Mag.scaled (m : Mag) (k : Int) : Nat × Bool :=
  match m with
  | .rat n d => scaleRat n d k
  | .approx n d => ((scaleRat n d k).1, true)
  | .root n d =>
    let (q, r) := scaleRat n d (2 * k)
    let s := isqrt q
    (s, r || s * s != q)

/-- floor(log2 |x|). -/
def Mag.expo (m : Mag) : Int :=
  let est : Int := match m with
    | .rat n d | .approx n d => (n.log2 : Int) - (d.log2 : Int)
    | .root n d => ((n.log2 : Int) - (d.log2 : Int)).fdiv 2
  if (m.scaled (-est)).1 ≥ 1 then est else est - 1

/-- m · 2^e as a magnitude (m positive). -/
def Mag.dyadic (m : Nat) (e : Int) : Mag :=
  if 0 ≤ e then .rat (m * 2 ^ e.toNat) 1 else .rat m (2 ^ (-e).toNat)

/-! ### Rounding (R219, R222) -/

/-- The rounding modes (R22). -/
inductive RM where
  | rne | rtz | rdn | rup | rna | rsr
  deriving DecidableEq, Repr

/-- The overflow handling (R22). -/
inductive Sat where
  | ieee | finite | wrap
  deriving DecidableEq, Repr

/-- A prefix in force (R22, R222). -/
structure Prefix where
  rm : RM
  sat : Sat
  nz : Bool
  deriving DecidableEq, Repr

/-- The fixed defaults: RNE, IEEE, denormals kept (R222). -/
def Prefix.default : Prefix := ⟨.rne, .ieee, false⟩

/-- RSR acts as RNE, for the instructions of R239 that take no draw. -/
def Prefix.noRsr (p : Prefix) : Prefix := if p.rm = .rsr then { p with rm := .rne } else p

/-- The prefix a bundle's header puts in force (R22, R222). -/
def Header.toPrefix (h : Header) : Prefix :=
  if h.pxe then
    ⟨match h.rm.toNat with | 0 => .rne | 1 => .rtz | 2 => .rdn | 3 => .rup | 4 => .rna | _ => .rsr,
     match h.sat.toNat with | 0 => .ieee | 1 => .finite | _ => .wrap, h.nz⟩
  else Prefix.default

/-- The multiple of 2^u, as a count, to which the magnitude rounds (R219): `neg` is the sign of x and
`draw` the stochastic draw of R223. -/
def roundMag (rm : RM) (neg : Bool) (draw : Nat) (u : Int) (m : Mag) : Nat :=
  let (q2, rest) := m.scaled (1 - u)
  let lo := q2 / 2
  let half := q2 % 2 == 1
  if !half && !rest then lo
  else match rm with
    | .rne => if half && (rest || lo % 2 == 1) then lo + 1 else lo
    | .rtz => lo
    | .rdn => if neg then lo + 1 else lo
    | .rup => if neg then lo else lo + 1
    | .rna => if half then lo + 1 else lo
    | .rsr =>
      let (t, r) := m.scaled (32 - u)
      if draw < t % 2 ^ 32 + (if r then 1 else 0) then lo + 1 else lo

/-- The draw j of the generator keyed by a seed (R223). -/
def drawOf (seed : Word) (j : Nat) : Nat :=
  let z0 : Word := seed + BitVec.ofNat 64 j * 0x9E3779B97F4A7C15
  let z1 : Word := (z0 ^^^ (z0 >>> 30)) * 0xBF58476D1CE4E5B9
  let z2 : Word := (z1 ^^^ (z1 >>> 27)) * 0x94D049BB133111EB
  ((z2 ^^^ (z2 >>> 31)) >>> 32).toNat

/-! ### Formats (R211, R212) -/

/-- A binary floating-point format; `noInf` marks E4M3, whose only NaN is all ones. -/
structure FFmt where
  ebits : Nat
  mbits : Nat
  bias : Nat
  noInf : Bool
  deriving DecidableEq, Repr

def fp32 : FFmt := ⟨8, 23, 127, false⟩
def fp16 : FFmt := ⟨5, 10, 15, false⟩
def bf16 : FFmt := ⟨8, 7, 127, false⟩
def e4m3 : FFmt := ⟨4, 3, 7, true⟩
def e5m2 : FFmt := ⟨5, 2, 15, false⟩

/-- The width of a format in bits. -/
def FFmt.width (f : FFmt) : Nat := 1 + f.ebits + f.mbits
/-- The exponent field with every bit set. -/
def FFmt.eOnes (f : FFmt) : Nat := 2 ^ f.ebits - 1
/-- The sign bit in place. -/
def FFmt.signBit (f : FFmt) (neg : Bool) : Nat := if neg then 2 ^ (f.ebits + f.mbits) else 0
/-- The largest finite magnitude's encoding. -/
def FFmt.maxBits (f : FFmt) : Nat :=
  if f.noInf then f.eOnes * 2 ^ f.mbits + (2 ^ f.mbits - 2) else (f.eOnes - 1) * 2 ^ f.mbits + (2 ^ f.mbits - 1)
/-- Infinity's encoding. -/
def FFmt.infBits (f : FFmt) : Nat := f.eOnes * 2 ^ f.mbits
/-- The canonical NaN (R211, R212). -/
def FFmt.nanBits (f : FFmt) : Nat :=
  if f.noInf then f.eOnes * 2 ^ f.mbits + (2 ^ f.mbits - 1) else f.eOnes * 2 ^ f.mbits + 2 ^ (f.mbits - 1)

/-- A decoded floating-point value: ± m · 2^e when finite. -/
inductive FVal where
  | nan
  | inf (neg : Bool)
  | fin (neg : Bool) (m : Nat) (e : Int)
  deriving DecidableEq, Repr

/-- The value of an encoding (R211). -/
def FFmt.decode (f : FFmt) (bits : Nat) : FVal :=
  let neg := bits / 2 ^ (f.ebits + f.mbits) % 2 == 1
  let e := bits / 2 ^ f.mbits % 2 ^ f.ebits
  let m := bits % 2 ^ f.mbits
  if e == f.eOnes && f.noInf && m == 2 ^ f.mbits - 1 then .nan
  else if e == f.eOnes && !f.noInf then (if m == 0 then .inf neg else .nan)
  else if e == 0 then .fin neg m (1 - (f.bias : Int) - f.mbits)
  else .fin neg (2 ^ f.mbits + m) ((e : Int) - f.bias - f.mbits)

/-- An exact result before rounding. -/
inductive XVal where
  | nan
  | inf (neg : Bool)
  | zero (neg : Bool)
  | mag (neg : Bool) (m : Mag)
  deriving DecidableEq, Repr

/-- The exact value of a decoded value. -/
def FVal.toX : FVal → XVal
  | .nan => .nan
  | .inf n => .inf n
  | .fin n m e => if m = 0 then .zero n else .mag n (.dyadic m e)

/-- An exact integer. -/
def XVal.ofInt (i : Int) : XVal := if i = 0 then .zero false else .mag (decide (i < 0)) (.rat i.natAbs 1)

/-- The overflow result of R220, sign included. -/
def overflowBits (f : FFmt) (p : Prefix) (neg : Bool) : Nat :=
  let max := f.signBit neg + f.maxBits
  let inf := f.signBit neg + f.infBits
  if f.noInf || p.sat = .finite then max
  else match p.rm with
    | .rne | .rna | .rsr => inf
    | .rtz => max
    | .rup => if neg then max else inf
    | .rdn => if neg then inf else max

/-- The result of an infinite x (R220). -/
def infiniteBits (f : FFmt) (p : Prefix) (neg : Bool) : Nat :=
  if f.noInf || p.sat = .finite then f.signBit neg + f.maxBits else f.signBit neg + f.infBits

/-- sat(round(x, rm), f), then R221: the encoding of an exact result in a floating-point format. -/
def FFmt.encode (f : FFmt) (p : Prefix) (draw : Nat) (x : XVal) : Nat :=
  match x with
  | .nan => f.nanBits
  | .inf n => infiniteBits f p n
  | .zero n => f.signBit n
  | .mag n m =>
    let emin : Int := 1 - (f.bias : Int) - f.mbits
    let u : Int := max (m.expo - f.mbits) emin
    let q0 := roundMag p.rm n draw u m
    let (q, u) : Nat × Int := if q0 = 2 ^ (f.mbits + 1) then (2 ^ f.mbits, u + 1) else (q0, u)
    if q < 2 ^ f.mbits then
      (if p.nz then f.signBit n else f.signBit n + q)
    else
      let e : Nat := (u + f.mbits + f.bias).toNat
      let r := e * 2 ^ f.mbits + (q - 2 ^ f.mbits)
      if f.maxBits < r then overflowBits f p n else f.signBit n + r

/-- The rounded integer of an exact finite value (R219). -/
def roundInt (rm : RM) (draw : Nat) (x : XVal) : Int :=
  match x with
  | .mag n m =>
    let q : Int := roundMag rm n draw 0 m
    if n then -q else q
  | _ => 0

/-- The integer row of R220 for an integer result in lo..hi, n bits wide. -/
def satInt (s : Sat) (lo hi : Int) (n : Nat) (x : Int) : BitVec n :=
  if s = .wrap then BitVec.ofInt n x else BitVec.ofInt n (max lo (min hi x))

/-- sat(round(x, rm), .iN or .wN) with the infinite and NaN rows (R220). -/
def encodeInt (p : Prefix) (draw : Nat) (signed : Bool) (n : Nat) (x : XVal) : BitVec n :=
  let lo : Int := if signed then -(2 ^ (n - 1) : Nat) else 0
  let hi : Int := if signed then (2 ^ (n - 1) : Nat) - 1 else (2 ^ n : Nat) - 1
  match x with
  | .nan => 0
  | .inf neg => BitVec.ofInt n (if neg then lo else hi)
  | x => satInt p.sat lo hi n (roundInt p.rm draw x)

/-! ### Exact arithmetic (R240 to R242) -/

/-- A signed dyadic: i · 2^e. -/
def signedDyadic (n : Bool) (m : Nat) : Int := if n then -(m : Int) else m

/-- i · 2^e as an exact value; `zneg` is the sign of an exact zero. -/
def XVal.ofDyadic (zneg : Bool) (i : Int) (e : Int) : XVal :=
  if i = 0 then .zero zneg else .mag (decide (i < 0)) (.dyadic i.natAbs e)

/-- The exact sum of i1 · 2^e1 and i2 · 2^e2, on a common exponent. -/
def addDyadic (i1 : Int) (e1 : Int) (i2 : Int) (e2 : Int) : Int × Int :=
  let e := min e1 e2
  (i1 * 2 ^ (e1 - e).toNat + i2 * 2 ^ (e2 - e).toNat, e)

/-- a + b, with the zero signs of R240. -/
def xadd (rm : RM) (a b : FVal) : XVal :=
  match a, b with
  | .nan, _ => .nan
  | _, .nan => .nan
  | .inf n1, .inf n2 => if n1 = n2 then .inf n1 else .nan
  | .inf n, _ => .inf n
  | _, .inf n => .inf n
  | .fin n1 m1 e1, .fin n2 m2 e2 =>
    let (i, e) := addDyadic (signedDyadic n1 m1) e1 (signedDyadic n2 m2) e2
    let zneg := if m1 = 0 ∧ m2 = 0 ∧ n1 = n2 then n1 else decide (rm = .rdn)
    XVal.ofDyadic zneg i e

/-- −a. -/
def FVal.neg : FVal → FVal
  | .nan => .nan
  | .inf n => .inf (!n)
  | .fin n m e => .fin (!n) m e

/-- a × b exactly, as a value (R240, R241). -/
def fvmul (a b : FVal) : FVal :=
  match a, b with
  | .nan, _ => .nan
  | _, .nan => .nan
  | .inf n1, .inf n2 => .inf (n1 != n2)
  | .inf n1, .fin n2 m _ => if m = 0 then .nan else .inf (n1 != n2)
  | .fin n1 m _, .inf n2 => if m = 0 then .nan else .inf (n1 != n2)
  | .fin n1 m1 e1, .fin n2 m2 e2 => .fin (n1 != n2) (m1 * m2) (e1 + e2)

/-- a ÷ b (R242). -/
def xdiv (a b : FVal) : XVal :=
  match a, b with
  | .nan, _ => .nan
  | _, .nan => .nan
  | .inf _, .inf _ => .nan
  | .inf n1, .fin n2 _ _ => .inf (n1 != n2)
  | .fin n1 _ _, .inf n2 => .zero (n1 != n2)
  | .fin n1 m1 e1, .fin n2 m2 e2 =>
    if m1 = 0 ∧ m2 = 0 then .nan
    else if m2 = 0 then .inf (n1 != n2)
    else if m1 = 0 then .zero (n1 != n2)
    else
      let e := e1 - e2
      .mag (n1 != n2) (if 0 ≤ e then .rat (m1 * 2 ^ e.toNat) m2 else .rat m1 (m2 * 2 ^ (-e).toNat))

/-- √a (R242). -/
def xsqrt (a : FVal) : XVal :=
  match a with
  | .nan => .nan
  | .inf n => if n then .nan else .inf false
  | .fin n m e =>
    if m = 0 then .zero n else if n then .nan
    else .mag false (if 0 ≤ e then .root (m * 2 ^ e.toNat) 1 else .root m (2 ^ (-e).toNat))

/-- Order of two values that are not NaN: a < b by value. -/
def fvlt (a b : FVal) : Bool :=
  match a, b with
  | .nan, _ => false
  | _, .nan => false
  | .inf n1, .inf n2 => n1 && !n2
  | .inf n, .fin _ _ _ => n
  | .fin _ _ _, .inf n => !n
  | .fin n1 m1 e1, .fin n2 m2 e2 =>
    decide ((addDyadic (signedDyadic n1 m1) e1 (-(signedDyadic n2 m2)) e2).1 < 0)

/-- Equality by value; +0 = −0; false for NaN (R233). -/
def fveq (a b : FVal) : Bool :=
  match a, b with
  | .nan, _ => false
  | _, .nan => false
  | a, b => !fvlt a b && !fvlt b a

/-! ### FP32 operations on lanes -/

/-- The value of an FP32 lane. -/
def f32 (x : Lane) : FVal := fp32.decode x.toNat
/-- An exact result as an FP32 lane. -/
def toF32 (p : Prefix) (draw : Nat) (x : XVal) : Lane := BitVec.ofNat 32 (fp32.encode p draw x)

/-- The exact product as a result to be rounded. -/
def xmul (a b : FVal) : XVal := (fvmul a b).toX

/-- FMIN and FMAX (R243). -/
def fminmax (wantMax : Bool) (a b : Lane) : Lane :=
  match f32 a, f32 b with
  | .nan, .nan => 0x7FC00000
  | .nan, _ => b
  | _, .nan => a
  | va, vb =>
    if fvlt va vb then (if wantMax then b else a)
    else if fvlt vb va then (if wantMax then a else b)
    else if a.getLsbD 31 == wantMax then b else a

/-- FCLASS (R245). -/
def fclassLane (a : Lane) : Lane :=
  let neg := a.getLsbD 31
  let e := (a >>> 23).toNat % 256
  let m := a.toNat % 2 ^ 23
  let bit : Nat :=
    if e = 255 then (if m ≠ 0 then 8 else if neg then 0 else 7)
    else if e = 0 then
      (if m = 0 then (if neg then 3 else 4) else (if neg then 2 else 5))
    else (if neg then 1 else 6)
  BitVec.ofNat 32 (2 ^ bit)

end Sys2Proof.Machine
end

