-- ==== Sys2Proof/Machine/Store.lean ====
section
/-! DEFINITION. Sparse maps in one canonical form: keys strictly rising, no entry equal to the default. The
form in which memory, register files and every other numbered piece of state is held. -/

namespace Sys2Proof.Machine

/-- Number and value pairs; an unlisted number reads as the default its user names. -/
abbrev Store (β : Type) := List (Nat × β)

/-- The value at `k`. -/
def Store.get {β : Type} (d : β) : Store β → Nat → β
  | [], _ => d
  | (i, v) :: r, k => if k = i then v else Store.get d r k

/-- Removes the entry at `k`. -/
def Store.erase {β : Type} : Store β → Nat → Store β
  | [], _ => []
  | (i, v) :: r, k => if k = i then Store.erase r k else (i, v) :: Store.erase r k

/-- Puts an entry at `k`, in its place. -/
def Store.insert {β : Type} : Store β → Nat → β → Store β
  | [], k, v => [(k, v)]
  | (i, w) :: r, k, v =>
    if k = i then (i, v) :: r else if k < i then (k, v) :: (i, w) :: r else (i, w) :: Store.insert r k v

/-- Writes `v` at `k`, keeping the form: writing the default removes the entry. -/
def Store.set {β : Type} [DecidableEq β] (d : β) (m : Store β) (k : Nat) (v : β) : Store β :=
  if v = d then m.erase k else m.insert k v

/-- Every key of the list is above `lo`, keys rise, and no value is the default. -/
def Store.wfFrom {β : Type} [DecidableEq β] (d : β) : Nat → Store β → Bool
  | _, [] => true
  | lo, (i, v) :: r => decide (lo ≤ i) && decide (v ≠ d) && Store.wfFrom d (i + 1) r

/-- The canonical form. -/
def Store.wf {β : Type} [DecidableEq β] (d : β) (m : Store β) : Bool := Store.wfFrom d 0 m

/-- Writes a run of values from `k` on. -/
def Store.setRun {β : Type} [DecidableEq β] (d : β) (m : Store β) (k : Nat) : List β → Store β
  | [] => m
  | v :: r => Store.setRun d (m.set d k v) (k + 1) r

/-- The values at `k`, `k + 1`, … -/
def Store.getRun {β : Type} (d : β) (m : Store β) (k n : Nat) : List β :=
  (List.range n).map (fun i => m.get d (k + i))

end Sys2Proof.Machine
end

