-- ==== Sys2Proof/Machine/State.lean ====
section
/-! DEFINITION. The state of the machine: one logical core with its four contexts, the Felt under it, the
partition, the module around them, and the host's side, all as plain data. -/

namespace Sys2Proof.Machine

/-! ### Reasons a step can stop -/

/-- Why the machine stops. -/
inductive Fault where
  /-- Raised by `step` when the module holds itself in reset (R394 stage 1, R399 shutdown) and nothing is
  left to happen but a power-on. Safe: nothing executes in reset. -/
  | heldInReset
  deriving DecidableEq, Repr

/-- Why an instruction has no meaning. -/
inductive Refusal where
  /-- Answered only by an arm of `exec` whose instruction has no meaning yet. Safe: nothing happens. -/
  | notModelled (mnemonic : String)
  deriving DecidableEq, Repr

/-! ### Registers of a context -/

/-- What the A-half reads by interlock and what an A-half issue captures for its X-half (R34, R200, R205). -/
structure ARegs where
  /-- a0 to a63; a0 is never listed. -/
  a : Store Word
  /-- k0 to k7; k0 is never listed (it reads true). -/
  k : Store Bool
  g : Store (BitVec 16)
  lc : Store (BitVec 32)
  psel : Word
  rseed : Word
  upk : Word
  sfault : Word
  cpcause : Word
  csh : Store Word
  cshs : Store Word
  msh : Store Word
  mshs : Store Word
  ssh : Store Word
  sshs : Store Word
  /-- Poisoned a-registers (R379). -/
  aPoison : Store Bool
  /-- Poisoned shape registers: 8 × class + register, + 4 for a shadow (R210, R379). -/
  shPoison : Store Bool
  deriving DecidableEq, Repr

/-- Who reserved a queue entry (R190, R373). -/
inductive QFrom where
  | load | zrd | slot | stream
  deriving DecidableEq, Repr

/-- An entry of a queue: reserved, and filled once `val` is there (R190, R191). -/
structure QEntry where
  tick : Nat
  bun : Nat
  src : QFrom
  val : Option Vec
  poison : Bool
  deriving DecidableEq, Repr

/-- Where an exposed result lands (R29, R37). -/
inductive FDst where
  | none
  | reg (n : Nat)
  | pred (i : Nat)
  | queue (id : Nat) (tick : Nat)
  deriving DecidableEq, Repr

/-- An exposed result in flight: the X-half bundle it lands in, its order of issue, and what it writes. -/
structure Flight where
  due : Nat
  seq : Nat
  unit : VUnit
  cl : BitVec 3
  dst : FDst
  guard : BitVec 16
  val : Vec
  /-- A soft error has struck it on the shelf (R378). -/
  poison : Bool
  deriving DecidableEq, Repr

/-- A pending visibility of an accumulator write (R259): reads before bundle `due` see `before`. -/
structure ZHist where
  due : Nat
  z : BitVec 1
  before : Store Lane
  deriving DecidableEq, Repr

/-- A 64-byte unit that a tile fetch has read. -/
structure FetchUnit where
  no : Nat
  val : Vec
  poison : Bool
  deriving DecidableEq, Repr

/-- What an MX slot names, resolved at A-half issue (R254). -/
inductive MxBase where
  | seg (name : Option (BitVec 16)) (line : Word) (born : Nat)
  | glob (va : Word) (line : Word) (hint : BitVec 2) (pin : Bool)
  | tile (h : Word) (coords : Word)
  deriving DecidableEq, Repr

/-- The fetch of an MLD or MMA, or the operand of a ZST (R255): units read so far, and the trap its operand
will raise at X-half issue. -/
structure Fetch where
  base : MxBase
  pinned : Bool
  after : Nat
  units : List FetchUnit
  /-- L2 lines it holds as pinned (R256). -/
  held : List Nat
  /-- Its pin would have broken the floor when its A-half issued (R163, R257). -/
  floor : Bool
  deriving DecidableEq, Repr

/-- The handler state of a context (R370): frame address, class mask, and handler position. -/
structure Hand where
  frame : Word
  mask : BitVec 5
  pc : Word
  deriving DecidableEq, Repr

/-- An issued A-half whose X-half has not issued (R32 to R34). -/
structure LagEntry where
  bun : Nat
  pc : Word
  hdr : Header
  mx : Instr
  v : List Instr
  snap : ARegs
  fetch : Option Fetch
  /-- Tickets of the q3 entries a ZRD reserved in clusters 0 to 7 (R265). -/
  zrd : List Nat
  /-- Non-zero slots among the bundle's fourteen (R403). -/
  fill : Nat
  /-- The handler state for the traps of this bundle (R372). -/
  hand : Hand
  deriving DecidableEq, Repr

/-- A write an A-half makes to a register that lives on the X side, taking effect after bundle `bun` (R34). -/
inductive XWrite where
  | qctl (v : Word)
  | rcnt0
  deriving DecidableEq, Repr

/-- The transit latches, with the poison of those that carry it, under the keys of `State.vPoison` (R41, R379). -/
structure Latches where
  vals : Store Vec
  bad : Store Bool
  deriving DecidableEq, Repr

/-- What a trap sets aside (R368). -/
structure Aside where
  apc : Word
  xpc : Word
  lag : List LagEntry
  flight : List Flight
  zhist : List ZHist
  latches : Latches
  an : Nat
  xn : Nat
  xpend : List (Nat × XWrite)
  /-- The cause of the trap. -/
  cause : Cause
  /-- The frame that was written, and the context's handler state at entry (R372, R373). -/
  frame : Word
  hand : Hand
  deriving DecidableEq, Repr

/-- A staged write (R109): physical address, content, poison, and the kind of its page. -/
structure Staged where
  pa : Nat
  val : Vec
  poison : Bool
  kind : BitVec 2
  deriving DecidableEq, Repr

/-- The watch set and staging buffer of a context (R107 to R109). -/
structure Watch where
  lines : List (Nat × Nat)
  /-- Lines of the set for which their slice had no free watch (R107). -/
  bare : List Nat
  split : Bool
  full : Bool
  lost : Bool
  capacity : Bool
  staged : List Staged
  deriving DecidableEq, Repr

/-! ### Descriptors and tasks -/

/-- A job descriptor (R326). -/
structure JobDesc where
  root : Nat
  asid : BitVec 12
  ten : BitVec 4
  jpri : Nat
  jjcb : Word
  deriving DecidableEq, Repr

/-- What names a job: its partition, its descriptor, its address space and its JCB (R324). -/
structure JobKey where
  part : BitVec 3
  jd : Word
  asid : BitVec 12
  jjcb : Word
  deriving DecidableEq, Repr

/-- A working-set entry (R329). -/
structure WsEntry where
  kind : Nat
  dep : Bool
  hint : BitVec 2
  init : Nat
  fmt : ElemFmt
  greg : BitVec 5
  name : BitVec 16
  size : Nat
  src : Word
  sx : Word
  sy : Word
  deriving DecidableEq, Repr

/-- A predecessor link in use (R327). -/
structure Pred where
  erl : Bool
  pjcb : Word
  deriving DecidableEq, Repr

/-- A launch descriptor (R327) with its working-set table (R329). -/
structure LaunchDesc where
  code : Word
  dict : Word
  dcnt : Nat
  did : BitVec 16
  vcnt : Nat
  mcnt : Nat
  swlo : Nat
  swhi : Nat
  barm : Word
  nx : Nat
  ny : Nat
  dim2 : Bool
  sten : Bool
  skp : Bool
  cmpw : Bool
  prio : Nat
  h : Nat
  rl : Nat
  rseed : Word
  ws : List WsEntry
  phase : BitVec 16
  graph : BitVec 16
  stmsk : List (Int × Int)
  preds : List Pred
  ljcb : Word
  args : List Word
  gmask : Word
  plc : Nat
  deriving DecidableEq, Repr

/-- Status of a task or an instance (R351). -/
inductive Status where
  | ok | cancelled | poisoned
  deriving DecidableEq, Repr

/-- A record of the launch table (R325) as the dispatcher keeps it. -/
structure Launch where
  id : Nat
  part : BitVec 3
  jd : Word
  ld : Word
  job : Option JobDesc
  desc : Option LaunchDesc
  /-- Current task count along x (R359). -/
  nx : Nat
  /-- The first linear index never yet admitted. -/
  next : Nat
  /-- Indices that came back to ready (R344), or that a stencil released. -/
  again : List Nat
  /-- Indices retired, and those counted as triggered (R356, R357). -/
  retired : List Nat
  trigd : List Nat
  /-- Termination weights of indices whose weight is not 2^31 (R360). -/
  weights : Store Nat
  /-- Status carried by the triggers counted so far (R358). -/
  trigSt : Status
  cancelled : Bool
  failed : Bool
  done : Bool
  /-- Groups in which it holds its barriers (R342). -/
  barGroups : List Nat
  /-- A task of the launch has been dispatched (R342 step 1). -/
  started : Bool
  /-- When the launch became eligible (R336). -/
  eligAt : Option Nat
  /-- A core that a PLC = 0b01 launch needs went offline: no more of its tasks run (R345). -/
  shut : Bool
  /-- Indices that other cores' members took (R337). -/
  away : List Nat
  deriving DecidableEq, Repr

/-- A task that holds a context: where it comes from and what it was given. -/
structure Task where
  launch : Nat
  x : Nat
  y : Nat
  part : BitVec 3
  jd : Word
  job : JobDesc
  h : Nat
  rl : Nat
  anchored : Nat
  swlo : Nat
  swhi : Nat
  did : BitVec 16
  dict : Word
  trig : Bool
  inp : Bool
  dim2 : Bool
  weight : Nat
  /-- JCBs of the ERL links (R358). -/
  erl : List Word
  ws : List WsEntry
  /-- Working-set entries whose staging was abandoned and not refilled (R341). -/
  refills : List Nat
  /-- Entries staged or being staged. -/
  staged : List Nat
  ljcb : Word
  cmpw : Bool
  /-- The status it will post (R351). -/
  st : Status
  /-- Number of memory-writing instructions issued, the key of R404. -/
  seq : Nat
  /-- When it was admitted. -/
  adm : Nat
  deriving DecidableEq, Repr

/-- Where a context stands; `saved`: pre-empted, its image written, its copies and segments still on the core. -/
inductive CtxPhase where
  | free | admitted | running | retiring | saved
  deriving DecidableEq, Repr

/-- A hardware context (R200, R332, R370). -/
structure Ctx where
  phase : CtxPhase
  task : Option Task
  regs : ARegs
  qctl : Word
  rcnt : Word
  xpend : List (Nat × XWrite)
  /-- p0 to p15 of each cluster, 16 × cluster + number; p0 is never listed. -/
  p : Store (BitVec 16)
  /-- z0 and z1: 2048 × z + 32 × row + column. -/
  z : Store Lane
  /-- Poisoned 64-byte units of z0 and z1: 16 elements each (R378). -/
  zPoison : Store Bool
  zhist : List ZHist
  /-- The queues by number: see `qIdIn`. -/
  queues : Store (List QEntry)
  vbase : Nat
  vcnt : Nat
  mbase : Nat
  mcnt : Nat
  dbase : Nat
  dlim : Nat
  /-- Position of the next A-half, and the position after the bundle now issuing. -/
  pc : Word
  npc : Word
  /-- Numbers of the next A-half and X-half; the first bundle of a task is 1. -/
  an : Nat
  xn : Nat
  lag : List LagEntry
  flight : List Flight
  hframe : Word
  hmask : BitVec 5
  hpc : Word
  /-- A trap that is being served, or whose entry is still owed (R372, R376). -/
  pend : Option TrapInfo
  active : Bool
  aside : Option Aside
  /-- Special registers an active handler wrote (R373). -/
  hwrote : List SR
  /-- Status of the last copy under each CID: 0 OK, 1 CANCELLED, 2 FAULTED (R128). -/
  cidStat : Store Nat
  watch : Watch
  /-- X-half issues since the context was last switched in (R333). -/
  quantum : Nat
  /-- Prefix of the bundle whose A-half or X-half is executing, and the snapshots its slots read (R43, R34). -/
  apfx : Prefix
  xpfx : Prefix
  aview : Option ARegs
  xview : Option ARegs
  /-- Stopped by the debugger, and a BRK to be ignored once (R400). -/
  stopped : Bool
  brkOnce : Bool
  /-- Cause of the debug stop. -/
  stopCause : BitVec 8
  /-- A YB bundle's X-half has issued (R45). -/
  yielding : Bool
  /-- Latches to be put back before the next bundle issues (R369). -/
  latches : Option Latches
  /-- The drain point at this position has been decided (R374). -/
  drained : Option Word
  /-- Told to stop for a heavy save that cannot be taken yet (R375). -/
  halt : Bool
  /-- STEP: the context stops again once its X-half has issued the bundles below this number (R400). -/
  stepTo : Option Nat
  deriving DecidableEq, Repr

/-! ### Segments and the local store -/

/-- Residency state (R149). -/
inductive SegState where
  | resident | absent | recalling | pushing | moving
  deriving DecidableEq, Repr

/-- An entry of a segment table (R149), with the segment's bytes and full/empty bits. -/
structure SegEntry where
  name : BitVec 16
  anc : Bool
  ctx : BitVec 2
  job : Word
  fmt : ElemFmt
  size : Nat
  st : SegState
  ppin : Bool
  zimg : Bool
  /-- Engine pins of copies, collectives and tile fetches. -/
  cpins : Nat
  /-- The pin of the memory-slot access of a bundle that waits (R162, R166). -/
  mpin : Bool
  /-- Engine pins of stream bindings and transfer phases. -/
  spins : Nat
  spoff : Nat
  /-- Placement: the local-store line of each line of a resident segment (R153). -/
  place : List Nat
  bytes : Store Byte
  /-- Lines that are empty (R152). -/
  empty : Store Bool
  /-- Poisoned 64-byte units. -/
  poison : Store Bool
  /-- When it was last touched (R157). -/
  touched : Nat
  /-- The working-set entry that an anchored segment comes from (R330), and whether an engine has touched an empty line
  of it after the entry's staging was abandoned (R341). -/
  wsEntry : Option Nat
  wanted : Bool
  /-- The number of its creation, by which an MX slot knows the segment that its name resolved to (R254). -/
  born : Nat
  deriving DecidableEq, Repr

/-- A line of the L1 (R176): its physical line number and its content at the fill; most recent first. -/
structure L1Line where
  line : Nat
  data : Line
  deriving DecidableEq, Repr

/-- The sampling counts of R181. -/
structure Sample where
  hits : Nat
  miss : Nat
  ghost : Nat
  lruh : Nat
  deriving DecidableEq, Repr

/-- A translation held in a TLB or translation cache (R71, R75). -/
structure Tlb where
  asid : BitVec 12
  /-- First virtual address and size of the page, and its frame. -/
  va : Nat
  size : Nat
  pa : Nat
  kind : BitVec 2
  rd : Bool
  wr : Bool
  ex : Bool
  sl : Bool
  dt : Bool
  nsh : BitVec 2
  /-- Where its leaf entry lies. -/
  ent : Nat
  deriving DecidableEq, Repr

/-- A miss that waits for its walk (R75). -/
structure Miss where
  asid : BitVec 12
  va : Word
  staging : Bool
  deriving DecidableEq, Repr

/-- A quire in the loop buffer (R54, R58). -/
structure Quire where
  asid : BitVec 12
  frame : Word
  hdr : List Word
  body : List (BitVec 16)
  deriving DecidableEq, Repr

/-! ### Requests, streams, copies -/

/-- What an outstanding A-half request does when it is performed. -/
inductive ReqAct where
  | areg (d : AReg) (t : LdTy)
  | queue (dst : List (Nat × Nat)) (unpack : Option (Word × Nat))
  | shadow (c : ShapeClass)
  | store (v : Vec) (poison : Bool)
  /-- BARA's addition to barrier `h` of the core's group (R314). -/
  | arrive (h : BitVec 6) (v : Word)
  /-- TRIG's count, once its release is performed (R357). -/
  | trig
  deriving DecidableEq, Repr

/-- An outstanding request of the A-half memory slot (R182, R199). -/
structure Req where
  id : Nat
  ctx : BitVec 2
  act : ReqAct
  pa : Nat
  width : Nat
  kind : BitVec 2
  hint : BitVec 2
  w : Bool
  ord : MemOrd
  scope : Scope
  ten : BitVec 4
  /-- An acquire's invalidation of the L1 is due when it is performed. -/
  key : Nat
  deriving DecidableEq, Repr

/-- A bound stream (R194 to R197). -/
structure Stream where
  ctx : BitVec 2
  cl : BitVec 3
  /-- 0 to 3 for q0 to q3, 4 and 5 for w0 and w1. -/
  q : Nat
  seg : Option (BitVec 16)
  base : Word
  n0 : Nat
  n1 : Nat
  s0 : Int
  s1 : Int
  hint : BitVec 2
  /-- Next element to fetch or to write. -/
  next : Nat
  /-- Entries pushed to a bound output queue, those present at SBIND included (R196). -/
  pushed : Nat
  /-- The fault that stopped it: element and cause. -/
  stop : Option (Nat × Cause)
  /-- The fault of an output stream has been raised (R197). -/
  told : Bool
  /-- Requests before this number are performed before its first access (R195). -/
  after : Nat
  /-- The bundle of its SBIND: X-half pops and pushes of later bundles meet the stream (R191, R196). -/
  bun : Nat
  /-- Its SBIND's number among the task's writers of memory (R404). -/
  seqNo : Nat
  deriving DecidableEq, Repr

/-- Which copy (R124 to R127, R143, R144, R363, R331). -/
inductive CopyKind where
  | seg | peer | load | store | tileIn | tileOut | warm | fill | reduce | bcast | enq | promote
  deriving DecidableEq, Repr

/-- An end of a copy. -/
inductive CopyEnd where
  | none
  | own (ctx : BitVec 2) (name : BitVec 16) (off : Nat)
  | peer (core : Nat) (name : BitVec 16) (off : Word)
  | glob (va : Word)
  | tile (h : Word) (coords : Word)
  | pat (w : Word)
  deriving DecidableEq, Repr

/-- A copy, collective or enqueue in an engine (R115, R131, R143, R363). -/
structure Copy where
  id : Nat
  ctx : BitVec 2
  cid : Option (BitVec 4)
  kind : CopyKind
  src : CopyEnd
  dst : CopyEnd
  nrow : Nat
  len : Nat
  sstr : Int
  dstr : Int
  be : Bool
  bar : BitVec 6
  pfx : Prefix
  psel : Word
  rseed : Word
  hint : BitVec 2
  task : Option Task
  /-- Destination 64-byte units already written, in order of number. -/
  done : Nat
  /-- Units skipped because they are parked (R80). -/
  parked : List Nat
  fault : Option Cause
  /-- It holds a pin on its peer segment (R122). -/
  peerPin : Bool
  /-- Requests before this number come first (R116). -/
  after : Nat
  /-- Collective: group, operation, ordinal of the collective. ENQ: handle; `known` once delivered, with the
  word to write in `seqNo`. -/
  gid : BitVec 8
  op : CgOp
  ord : Nat
  word : Word
  /-- The working-set entry of a staging copy or refill. -/
  entry : Option Nat
  seqNo : Nat
  /-- Formats it converts between, and destination bytes per row, once `known` (R119, R123). -/
  conv : Option (ElemFmt × ElemFmt)
  drow : Nat
  known : Bool
  /-- The result every member receives, once the collective has started, and the poison of its units. -/
  result : Option (List Byte)
  rpoison : List Bool
  /-- Units of the result there already, while source lines of others are waited for (R116). -/
  got : List FetchUnit
  deriving DecidableEq, Repr

/-- Who waits on a parked access. -/
inductive ParkedBy where
  | half (ctx : BitVec 2)
  | copy (id : Nat)
  | stream (ctx : BitVec 2) (cl : BitVec 3) (q : Nat)
  | fetch (ctx : BitVec 2) (bun : Nat)
  | post
  deriving DecidableEq, Repr

/-- An access parked in the Felt's fault table (R80), or turned into PGPERM (R81). -/
structure Parked where
  by_ : ParkedBy
  asid : BitVec 12
  root : Nat
  va : Word
  cause : Cause
  denied : Bool
  deriving DecidableEq, Repr

/-- A ZST whose writes are not all performed (R266): rows of 64-byte units still to write. -/
structure ZStore where
  id : Nat
  ctx : BitVec 2
  seg : Option (BitVec 16)
  /-- Offset in the segment or physical address, and content, of each unit, in order. -/
  units : List (Nat × Vec)
  hint : BitVec 2
  ten : BitVec 4
  /-- Places of the units on UN pages (R98). -/
  un : List Nat
  /-- Places of the units that carry poison (R379). -/
  poison : List Nat
  /-- The tensor that a tile-addressed ZST writes, by its index (R92). -/
  tens : Option Nat
  /-- Its number among the task's writers of memory, and that of its next unit (R404). -/
  seqNo : Nat
  unit : Nat
  deriving DecidableEq, Repr

/-- One participant of a transfer phase (R135): a core, its router table and the words it transmits. -/
structure MeshNode where
  core : Nat
  mask : BitVec 16
  pl : Nat
  table : List (BitVec 16)
  /-- Phase cycle, word and its poison. -/
  xmits : List (Nat × Vec × Bool)
  deriving DecidableEq, Repr

/-- The transfer phase of this core (R135 to R140). -/
structure Phase where
  ctx : BitVec 2
  src : BitVec 16
  dst : BitVec 16
  mask : BitVec 16
  pl : Nat
  table : List (BitVec 16)
  started : Bool
  /-- Its XPIN has issued: the bundles after it are the phase's (R135). -/
  entered : Bool
  /-- Set when a fate other than the start has been decided for the waiting XPIN. -/
  fate : Option Cause
  cycle : Nat
  /-- The cycle for which the routers have moved their words. -/
  routed : Nat
  /-- The word on the L input this cycle, with its poison, and the words latched by offset. -/
  xmit : Option (Vec × Bool)
  latched : List (Nat × Vec × Bool)
  quires : List Word
  deriving DecidableEq, Repr

/-- A member of a collective group: rank, core and context; from 4 on, a pre-empted task of the core, by the
number of its admission. -/
structure Member where
  rank : Nat
  core : Nat
  ctx : Nat
  leaving : Bool
  issued : Nat
  deriving DecidableEq, Repr

/-- What a member on another core contributes to a collective (R143). -/
structure Contribution where
  rank : Nat
  ord : Nat
  bcast : Bool
  op : CgOp
  psel : Word
  bytes : List Byte
  /-- Poison of each 64-byte unit. -/
  poison : List Bool
  deriving DecidableEq, Repr

/-- A collective group (R141). -/
structure Group where
  part : BitVec 3
  gid : BitVec 8
  n : Nat
  members : List Member
  draining : Bool
  others : List Contribution
  /-- Ranks whose member has left and that nobody has joined under since (R145). -/
  left : List Nat
  started : Nat
  deriving DecidableEq, Repr

/-! ### Dispatcher, host and module -/

/-- A record delivered by the mailbox or an enqueue queue (R362). -/
structure EnqRec where
  words : List Word
  deriving DecidableEq, Repr

/-- An enqueue queue (R361 to R364). -/
structure EnqQ where
  part : BitVec 3
  idx : BitVec 8
  gen : BitVec 8
  exists_ : Bool
  ring : List EnqRec
  spill : List EnqRec
  /-- Where its overflow ring lies, and how many records it holds. -/
  ringVa : Word
  cap : Nat
  deriving DecidableEq, Repr

/-- A post waiting to be made (R349). -/
structure Post where
  part : BitVec 3
  job : JobDesc
  jd : Word
  jcb : Word
  /-- Level of the JCB: 1 launch, 2 graph, 3 phase, 4 job; 5 a trigger count (R357). -/
  lvl : Nat
  status : Status
  cause : Nat
  ent : Lane
  weight : Nat
  /-- Launch whose task is posted (level 1) or that is posted (levels 2 to 4). -/
  launch : Nat
  /-- A post that also writes EXP, CNT, TRG, GTAB of a launch that failed at first read (R353). -/
  whole : Bool
  /-- Raises the status only (R353 row 6, R428). -/
  raiseOnly : Bool
  deriving DecidableEq, Repr

/-- A JCB that the dispatcher keeps itself (R428). -/
structure KeptJcb where
  asid : BitVec 12
  va : Word
  exp : Word
  cnt : Word
  trg : Word
  done : Bool
  deriving DecidableEq, Repr

/-- A record of the fault log (R399); its layout is firmware's. -/
structure FaultRec where
  part : BitVec 3
  cause : Cause
  /-- The first cause, under DOUBLE (R370). -/
  first : Option Cause
  core : Nat
  ctx : BitVec 2
  apc : Word
  xpc : Word
  x : Nat
  y : Nat
  detail : Word
  /-- The Felt cycle; a free value (log entry 4). -/
  cycle : Word
  deriving DecidableEq, Repr

/-- The ring of a partition's fault log in its ASID 0 space (R399): where the driver has put it, how many records it holds,
and which record is written next. -/
structure FaultRing where
  part : BitVec 3
  base : Word
  cap : Nat
  head : Nat
  deriving DecidableEq, Repr

/-- A trace record (R402). -/
structure TraceRec where
  cycle : Word
  kind : Nat
  core : Nat
  ctx : BitVec 2
  pos : Word
  detail : Word
  deriving DecidableEq, Repr

/-- A saved task (R376). -/
structure Image where
  heavy : Bool
  /-- The context it was saved from, until that context is released. -/
  slot : Option (BitVec 2)
  ctx : Ctx
  segs : List SegEntry
  streams : List Stream
  /-- Its windows, numbered as the core numbers them with a window base of 0. -/
  v : Store Vec
  vPoison : Store Bool
  m : Store Line
  mscale : Store (BitVec 16)
  mPoison : Store Bool
  latches : Latches
  deriving DecidableEq, Repr

/-- A line held in an L2 slice (R96 to R101). -/
structure L2Line where
  line : Nat
  slice : Nat
  way : Nat
  hint : BitVec 2
  cls : BitVec 4
  dirty : Bool
  un : Bool
  pins : Nat
  stamp : Nat
  deriving DecidableEq, Repr

/-- A promoted block or tile of a near store (R82, R83). -/
structure NsBlock where
  die : BitVec 2
  block : Nat
  keep : Bool
  tile : Bool
  since : Nat
  deriving DecidableEq, Repr

/-- A bound tensor (R92): partition, index, and its region of virtual addresses. -/
structure Bound where
  part : BitVec 3
  idx : Nat
  base : Nat
  size : Nat
  /-- TBIND has sealed the region and BND is not set yet; or TUNBIND has cleared BND and the seal still stands. -/
  opening : Bool
  closing : Bool
  /-- The leaf entries that it has sealed (R72, R93). -/
  ents : List Nat
  deriving DecidableEq, Repr

/-- A tile map entry the Felt holds (R91). -/
structure MapCache where
  part : BitVec 3
  handle : Word
  tile : Nat
  entry : Word
  deriving DecidableEq, Repr

/-- A substitution of the repair map (R396, R397). -/
inductive Repair where
  | core (logical : Nat) (physical : BitVec 10)
  | slice (logical : Nat)
  | lane (link : Nat)
  | row (pa : Nat)
  /-- No spare was left: a core is offline, a slice or a page is retired. -/
  | offline (logical : Nat)
  | sliceGone (logical : Nat)
  | page (n : Nat)
  deriving DecidableEq, Repr

/-- Boot firmware state held in flash and BOOTST (R394 to R396). -/
structure Boot where
  stage : Nat
  err : BitVec 8
  svn : BitVec 32
  minsvn : BitVec 32
  floor : BitVec 32
  revRsa : BitVec 2
  revSlh : BitVec 2
  repairs : List Repair
  /-- What the payload of the verified image configures (R396). -/
  config : BootConfig
  deriving DecidableEq, Repr

/-- A key the comparator holds unmatched (R404). -/
structure Unmatched where
  twin : Bool
  w : KeyedWrite
  deriving DecidableEq, Repr

/-- A group peer's segment table (R12, R148). -/
structure Peer where
  core : Nat
  segs : List SegEntry
  moving : Bool
  deriving DecidableEq, Repr

/-- Why the half that stands does not go on, or what the last step met. -/
inductive WaitFor where
  /-- An a-register, flag or special register whose write is outstanding (R36), or a FENCE: not a block. -/
  | interlock
  /-- Realignment (R35): not a block. -/
  | realign
  /-- A queue entry, a segment line, a barrier: a block of R44. -/
  | queue | segment | barrier
  /-- A served fault (R81). -/
  | served
  /-- A transfer phase (R135). -/
  | phase
  /-- A reply of an engine: not a block. -/
  | engine
  /-- Entry to the handler for a trap that is taken (R36, R75, R371): not a block. -/
  | entry
  deriving DecidableEq, Repr

/-- What the last execution met. -/
inductive Mark where
  | clear
  | waited (w : WaitFor)
  | trapped (t : TrapInfo)
  deriving DecidableEq, Repr

/-- The state of the machine. -/
structure State where
  /-- Which agent moves next: operations and events still to happen, first first. Empty: the scheduler of
  `step` chooses. -/
  agenda : List Instr
  mark : Mark
  /-- This core's logical number, and its physical number (R11, R13). -/
  core : BitVec 9
  phys : BitVec 10
  online : Bool
  /-- The context on the core, and the other three by number. -/
  cur : BitVec 2
  ctx : Ctx
  others : Store Ctx
  /-- The job of the last context to issue on the core (R203). -/
  lastJob : Option JobKey
  /-- Vector registers: 640 × cluster + physical number (R200, R201). -/
  v : Store Vec
  /-- Poisoned vector registers and latches. -/
  vPoison : Store Bool
  /-- Transit latches: 16 × cluster + 4 × unit + place (R41). -/
  latch : Store Vec
  /-- Stationary latches: 64 × physical number + row; and their headers: 512 × number + header (R251). -/
  m : Store Line
  mscale : Store (BitVec 16)
  mPoison : Store Bool
  segs : List SegEntry
  /-- Where the core's push-out area begins (R156). -/
  pushArea : Nat
  sw : Nat
  /-- A deckle move in progress: direction (true taking a way). -/
  deckMove : Option Bool
  rcl : Nat
  rclLast : Nat
  smp : Sample
  smpLast : Sample
  ghosts : List Nat
  l1 : List L1Line
  tlb : List Tlb
  /-- The bundle dictionary (R53), and which image each run holds: base, count, DICT, DID. -/
  dict : Store Bundle768
  dictRuns : List (Nat × Nat × Word × BitVec 16)
  loopBuf : List Quire
  reqs : List Req
  streams : List Stream
  copies : List Copy
  staging : List Copy
  /-- Units of demand copies written since staging last had one, while it waits; at most 7 (R131, R340). -/
  grants : Nat
  /-- The context whose program copy was served last (R131). -/
  copyTurn : BitVec 2
  zstores : List ZStore
  /-- Exhausted: the array is still working on the last MMA (R260). -/
  arrayBusy : Bool
  phase : Option Phase
  mesh : List MeshNode
  /-- Words present on router inputs: core, port, word and poison (R133). -/
  meshWords : List (Nat × BitVec 3 × Vec × Bool)
  /-- The first cause of an abort that this core originated (R140). -/
  phaseFirst : Option PhaseCause
  /-- Counters that give fresh numbers: tickets, requests, copies; uses; free values. -/
  fresh : Nat
  /-- Memory (R67), by physical address. -/
  mem : Store Byte
  /-- Poisoned 64-byte units of memory, by unit number. -/
  memPoison : Store Bool
  tcache : List Tlb
  /-- Leaves installed since they were last invalidated: what the Felt knows of a block's hint (R83). -/
  pages : List Tlb
  /-- Misses of this die's Felt that wait for a walker or for an entry, oldest first (R75). -/
  misses : List Miss
  /-- The registers of the invalidation in progress, as they stood at GO: XIVA, XIVN, XIVC (R78). -/
  inval : Option (Word × Word × Word)
  /-- A flit past its replay limit: the next access of the core is lost (R112). -/
  flitLost : Bool
  parked : List Parked
  mapCache : List MapCache
  bound : List Bound
  /-- Root table of ASID 0 of each partition. -/
  sysRoot : Store Nat
  ns : List NsBlock
  /-- Access counts: 2^23 × die + block of HBM4, and tiles (see `tileCountKey`); saturating at 255 (R83). -/
  nsCount : Store Nat
  /-- Layers that are powered down: near-store bank group 32 × die + group; HBM stacks asleep or off. -/
  nsOff : Store Bool
  hbmOff : Store Bool
  hbmSleep : Store Bool
  l2 : List L2Line
  l2Version : Store Nat
  /-- Watches held in each slice by contexts of other cores (R107). -/
  l2Watches : Store Nat
  /-- Slices retired, and cores offline (R14, R96). -/
  sliceOut : Store Bool
  coreOut : Store Bool
  spareCores : Store Nat
  spareSlices : Store Nat
  /-- Spare lanes used of each vertical link's groups of 64 lanes (R397). -/
  lanesUsed : Store Nat
  /-- Pages retired for rows that no spare could replace, by address over 64 KiB (R397). -/
  retiredPages : List Nat
  bars : Store Word
  barHeld : List (Nat × Nat × Nat)
  groups : List Group
  launches : List Launch
  posts : List Post
  kept : List KeptJcb
  /-- Posts that the dispatcher has counted in each graph, phase and job JCB that is not DONE: address space, address and
  count (R428). -/
  posted : List (BitVec 12 × Word × Nat)
  /-- Cancels recorded: level, job descriptor, JCB or number, index. -/
  cancels : List (Nat × Word × Word × Nat)
  cancelQ : List (Nat × Word × Word × Nat)
  preempted : List Word
  images : List Image
  enqs : List EnqQ
  /-- A core reserved for a launch (R336). -/
  reserved : Option Nat
  faultLog : List FaultRec
  /-- The rings that drivers have given, and how many records of the log firmware has gone through (R399). -/
  faultRings : List FaultRing
  logged : Nat
  trace : List TraceRec
  msi : List (Nat × Nat)
  mgmt : Nat
  /-- BAR0 registers: 2^21 × function + offset (R384, R385). -/
  bar0 : Store Word
  boot : Boot
  inReset : Bool
  /-- Every context of the core is frozen at a CORE machine check (R381). -/
  frozen : Bool
  /-- The word that the last host or peer read returned. -/
  hostRead : Option Word
  /-- The function whose function-level reset the host asks for: an input of the outside world (R388). -/
  flrFn : BitVec 3
  throttled : Store Bool
  /-- How often each die has been beyond its warning temperature since boot (R398). -/
  hot : Store Nat
  /-- 32-byte transfers that compression has saved, by partition (R114). -/
  cmpSaved : Store Word
  /-- Soft errors corrected and counted (R378); no register shows the count. -/
  corrected : Nat
  cmpKeys : List Unmatched
  peers : List Peer
  /-- Loop counter profile: the runs of the selected loop still to be counted, each by the bundle from which it is
  counted and its last one (R403). -/
  lpRun : List (Nat × Option Nat)
  /-- Watches and copies of the snapshot registers: 16 × partition + class (R103). -/
  snap : Store Word
  deriving DecidableEq, Repr

/-! ### Reset -/

/-- The registers of a context at reset and at dispatch, before the launch fills some (R200). -/
def ARegs.zero : ARegs :=
  ⟨[], [], [], [], 0, 0, 0, 0, 0, [], [], [], [], [], [], [], []⟩

def Watch.zero : Watch := ⟨[], [], false, false, false, false, []⟩

/-- An empty context. -/
def Ctx.zero : Ctx :=
  { phase := .free, task := none, regs := ARegs.zero, qctl := 0, rcnt := 0, xpend := [], p := [], z := [], zPoison := [],
    zhist := [], queues := [], vbase := 0, vcnt := 0, mbase := 0, mcnt := 0, dbase := 0, dlim := 0, pc := 0,
    npc := 0, an := 1, xn := 1, lag := [], flight := [], hframe := 0, hmask := 0, hpc := 0, pend := none, active := false,
    aside := none, hwrote := [], cidStat := [], watch := Watch.zero, quantum := 0, apfx := Prefix.default,
    xpfx := Prefix.default, aview := none, xview := none, stopped := false, brkOnce := false, stopCause := 0,
    yielding := false, latches := none, drained := none, halt := false, stepTo := none }

def Boot.zero : Boot := ⟨0, 0, 0, 0, 0, 0, 0, [], ⟨[], 0, [], 0, 0⟩⟩

/-- Key of a BAR0 register of a function. -/
def barKey (fn off : Nat) : Nat := 2097152 * fn + off

/-- The BAR0 registers whose reset value is not zero: NSPT 16 and NSEP 20 of each die (R84); and of every
function L2WM0 to 15 all ways (R103), CMPCTL 1 (R114), DSWIN 2 and DSAGE 1,000 (R334); of function 0 PWRCAP
3,000 (R399) and PCFG0 all groups (R15). -/
def bar0Reset : Store Word :=
  let per (fn : Nat) : Store Word :=
    (List.range 16).map (fun c => (barKey fn (0x10100 + 8 * c), (0xFFFF : Word))) ++
    [(barKey fn 0x10300, 1), (barKey fn 0x10400, 2), (barKey fn 0x10408, 1000)]
  let die (d : Nat) : Store Word := [(0x20000 + 0x1000 * d, 16), (0x20008 + 0x1000 * d, 20)]
  per 0 ++ (die 0 ++ die 1 ++ die 2 ++ die 3) ++ [(0x30000, 0xFFFFFFFFFFFFFFFF), (0x40010, 3000)] ++
  ((List.range 7).map (fun i => per (i + 1))).flatten

/-- The machine right after reset. -/
def State.reset : State :=
  { agenda := [], mark := .clear, core := 0, phys := 0, online := true, cur := 0, ctx := Ctx.zero,
    others := [(1, Ctx.zero), (2, Ctx.zero), (3, Ctx.zero)],
    lastJob := none, v := [], vPoison := [], latch := [], m := [], mscale := [], mPoison := [], segs := [],
    pushArea := 0x7F80000000,
    sw := 16, deckMove := none, rcl := 0, rclLast := 0, smp := ⟨0, 0, 0, 0⟩, smpLast := ⟨0, 0, 0, 0⟩,
    ghosts := [], l1 := [], tlb := [], dict := [], dictRuns := [], loopBuf := [], reqs := [], streams := [],
    copies := [], staging := [], grants := 0, copyTurn := 0, zstores := [], arrayBusy := false,
    phase := none, mesh := [], meshWords := [], phaseFirst := none,
    fresh := 0, mem := [], memPoison := [], tcache := [],
    pages := [], misses := [], inval := none, flitLost := false, parked := [], mapCache := [], bound := [], sysRoot := [],
    ns := [], nsCount := [],
    nsOff := [], hbmOff := [], hbmSleep := [], l2 := [], l2Version := [], l2Watches := [], sliceOut := [],
    coreOut := [], spareCores := [(0, 16), (1, 16), (2, 16), (3, 16)],
    spareSlices := [(0, 8), (1, 8), (2, 8), (3, 8)], lanesUsed := [], retiredPages := [],
    bars := [], barHeld := [], groups := [], launches := [],
    posts := [], kept := [], posted := [], cancels := [], cancelQ := [], preempted := [], images := [], enqs := [],
    reserved := none, faultLog := [], faultRings := [], logged := 0, trace := [], msi := [], mgmt := 0, bar0 := bar0Reset, boot := Boot.zero,
    inReset := false, frozen := false, hostRead := none, flrFn := 0, throttled := [], hot := [], cmpSaved := [],
    corrected := 0, cmpKeys := [], peers := [], lpRun := [], snap := [] }

end Sys2Proof.Machine
end

