-- ==== Sys2Proof/Machine/Mem.lean ====
section
/-! DEFINITION. Bytes, physical memory with its slices and layers, and translation (R66 to R86, R96 to R101). -/

namespace Sys2Proof.Machine

/-! ### Bytes and words (R6) -/

/-- The value of bytes, the first least significant. -/
def bytesNat : List Byte → Nat
  | [] => 0
  | b :: r => b.toNat + 256 * bytesNat r

/-- The `n` low bytes of a value, the least significant first. -/
def natBytes : Nat → Nat → List Byte
  | 0, _ => []
  | n + 1, v => BitVec.ofNat 8 v :: natBytes n (v / 256)

/-- Bytes as a 64-byte unit. -/
def bytesVec (l : List Byte) : Vec := BitVec.ofNat 512 (bytesNat l)
/-- A 64-byte unit as bytes. -/
def vecBytes (v : Vec) : List Byte := natBytes 64 v.toNat
/-- Lane `l` of a vector (R204). -/
def lane (v : Vec) (l : Nat) : Lane := BitVec.ofNat 32 (v.toNat >>> (32 * l))
/-- A vector from its lanes, lane 0 first. -/
def ofLanes : List Lane → Nat
  | [] => 0
  | x :: r => x.toNat + 4294967296 * ofLanes r
/-- A vector whose lane l is `f l`. -/
def mkVec (f : Nat → Lane) : Vec := BitVec.ofNat 512 (ofLanes ((List.range 16).map f))
/-- The signed value of bits hi..lo of a word. -/
def sfield (w : Word) (lo n : Nat) : Int := (BitVec.ofNat n (w.toNat >>> lo)).toInt
/-- The unsigned value of n bits from lo. -/
def ufield (w : Word) (lo n : Nat) : Nat := (w.toNat >>> lo) % 2 ^ n

/-! ### Numbers of cores and groups (R11, R15) -/

def dieOf (core : Nat) : Nat := core / 128
def groupOf (core : Nat) : Nat := core / 128 * 16 + core % 16 / 4 + 4 * (core / 16 % 8 / 2)
def memberOf (core : Nat) : Nat := core % 16 % 4 + 4 * (core / 16 % 8 % 2)
/-- The logical core that is member `m` of group `g`. -/
def coreAt (g m : Nat) : Nat := g / 16 * 128 + (g % 4 * 4 + m % 4) + 16 * (g % 16 / 4 * 2 + m / 4)

/-- A physical number of a spare of a die: 512 + 16 × die + column (R11). -/
def isSpareOf (die : Nat) (p : BitVec 10) : Bool := decide (512 + 16 * die ≤ p.toNat ∧ p.toNat < 512 + 16 * die + 16)

/-! ### Registers of the module -/

/-- A BAR0 register of function `fn` (R384). -/
def State.barAt (s : State) (fn off : Nat) : Word := s.bar0.get 0 (barKey fn off)
def State.setBar (s : State) (fn off : Nat) (v : Word) : State :=
  { s with bar0 := s.bar0.set 0 (barKey fn off) v }

/-- The partition whose mask holds a group (R393). -/
def State.partOf (s : State) (g : Nat) : Option (BitVec 3) :=
  ((List.range 8).find? (fun i => (s.barAt 0 (0x30000 + 8 * i)).getLsbD g)).map (BitVec.ofNat 3)
/-- This core's partition. -/
def State.part (s : State) : BitVec 3 := (s.partOf (groupOf s.core.toNat)).getD 0
/-- A register of this core's partition. -/
def State.bar (s : State) (off : Nat) : Word := s.barAt s.part.toNat off

/-! ### Free values and counters -/

/-- Advances the counter of fresh numbers. -/
def State.bump (s : State) : State := { s with fresh := s.fresh + 1 }
/-- A free value: nothing constrains it (log entry 4). -/
def State.freeWord (s : State) : Word := Config.freeWord s.fresh

/-! ### Events that are logged or signalled -/

/-- Signals an MSI-X vector of a function (R388). -/
def State.signal (s : State) (fn vec : Nat) : State := { s with msi := s.msi ++ [(fn, vec)] }

/-- A function's SNPCTL has ARM and, where it is given, another bit set (R401). -/
def State.armed (s : State) (fn bit : Nat) : Bool := (s.barAt fn 0x80020).getLsbD 0 && (s.barAt fn 0x80020).getLsbD bit
/-- The common trigger fires (R401): every snapshot copy is latched. Each function's SNPTIME takes the Felt cycle, a free
value (log entry 4); ARM falls and vector 5 is signalled where a function had armed it. -/
def State.latchSnapshot (s : State) : State :=
  let snap := (List.range 128).foldl (fun m k =>
    m.set 0 k (BitVec.ofNat 64 (s.l2.countP (fun l => l.cls.toNat = k % 16 ∧
      (s.partOf (groupOf l.slice)) = some (BitVec.ofNat 3 (k / 16)))))) s.snap
  let one (t : State) (fn : Nat) : State :=
    let t1 := t.setBar fn 0x80028 s.freeWord
    if s.armed fn 0 then (t1.setBar fn 0x80020 (s.barAt fn 0x80020 &&& ~~~(1#64))).signal fn 5 else t1
  (List.range 8).foldl one { s with snap := snap, fresh := s.fresh + 1 }
/-- A cause fires the trigger where some function has armed it for that cause: bit 2 of SNPCTL a machine check, bit 3 a
comparator stop (R401). -/
def State.snapCause (s : State) (bit : Nat) : State :=
  if (List.range 8).any (fun fn => s.armed fn bit) then s.latchSnapshot else s
/-- A function fires the trigger, if it has armed it. -/
def State.fireFor (s : State) (fn : Nat) : State := if s.armed fn 0 then s.latchSnapshot else s
/-- This core's partition does. -/
def State.fireSnapshot (s : State) : State := s.fireFor s.part.toNat

/-- A machine check fires the trigger where SMC is set (R401). -/
def State.machineCheck (s : State) : State := s.snapCause 2

/-- Writes a record to the partition's fault log and signals vector 1 (R365, R399). Its Felt cycle is a free value (log
entry 4). -/
def State.logFault (s : State) (r : FaultRec) : State :=
  State.signal { s.bump with faultLog := s.faultLog ++ [{ r with cycle := s.freeWord }] } r.part.toNat 1

/-- A report: logged, and the task continues (R365). -/
def State.report (s : State) (c : Cause) (detail : Word) : State :=
  let t := s.ctx.task
  (s.logFault ⟨s.part, c, none, s.core.toNat, s.cur, s.ctx.pc, (s.ctx.lag.head?.map (·.pc)).getD s.ctx.pc,
    (t.map (·.x)).getD 0, (t.map (·.y)).getD 0, detail, 0⟩).machineCheck

/-- The same of what the Felt or a control core of a partition meets for itself: no task's, with no positions. -/
def State.felReport (s : State) (part : BitVec 3) (c : Cause) (va : Word) : State :=
  (s.logFault ⟨part, c, none, s.core.toNat, 0, 0, 0, 0, 0, va, 0⟩).machineCheck

/-! ### Physical addresses (R67, R86) -/

def nearBase : Nat := 0x10000000000
def inHbm (pa : Nat) : Bool := decide (pa < 0x8000000000)
def inNear (pa : Nat) : Bool := decide (nearBase ≤ pa ∧ pa < 0x10800000000)
def inHost (pa : Nat) : Bool := decide (0x4000000000000 ≤ pa ∧ pa < 0x8000000000000)
def inJirum (pa : Nat) : Bool := decide (0x8000000000000 ≤ pa ∧ pa < 0x10000000000000)
/-- HBM4 stack of an address: interleaved in 4 KiB granules (R67; DEDUCED, log entry 12). -/
def hbmStack (pa : Nat) : Nat := pa / 4096 % 8
/-- Bank group, 32 × die + group, of an address in the direct window. -/
def nearGroup (pa : Nat) : Nat := (pa - nearBase) / 0x10000000

/-- An address that no layer backs at the moment (R67, R86, R391). -/
def State.layerGone (s : State) (pa : Nat) : Bool :=
  if inHbm pa then s.hbmOff.get false (hbmStack pa)
  else if inNear pa then
    let g := nearGroup pa
    !(s.barAt 0 (0x20010 + 0x1000 * (g / 32))).getLsbD (g % 32) || s.nsOff.get false g
  else if inHost pa then false
  else if inJirum pa then
    let n := pa / 2 ^ 43 % 256
    let e := s.barAt 0 (0x30800 + 8 * n)
    n = 0 || !e.getLsbD 0 || decide (ufield e 52 12 * 2 ^ 32 ≤ pa % 2 ^ 43)
  else true

/-- The next access to an address is not served: no layer backs it, or its flit is lost (R112). -/
def State.layerOff (s : State) (pa : Nat) : Bool := s.flitLost || s.layerGone pa

/-! ### The slices (R96 to R103): they place lines and never change a value -/

/-- The logical slices of a partition that are not retired, in ascending order (R97). -/
def State.sliceList (s : State) (part : BitVec 3) : List Nat :=
  (List.range 512).filter (fun c => s.partOf (groupOf c) == some part && !s.sliceOut.get false c)

/-- The home slice of a line in this core's partition (R97). -/
def State.homeSlice (s : State) (pa : Nat) : Nat :=
  let h := (pa / 4096 % 32768) ^^^ (pa / 2 ^ 27 % 32768) ^^^ (pa / 2 ^ 42)
  let l := s.sliceList s.part
  l.getD (h % l.length) 0

/-- Whether some context of this core, or of another, watches the line. -/
def State.watched (s : State) (line : Nat) : Bool :=
  s.ctx.watch.lines.any (·.1 == line) || s.others.any (fun c => c.2.watch.lines.any (·.1 == line))

/-- Search order of victims (R100): default and long-lived lines after short-lived ones. -/
def hintRank (h : BitVec 2) : Nat := match h.toNat with | 1 => 0 | 2 => 2 | _ => 1

/-- The victim of a set among the ways a mask allows: short-lived, default, long-lived; least recently used
first; never pinned or watched (R100). -/
def State.victim (s : State) (inSet : List L2Line) (mask : Word) : Option L2Line :=
  inSet.foldl (fun best l =>
    if !mask.getLsbD l.way || l.pins != 0 || s.watched l.line then best
    else match best with
      | none => some l
      | some b => if hintRank l.hint < hintRank b.hint ∨ (hintRank l.hint = hintRank b.hint ∧ l.stamp < b.stamp)
        then some l else best) none

/-- A line that becomes long-lived beyond twelve in its set reclasses the least recently used one (R100). -/
def capLong (inSet : List L2Line) (l2 : List L2Line) : List L2Line :=
  let long := inSet.filter (·.hint == 2)
  if long.length ≤ 12 then l2
  else match long.foldl (fun b l => match b with
      | none => some l
      | some m => if l.stamp < m.stamp then some l else b) (none : Option L2Line) with
    | none => l2
    | some o => l2.map (fun l => if l.line = o.line ∧ l.slice = o.slice then { l with hint := 0 } else l)

/-- The set of a slice in which a line is held (R96). -/
def l2SetOf (line : Nat) : Nat := Config.l2Set line % 1024

/-- CMPSAV of each function after a write-back: what compression saves of it is a free value (log entry 4). Reads of
compressed units, and writes that are written through or bypass the slices, add nothing (DESIGN CHOICE: R114 does not say
which transfers CMPSAV counts; log entry 4). -/
def State.saved (s : State) : Store Word :=
  if (s.bar 0x10300).getLsbD 0 then
    s.cmpSaved.set 0 s.part.toNat ((s.cmpSaved.get 0 s.part.toNat + s.freeWord) &&& 0xFFFFFFFFFFFF)
  else s.cmpSaved
/-- A write-back of lines. -/
def State.writtenBack (s : State) : State := { s with fresh := s.fresh + 1, cmpSaved := s.saved }

/-- The lines of the slices after an access to a home slice, under a hint and a tenant class, and whether a dirty line was
written back for it (R98 to R101). UN lines are written through and are never dirty; a line held as UN stays so under an
access without a page kind (R76, R389). -/
def State.l2After (s : State) (pa : Nat) (hint : BitVec 2) (cls : BitVec 4) (un write : Bool) : List L2Line × Bool :=
  let line := pa / 128
  let slice := s.homeSlice pa
  let mask := s.bar (0x10100 + 8 * cls.toNat)
  -- a class whose mask is 0 behaves as bypass (R101)
  let hint : BitVec 2 := if mask = 0 then 3 else hint
  let same (l : L2Line) : Bool := l.slice == slice && l2SetOf l.line == l2SetOf line
  match s.l2.find? (fun l => l.line == line && l.slice == slice) with
  | some _ =>
    let l2 := s.l2.map (fun l => if l.line = line ∧ l.slice = slice then
      { l with
        hint := if hint = 3 then (if write then 1 else l.hint) else hint
        dirty := l.dirty || (write && !(un || l.un)), un := un || l.un, stamp := s.fresh } else l)
    (capLong (l2.filter same) l2, false)
  | none =>
    if hint = 3 then (s.l2, false)
    else
      let inSet := s.l2.filter same
      let place (way : Nat) (rest : List L2Line) : List L2Line :=
        let l2 : List L2Line := rest ++ [⟨line, slice, way, hint, cls, write && !un, un, 0, s.fresh⟩]
        capLong (l2.filter same) l2
      match (List.range 16).find? (fun w => mask.getLsbD w && !inSet.any (·.way == w)) with
      | some w => (place w s.l2, false)
      | none => match s.victim inSet mask with
        | none => (s.l2, false)
        | some v => (place v.way (s.l2.filter (fun l => !(l.line == v.line && l.slice == v.slice))), v.dirty)

/-- An access that reaches the home slice. It changes nothing but the slices, and what CMPSAV has counted. -/
def State.l2Access (s : State) (pa : Nat) (hint : BitVec 2) (cls : BitVec 4) (un write : Bool) : State :=
  if !(inHbm pa || inNear pa) then s
  else
    let r := s.l2After pa hint cls un write
    { s with l2 := r.1, fresh := s.fresh + 1, cmpSaved := if r.2 then s.saved else s.cmpSaved }

/-- Pins a line that a slice holds, within the slice's limits: 512 lines, and 8 of a set (R256). -/
def State.l2Pin (s : State) (pa : Nat) : Bool × State :=
  let line := pa / 128
  let slice := s.homeSlice pa
  let inSlice := s.l2.filter (fun l => l.slice == slice && l.pins != 0)
  let inSet := inSlice.filter (fun l => l2SetOf l.line == l2SetOf line)
  if s.l2.any (fun l => l.line == line && l.slice == slice) && decide (inSlice.length < 512) && decide (inSet.length < 8) then
    (true, { s with l2 := s.l2.map (fun l => if l.line = line ∧ l.slice = slice then { l with pins := l.pins + 1 } else l) })
  else (false, s)

/-- Drops the partition's clean UN lines (R98); one that a tile fetch has pinned stays (DESIGN CHOICE: R98 drops it,
R256 holds it; log entry 62). -/
def State.dropUn (s : State) : State := { s with l2 := s.l2.filter (fun l => !(l.un && !l.dirty && l.pins == 0)) }

/-! ### Reading and writing memory -/

/-- What a byte that nothing has written reads as (log entry 2). -/
def memDefault : Byte := 0

/-- One byte of memory. -/
def State.memByte (s : State) (pa : Nat) : Byte := s.mem.get memDefault pa

/-- Memory holds its canonical form. -/
def Memory.wf (m : Store Byte) : Bool := m.wf memDefault

/-- `n` bytes at a physical address. -/
def State.memBytes (s : State) (pa n : Nat) : List Byte := s.mem.getRun memDefault pa n
/-- A little-endian value of `n` bytes. -/
def State.memNat (s : State) (pa n : Nat) : Nat := bytesNat (s.memBytes pa n)
def State.memWord (s : State) (pa : Nat) : Word := BitVec.ofNat 64 (s.memNat pa 8)

/-- Whether any byte of the range is in a poisoned unit (R379). -/
def State.memPoisoned (s : State) (pa n : Nat) : Bool :=
  s.memPoison.get false (pa / 64) || s.memPoison.get false ((pa + n - 1) / 64)

/-- The same of a run of any length. -/
def State.memPoisonedRun (s : State) (pa n : Nat) : Bool :=
  (List.range ((pa + n + 63) / 64 - pa / 64)).any (fun i => s.memPoison.get false (pa / 64 + i))

/-- A write counts at the slice: every write to a watched line increments its version (R107). -/
def State.touchVersion (s : State) (line : Nat) : State :=
  if s.watched line then { s with l2Version := s.l2Version.set 0 line (s.l2Version.get 0 line + 1) } else s

/-- Writes bytes at a physical address; a whole 64-byte unit written clears or sets its poison, a part leaves
the unit poisoned if it was (R379). -/
def State.memWrite (s : State) (pa : Nat) (bs : List Byte) (poison : Bool) : State :=
  let u := pa / 64
  let p := if poison then true else if bs.length = 64 then false else s.memPoison.get false u
  ({ s with mem := s.mem.setRun memDefault pa bs, memPoison := s.memPoison.set false u p }).touchVersion (pa / 128)

/-- A stack in self-refresh wakes on an access (R86). -/
def State.wakeStack (s : State) (pa : Nat) : State :=
  if inHbm pa then { s with hbmSleep := s.hbmSleep.set false (hbmStack pa) false } else s
/-- The Felt counts an access of its own cores to a block of HBM4, whose stack wakes on it (R83, R86). -/
def State.noteAccess (s : State) (pa : Nat) : State :=
  if inHbm pa then
    let k := 8388608 * dieOf s.core.toNat + pa / 65536
    { s with nsCount := s.nsCount.set 0 k (Nat.min 255 (s.nsCount.get 0 k + 1)) }.wakeStack pa
  else s

/-- The report of an access that no layer serves: LAYEROFF, or LINKFAIL where its flit was lost (R86, R112). -/
def State.dropAccess (s : State) (pa : Nat) : State :=
  { s.report (if s.flitLost then .linkFail else .layerOff) (BitVec.ofNat 64 pa) with flitLost := false }

/-- A read performed below the L1: the bytes, whether poisoned, and the state after (R86, R99). -/
def State.physRead (s : State) (pa n : Nat) (hint : BitVec 2) (cls : BitVec 4) (un : Bool) :
    List Byte × Bool × State :=
  if s.layerOff pa then (s.memBytes pa n, true, s.dropAccess pa)
  else (s.memBytes pa n, s.memPoisoned pa n, (s.noteAccess pa).l2Access pa hint cls un false)

/-- A write performed at its home: dropped with a report where no layer backs it (R86). -/
def State.physWrite (s : State) (pa : Nat) (bs : List Byte) (poison : Bool) (hint : BitVec 2) (cls : BitVec 4)
    (un : Bool) : State :=
  if s.layerOff pa then s.dropAccess pa
  else ((s.memWrite pa bs poison).noteAccess pa).l2Access pa hint cls un true

/-- The first bytes of the lines that a run of bytes meets. -/
def linesOf (pa n : Nat) : List Nat := (List.range ((pa + n + 127) / 128 - pa / 128)).map (fun i => 128 * (pa / 128 + i))
/-- A core's read of a run of bytes at its lines' home slices. -/
def State.l2Lines (s : State) (pa n : Nat) (hint : BitVec 2) (cls : BitVec 4) (un : Bool) : State :=
  (linesOf pa n).foldl (fun s a => (s.noteAccess a).l2Access a hint cls un false) s
/-- What the Felt reads for itself there, with the default hint; it is no access of a core (R83). -/
def State.feltLines (s : State) (pa n : Nat) (cls : BitVec 4) (un : Bool) : State :=
  (linesOf pa n).foldl (fun s a => (s.wakeStack a).l2Access a 0 cls un false) s

/-- A write that the Felt or a control core makes for itself: dropped with a report where no layer backs it (R86, R101). -/
def State.feltWrite (s : State) (pa : Nat) (bs : List Byte) (cls : BitVec 4) (un : Bool) : State :=
  if s.layerOff pa then s.dropAccess pa
  else ((s.memWrite pa bs false).wakeStack pa).l2Access pa 0 cls un true

/-- What the Felt or a control core reads for itself, under a class: words at a physical address; none where the access
is not served (R86, R101, R112). -/
def State.feltRead (s : State) (pa n : Nat) (cls : BitVec 4) (un : Bool) : Option (List Word) × State :=
  if s.layerOff pa then (none, s.dropAccess pa)
  else (some ((List.range n).map (fun i => s.memWord (pa + 8 * i))), s.feltLines pa (8 * n) cls un)

/-! ### The trace ring (R402) -/

/-- The 32 bytes of a trace record. R402 names what they hold and gives no places: the cycle, the kind with core and
context, the position, the detail (DESIGN CHOICE, log entry 46). -/
def TraceRec.words (r : TraceRec) : List Word :=
  [r.cycle, BitVec.ofNat 64 (r.kind + 2 ^ 16 * r.core + 2 ^ 32 * r.ctx.toNat), r.pos, r.detail]

/-- Appends an enabled trace record of a context to the ring in memory, as a write of the system class. Its Felt cycle is a
free value (log entry 4). -/
def State.traceOf (s : State) (ctx : BitVec 2) (kind : Nat) (pos detail : Word) : State :=
  if (s.bar 0x80050).getLsbD kind then
    let fn := s.part.toNat
    let size := 4096 * (ufield (s.bar 0x80048) 0 20)
    let head := (s.bar 0x80058).toNat
    let cap := size / 32
    let lost := if cap ≤ s.trace.length then 1 else 0
    let kept := if cap ≤ s.trace.length then s.trace.drop 1 else s.trace
    let r : TraceRec := ⟨s.freeWord, kind, s.core.toNat, ctx, pos, detail⟩
    let s : State := { s.bump with trace := kept ++ [r] }
    let s := if size = 0 then s
      else s.feltWrite ((s.bar 0x80040).toNat + head) ((r.words.map (fun w => natBytes 8 w.toNat)).flatten) 0 false
    (s.setBar fn 0x80058 (BitVec.ofNat 64 (if size = 0 then 0 else (head + 32) % size))).setBar fn 0x80060
      (s.bar 0x80060 + BitVec.ofNat 64 lost)
  else s
/-- The same of the context on the core. -/
def State.traceRec (s : State) (kind : Nat) (pos detail : Word) : State := s.traceOf s.cur kind pos detail

/-! ### Page tables (R69 to R73) -/

/-- How an access uses a page. -/
inductive Access where
  | read | write | atomic | exec | tensorRead | tensorWrite | system | systemWrite
  deriving DecidableEq, Repr

def Access.writes : Access → Bool
  | .write | .atomic | .tensorWrite | .systemWrite => true
  | _ => false

/-- What a walk finds. -/
inductive Walk where
  | leaf (t : Tlb)
  | absent
  | bad
  deriving DecidableEq, Repr

/-- The levels of R69: shift, index bits, size of the page a leaf maps (0: no leaf), and the alignment of the
table it points to (0: no pointer). -/
def walkLevels : List (Nat × Nat × Nat × Nat) :=
  [(48, 8, 0, 4096), (39, 9, 0, 4096), (30, 9, 2 ^ 30, 4096), (21, 9, 2 ^ 21, 256), (16, 5, 2 ^ 16, 0)]

/-- Whether a bound tensor covers a leaf entry: it has sealed the entry (R72). -/
def State.entBound (s : State) (ent : Nat) : Bool := s.bound.any (fun b => b.ents.contains ent)

/-- A walk over the remaining levels from a table's base (R69 to R72), whoever has sealed the leaf. -/
def State.walkFrom (s : State) (asid : BitVec 12) (va : Nat) : List (Nat × Nat × Nat × Nat) → Nat → Walk
  | [], _ => .bad
  | (sh, bits, page, align) :: rest, base =>
    let ent := base + 8 * (va / 2 ^ sh % 2 ^ bits)
    let e := s.memWord ent
    if !e.getLsbD 0 then .absent
    else if e.getLsbD 1 then
      let next := e.toNat / 256 % 2 ^ 44 * 256
      if align = 0 || ufield e 2 6 != 0 || ufield e 52 12 != 0 || next % align != 0 then .bad
      else s.walkFrom asid va rest next
    else
      let pa := e.toNat / 65536 % 2 ^ 36 * 65536
      if page = 0 || ufield e 2 2 == 3 || ufield e 10 2 == 3 || ufield e 12 4 != 0 || ufield e 52 4 != 0 ||
        pa % page != 0 then .bad
      else .leaf ⟨asid, va / page * page, page, pa, BitVec.ofNat 2 (ufield e 2 2), e.getLsbD 4, e.getLsbD 5,
        e.getLsbD 6, e.getLsbD 7, e.getLsbD 9, BitVec.ofNat 2 (ufield e 10 2), ent⟩

/-- The entries that a walk reads. -/
def State.walkReads (s : State) (va : Nat) : List (Nat × Nat × Nat × Nat) → Nat → List Nat
  | [], _ => []
  | (sh, bits, _, align) :: rest, base =>
    let ent := base + 8 * (va / 2 ^ sh % 2 ^ bits)
    let e := s.memWord ent
    if e.getLsbD 0 && e.getLsbD 1 && align != 0 then ent :: s.walkReads va rest (e.toNat / 256 % 2 ^ 44 * 256) else [ent]
/-- A walker's read of an entry goes through the slices with the default hint, in the system class (R76, R101). One that is
not served is reported, and the walk goes by the entry that a read again gives (R86, R112; DESIGN CHOICE: the spec gives a
walk on poison no effect; log entry 76). -/
def State.walkRead (s : State) (ent : Nat) : State :=
  if s.layerOff ent then s.dropAccess ent else (s.wakeStack ent).l2Access ent 0 0 false false
def State.walkAccess (s : State) (root : Nat) (va : Word) : State :=
  (s.walkReads (va.toNat % 2 ^ 56) walkLevels root).foldl State.walkRead s

/-- A walk from a root (R69), the seal of its leaf not judged. -/
def State.rawWalk (s : State) (asid : BitVec 12) (root : Nat) (va : Word) : Walk :=
  s.walkFrom asid (va.toNat % 2 ^ 56) walkLevels root
/-- A walk from a root (R69): a sealed leaf that no bound tensor covers is malformed (R72). -/
def State.walk (s : State) (asid : BitVec 12) (root : Nat) (va : Word) : Walk :=
  match s.rawWalk asid root va with
  | .leaf t => if t.sl && !s.entBound t.ent then .bad else .leaf t
  | w => w

def Tlb.covers (t : Tlb) (asid : BitVec 12) (va : Word) : Bool :=
  t.asid == asid && t.va ≤ va.toNat && va.toNat < t.va + t.size

/-- ORs bits into a page-table entry (R73): a write of the system class at its home slice, and as any other to a watched
line (R86, R101, R107). -/
def State.orEntry (s : State) (ent : Nat) (bits : Word) : State :=
  ((({ s with mem := s.mem.setRun memDefault ent (natBytes 8 (s.memWord ent ||| bits).toNat) }).touchVersion
    (ent / 128)).wakeStack ent).l2Access ent 0 0 false true

/-- Installs a walked translation, setting AC (R73, R75). -/
def State.install (s : State) (t : Tlb) : State :=
  let s := if (s.memWord t.ent).getLsbD 8 then s else s.orEntry t.ent 0x100
  { s with tlb := (t :: s.tlb).take 512, tcache := (t :: s.tcache).take 16384
           pages := t :: s.pages.filter (fun u => u.ent != t.ent)
           misses := s.misses.filter (fun m => !t.covers m.asid m.va) }

/-- Looks a translation up: the TLB, the translation cache, then a walk (R75). -/
def State.lookup (s : State) (asid : BitVec 12) (root : Nat) (va : Word) : Walk × State :=
  match s.tlb.find? (·.covers asid va) with
  | some t => (.leaf t, s)
  | none =>
    match s.tcache.find? (·.covers asid va) with
    | some t => (.leaf t, { s with tlb := (t :: s.tlb).take 512 })
    | none =>
      let s1 := s.walkAccess root va
      match s.walk asid root va with
      | .leaf t => (.leaf t, s1.install t)
      | w => (w, s1)

/-! ### Misses (R75) -/

/-- Entries that misses hold: 512 of the 4,096 are kept for staging, which demand may not use while staging holds them
(R75). -/
def missRoom (l : List Miss) (staging : Bool) : Bool :=
  decide (l.length < 4096) && (staging || decide (l.countP (fun m => !m.staging) < 3584 + (512 - l.countP (·.staging))))

/-- The misses that hold an entry: those that waited longest take freed entries first (R75). -/
def missHeld (held : List Miss) : List Miss → List Miss
  | [] => held
  | m :: r => missHeld (if missRoom held m.staging then held ++ [m] else held) r

/-- The misses that the 64 walkers serve: demand before staging, which keeps 8 walkers, and of each the oldest (R75). -/
def missesServed (held : List Miss) : List Miss :=
  let st := held.filter (·.staging)
  let demand := (held.filter (fun m => !m.staging)).take (64 - Nat.min 8 st.length)
  demand ++ st.take (64 - demand.length)

/-- The root table of ASID 0 of this core's partition (log entry 13). -/
def State.sysRootOf (s : State) : Nat := s.sysRoot.get 0 s.part.toNat
/-- The root table of an address space that some task of this core runs in, or that the dispatcher knows. -/
def State.rootOf (s : State) (asid : BitVec 12) : Option Nat :=
  if asid = 0 then some s.sysRootOf
  else
    let jobs := (s.ctx.task.toList ++ (s.others.map (fun c => c.2.task.toList)).flatten).map (·.job) ++
      s.launches.filterMap (·.job)
    (jobs.find? (fun j => j.asid == asid)).map (·.root)

/-- The leaf of an address maps another address too. -/
def State.sameLeaf (s : State) (asid : BitVec 12) (a b : Word) : Bool :=
  match s.rootOf asid with
  | some root => (match s.rawWalk asid root a with
    | .leaf t => t.covers asid b
    | .absent | .bad => false)
  | none => false
/-- A miss of the leaf of an address, or of its 64 KiB unit where no leaf is found: the two coalesce (R75). -/
def State.missOn (s : State) (asid : BitVec 12) (va : Word) (m : Miss) : Bool :=
  m.asid == asid && (m.va.toNat / 65536 == va.toNat / 65536 || s.sameLeaf asid m.va va)

/-- A miss of a TLB is answered by the translation cache, where it holds the translation; else it coalesces with a pending
miss of its leaf, or joins the misses in order. The number of a miss in that order says whether it holds an entry. -/
def State.noteMiss (s : State) (asid : BitVec 12) (va : Word) (staging : Bool) : State :=
  match s.tcache.find? (·.covers asid va) with
  | some t => { s with tlb := (t :: s.tlb).take 512 }
  | none =>
    if s.misses.any (s.missOn asid va) then s
    else { s with misses := s.misses ++ [⟨asid, va, staging⟩] }
/-- An access meets no miss, or one that a walker serves: the others wait at the core's TLB (R75). The walk and the access
are then one event (DESIGN CHOICE; log entry 82). -/
def State.walkServed (s : State) (asid : BitVec 12) (va : Word) (staging : Bool) : Bool :=
  ufield va 56 8 != 0 || s.tlb.any (·.covers asid va) || s.tcache.any (·.covers asid va) ||
  (missesServed (missHeld [] (s.noteMiss asid va staging).misses)).any (s.missOn asid va)

/-- What a translation gives. -/
inductive Trans where
  | ok (pa : Nat) (t : Tlb)
  | fault (c : Cause)
  deriving DecidableEq, Repr

/-- The permission an access needs (R71, R80, R93). A leaf that lacks it and is sealed too answers PGPERM (DESIGN
CHOICE: R80 gives no order; log entry 60). -/
def Tlb.check (t : Tlb) (acc : Access) : Option Cause :=
  let lacks := match acc with
    | .read => !t.rd
    | .write => !t.wr
    | .atomic => !t.rd || !t.wr
    | .exec => !t.ex
    | .tensorRead => !t.rd
    | .tensorWrite => !t.wr
    | .system | .systemWrite => false
  if lacks then some .pgPerm
  else if t.sl && (match acc with | .tensorRead | .tensorWrite | .system | .systemWrite => false | _ => true) then some .sealed
  else none

/-- Sets DT before the first write through a translation whose DT is 0 (R73). -/
def State.markWritten (s : State) (t : Tlb) : State :=
  if t.dt then s
  else
    let set (u : Tlb) : Tlb := if u.ent = t.ent ∧ u.asid = t.asid then { u with dt := true } else u
    { (s.orEntry t.ent 0x200) with tlb := s.tlb.map set, tcache := s.tcache.map set }

/-- Translates one access (R66, R75, R80): the fault, or the physical address and the translation. -/
def State.translate (s : State) (asid : BitVec 12) (root : Nat) (va : Word) (acc : Access) : Trans × State :=
  if ufield va 56 8 != 0 then (.fault .badAddr, s)
  else
    match s.lookup asid root va with
    | (.absent, s') =>
      if s'.parked.any (fun p => p.denied && p.asid == asid && p.va.toNat / 65536 == va.toNat / 65536)
      then (.fault .pgPerm, s') else (.fault .pgAbsent, s')
    | (.bad, s') => (.fault .pteBad, s')
    | (.leaf t, s') =>
      match t.check acc with
      | some c => (.fault c, s')
      | none =>
        let pa := t.pa + (va.toNat - t.va)
        (.ok pa t, if acc.writes then s'.markWritten t else s')

end Sys2Proof.Machine
end

