-- ==== Sys2Proof/Machine/Ops.lean ====
section
/-! DEFINITION. The named operations over registers, queues, segments and contexts; taking a trap and
returning from one (R365 to R373); the end of a task. -/

namespace Sys2Proof.Machine

/-- The X-half has issued every bundle before the one where the A-half stands (R35). -/
def State.realigned (s : State) : Bool := !s.ctx.lag.any (fun e => decide (e.bun < s.ctx.an))

/-- What happens on a cause. -/
inductive CauseKind where
  | served
  /-- To the task's handler, by mask bit (R370). -/
  | delegable (bit : Nat)
  | stop
  | report
  | debugger
  | migrate
  deriving DecidableEq, Repr

end Sys2Proof.Machine

namespace Sys2Proof

/-- The codes of R365. -/
def Cause.code : Cause → Nat
  | .malformed => 0x01 | .badIndex => 0x02 | .badQuire => 0x03 | .noCode => 0x04 | .codeFault => 0x05
  | .badTarget => 0x06 | .brk => 0x07 | .badSr => 0x08 | .vRange => 0x09 | .mRange => 0x0A
  | .badShape => 0x0B | .badEret => 0x0C | .badGrow => 0x0D | .growLate => 0x0E | .badAddr => 0x10
  | .misalign => 0x11 | .pgAbsent => 0x12 | .pgPerm => 0x13 | .sealed => 0x14 | .badHandle => 0x15
  | .stale => 0x16 | .bounds => 0x17 | .tileAbsent => 0x18 | .tileFmt => 0x19 | .badAtom => 0x1A
  | .noSeg => 0x1B | .segBound => 0x1C | .segBusy => 0x1D | .segAbsent => 0x1E | .floor => 0x1F
  | .badLen => 0x20 | .badConv => 0x21 | .badUnpack => 0x22 | .qEmpty => 0x28 | .qFull => 0x29
  | .qBound => 0x2A | .streamFault => 0x2B | .streamEnd => 0x2C | .noGroup => 0x2D | .badPhase => 0x2E
  | .phaseSync => 0x2F | .phaseTimeout => 0x30 | .phaseAbort => 0x31 | .collMismatch => 0x32
  | .nonInv => 0x38 | .nonUniform => 0x39 | .swTrap => 0x40 | .pteBad => 0x80 | .layerOff => 0x81
  | .linkFail => 0x82 | .poison => 0x83 | .core => 0x84 | .double => 0x85 | .l2Lost => 0x86 | .noJcb => 0x87

/-- Every cause of R365. -/
def Cause.all : List Cause :=
  [.malformed, .badIndex, .badQuire, .noCode, .codeFault, .badTarget, .brk, .badSr, .vRange, .mRange, .badShape, .badEret, .badGrow,
   .growLate, .badAddr, .misalign, .pgAbsent, .pgPerm, .sealed, .badHandle, .stale, .bounds, .tileAbsent, .tileFmt, .badAtom] ++
  [.noSeg, .segBound, .segBusy, .segAbsent, .floor, .badLen, .badConv, .badUnpack, .qEmpty, .qFull, .qBound, .streamFault,
   .streamEnd, .noGroup, .badPhase, .phaseSync, .phaseTimeout, .phaseAbort, .collMismatch, .nonInv, .nonUniform, .swTrap] ++
  [.pteBad, .layerOff, .linkFail, .poison, .core, .double, .l2Lost, .noJcb]

open Machine in
/-- The kind of each cause, and the mask bit of a delegable one (R365, R370). -/
def Cause.kind : Cause → CauseKind
  | .codeFault | .pgAbsent | .tileAbsent | .segAbsent | .phaseTimeout => .served
  | .nonInv | .nonUniform => .delegable 0
  | .swTrap => .delegable 1
  | .badAddr | .misalign | .pgPerm | .sealed | .badHandle | .stale | .bounds | .tileFmt | .badAtom | .noSeg
  | .segBound | .segBusy | .badLen | .badConv | .badUnpack => .delegable 2
  | .qEmpty | .qFull | .qBound | .streamFault | .streamEnd | .noGroup | .badPhase | .phaseSync
  | .phaseAbort => .delegable 3
  | .badTarget | .badSr | .vRange | .mRange | .badShape | .badGrow | .growLate => .delegable 4
  | .malformed | .badIndex | .badQuire | .noCode | .badEret | .floor | .pteBad | .poison | .double
  | .l2Lost => .stop
  | .layerOff | .linkFail | .noJcb | .collMismatch => .report
  | .brk => .debugger
  | .core => .migrate

/-- The cause word of R371. -/
def TrapInfo.word (t : TrapInfo) : Word :=
  BitVec.ofNat 64 (t.cause.code + (if t.xhalf then 256 else 0) + 512 * t.slot + 65536 * t.swc.toNat)
/-- The trap that a cause word describes; none where its code is no cause. -/
def TrapInfo.ofWord (v detail : Word) : Option TrapInfo :=
  (Cause.all.find? (fun c => c.code == v.toNat % 256)).map (fun c =>
    ⟨c, v.getLsbD 8, v.toNat / 512 % 16, BitVec.ofNat 16 (v.toNat / 65536), detail⟩)

/-- The number of a shape class (R210). -/
def ShapeClass.no : ShapeClass → Nat
  | .csh => 0
  | .msh => 1
  | .ssh => 2
end Sys2Proof

namespace Sys2Proof.Machine

/-- What `exec` answers. -/
abbrev Out := Host.Outcome State Fault Refusal

/-! ### Registers of the running context -/

/-- The A-side registers as slots read them: as they stood before the bundle (R43). -/
def State.rd (s : State) : ARegs := s.ctx.aview.getD s.ctx.regs
/-- The captured A-side registers as X-half slots read them (R34). -/
def State.xrd (s : State) : ARegs := s.ctx.xview.getD s.ctx.regs
/-- The handler state of the running context (R370). -/
def Ctx.hand (c : Ctx) : Hand := ⟨c.hframe, c.hmask, c.hpc⟩
/-- The handler state for a trap: for one of the X-half, as it stood at its bundle (R372). -/
def Ctx.handFor (c : Ctx) (t : TrapInfo) : Hand := if t.xhalf then (c.lag.head?.map (·.hand)).getD c.hand else c.hand

def State.modCtx (s : State) (f : Ctx → Ctx) : State := { s with ctx := f s.ctx }
def State.modRegs (s : State) (f : ARegs → ARegs) : State := s.modCtx (fun c => { c with regs := f c.regs })

/-- a[i]; a0 reads zero (R200). -/
def ARegs.ra (r : ARegs) (i : AReg) : Word := if i = 0 then 0 else r.a.get 0 i.toNat
/-- k[i]; k0 reads true. -/
def ARegs.rk (r : ARegs) (i : KReg) : Bool := i == 0 || r.k.get false i.toNat
def ARegs.rg (r : ARegs) (i : GReg) : BitVec 16 := r.g.get 0 i.toNat
def ARegs.rlc (r : ARegs) (i : BitVec 2) : BitVec 32 := r.lc.get 0 i.toNat

/-- Writes a[i] and its poison; writes to a0 are discarded (R50, R200). -/
def ARegs.wa (r : ARegs) (i : AReg) (v : Word) (poison : Bool) : ARegs :=
  if i = 0 then r else { r with a := r.a.set 0 i.toNat v, aPoison := r.aPoison.set false i.toNat poison }
def ARegs.wk (r : ARegs) (i : KReg) (v : Bool) : ARegs :=
  if i = 0 then r else { r with k := r.k.set false i.toNat v }

/-- An outstanding load no longer writes a register that a later bundle has written (R36). -/
def dropPending (cur : BitVec 2) (d : AReg) (l : List Req) : List Req :=
  l.map (fun q => if q.ctx == cur then (match q.act with
    | .areg d' t => if d' = d then { q with act := .areg 0 t } else q
    | _ => q) else q)

/-- An A-half slot writes a[d]. -/
def State.setA (s : State) (d : AReg) (v : Word) : State :=
  { s with ctx := { s.ctx with regs := s.ctx.regs.wa d v false }, reqs := dropPending s.cur d s.reqs }
def State.setK (s : State) (d : KReg) (v : Bool) : State :=
  { s with ctx := { s.ctx with regs := s.ctx.regs.wk d v } }

/-- The shape registers of a class, and their shadows (R209). -/
def ARegs.shapes (r : ARegs) : ShapeClass → Store Word × Store Word
  | .csh => (r.csh, r.cshs)
  | .msh => (r.msh, r.mshs)
  | .ssh => (r.ssh, r.sshs)
def ARegs.setShapes (r : ARegs) (c : ShapeClass) (x : Store Word × Store Word) : ARegs :=
  match c with
  | .csh => { r with csh := x.1, cshs := x.2 }
  | .msh => { r with msh := x.1, mshs := x.2 }
  | .ssh => { r with ssh := x.1, sshs := x.2 }
/-- Exchanges the poison of a class's registers and shadows. -/
def swapPoison (c : ShapeClass) (p : Store Bool) : Store Bool :=
  (List.range 4).foldl (fun m i =>
    let a := 8 * c.no + i
    (m.set false a (p.get false (a + 4))).set false (a + 4) (p.get false a)) p
/-- A swap exchanges all four registers of the class with their shadows (R209). -/
def ARegs.swap (r : ARegs) (c : ShapeClass) : ARegs :=
  let x := r.shapes c
  { r.setShapes c (x.2, x.1) with shPoison := swapPoison c r.shPoison }

/-! ### Pending accumulator writes (R259) -/

/-- The accumulator writes that a read at a bundle does not see: those whose visibility is due at bundle `m` or later, and
that no later write of the same accumulator visible by then has overtaken. -/
def pendingZ (m : Nat) : List ZHist → List ZHist
  | [] => []
  | h :: r => if m ≤ h.due ∧ !r.any (fun x => x.z == h.z && decide (x.due < m)) then h :: pendingZ m r else pendingZ m r

/-! ### Waits -/

/-- The context on the core may issue: it runs a task and nothing has stopped it. -/
def State.mayIssue (s : State) : Bool :=
  s.ctx.phase == .running && !s.ctx.stopped && !s.ctx.halt && !s.frozen && !s.inReset && s.online

/-- The half waits at its bundle: nothing changes but the note of why (R35, R44). -/
def State.wait (s : State) (w : WaitFor) : State := { s with mark := .waited w }

/-! ### Contexts by number -/

def State.ctxAt (s : State) (i : BitVec 2) : Ctx :=
  if i = s.cur then s.ctx else s.others.get Ctx.zero i.toNat
def State.setCtxAt (s : State) (i : BitVec 2) (c : Ctx) : State :=
  if i = s.cur then { s with ctx := c } else { s with others := s.others.insert i.toNat c }
def State.modAt (s : State) (i : BitVec 2) (f : Ctx → Ctx) : State := s.setCtxAt i (f (s.ctxAt i))

/-- The job of the running context's task. -/
def Task.zeroJob : JobDesc := ⟨0, 0, 0, 0, 0⟩
def Ctx.job (c : Ctx) : JobDesc := (c.task.map (·.job)).getD Task.zeroJob
def Ctx.jd (c : Ctx) : Word := (c.task.map (·.jd)).getD 0
/-- What names it (R324). -/
def Ctx.jobKey (c : Ctx) : JobKey := ⟨(c.task.map (·.part)).getD 0, c.jd, c.job.asid, c.job.jjcb⟩

/-- The transit latches as the core holds them. -/
def State.latchesNow (s : State) : Latches := ⟨s.latch, s.vPoison.filter (fun p => decide (5120 ≤ p.1))⟩
/-- Puts latches into the core. -/
def State.putLatches (s : State) (l : Latches) : State :=
  { s with latch := l.vals
           vPoison := l.bad.foldl (fun m p => m.insert p.1 p.2) (s.vPoison.filter (fun p => decide (p.1 < 5120))) }

/-- Every transit latch of every cluster becomes zero (R203); the poison of latches is kept from 5,120 on. -/
def State.clearLatches (s : State) : State :=
  { s with latch := [], vPoison := s.vPoison.filter (fun p => decide (p.1 < 5120)) }

/-- Brings another context onto the core (R44, R203): latches are cleared between jobs, the watch set of the
context switched out is lost (R109). -/
def Watch.lose (w : Watch) : Watch :=
  if w.lines.isEmpty && !w.capacity && !w.full && !w.lost then w else { Watch.zero with lost := true }
/-- The latches as the context on the core sees them: its job's, or all zero. -/
def State.seenLatches (s : State) : Latches :=
  s.ctx.latches.getD (if s.lastJob = some s.ctx.jobKey then s.latchesNow else ⟨[], []⟩)
/-- The latches that a context takes along when it leaves the core: none, but where a trap or the debugger has stopped
it, or it stands for its heavy save (R44, R368, R369, R375, R400). -/
def State.keptLatches (s : State) : Option Latches :=
  if s.ctx.latches.isSome || s.ctx.stopped || s.ctx.halt || s.parked.any (fun p => p.by_ == .half s.cur)
  then some s.seenLatches else none
def State.switchTo (s : State) (i : BitVec 2) : State :=
  if i = s.cur then s
  else
    let out := { s.ctx with watch := s.ctx.watch.lose, yielding := false, latches := s.keptLatches }
    let c := { s.others.get Ctx.zero i.toNat with quantum := 0 }
    let s := { s with others := (s.others.erase i.toNat).insert s.cur.toNat out, cur := i, ctx := c }
    let s := match s.lastJob with
      | some j => if c.task.isSome && c.jobKey != j then s.clearLatches else s
      | none => s
    s.traceRec 4 c.pc 0

/-- Runs something with context `i` in the place of the context on the core. -/
def State.asCtx (s : State) (i : BitVec 2) (f : State → State) : State :=
  if i = s.cur then f s
  else
    let c := s.cur
    let t := f { s with cur := i, ctx := s.others.get Ctx.zero i.toNat
                        others := (s.others.erase i.toNat).insert c.toNat s.ctx }
    { t with cur := c, ctx := t.others.get Ctx.zero c.toNat
             others := (t.others.erase c.toNat).insert i.toNat t.ctx }

/-! ### Queues (R190 to R193) -/

def Ctx.queue (c : Ctx) (id : Nat) : List QEntry := c.queues.get [] id
def Ctx.setQueue (c : Ctx) (id : Nat) (q : List QEntry) : Ctx := { c with queues := c.queues.set [] id q }
def State.queue (s : State) (id : Nat) : List QEntry := s.ctx.queue id

/-- Reserves the next entry of a queue of context `i`. -/
def State.reserveAt (s : State) (i : BitVec 2) (id : Nat) (src : QFrom) (bun : Nat) : State :=
  let e : QEntry := ⟨s.fresh, bun, src, none, false⟩
  (s.modAt i (fun c => c.setQueue id (c.queue id ++ [e]))).bump
def State.reserve (s : State) (id : Nat) (src : QFrom) (bun : Nat) : State :=
  let e : QEntry := ⟨s.fresh, bun, src, none, false⟩
  (s.modCtx (fun c => c.setQueue id (c.queue id ++ [e]))).bump
/-- Fills a reserved entry. -/
def Ctx.fill (c : Ctx) (id tick : Nat) (v : Vec) (poison : Bool) : Ctx :=
  c.setQueue id ((c.queue id).map (fun e => if e.tick = tick then { e with val := some v, poison := poison } else e))
/-- Pops the head entry. -/
def Ctx.pop (c : Ctx) (id : Nat) : Ctx := c.setQueue id (c.queue id).tail

/-- The stream bound to a queue of a context. -/
def State.streamAt (s : State) (i : BitVec 2) (id : Nat) : Option Stream :=
  s.streams.find? (fun t => t.ctx == i && 6 * t.cl.toNat + t.q == id)
def State.boundQ (s : State) (id : Nat) : Bool := (s.streamAt s.cur id).isSome

/-- Causes that trap and whose detail word is a faulting address. -/
def aTrap (slot : Nat) (c : Cause) (detail : Word) : TrapInfo := ⟨c, false, slot, 0, detail⟩
def xTrap (slot : Nat) (c : Cause) (detail : Word) : TrapInfo := ⟨c, true, slot, 0, detail⟩

/-! ### Quires and branch targets (R54 to R56) -/

/-- The number of halfwords a header gives its body. -/
def Quire.cnt (q : Quire) : Nat := ufield (q.hdr.getD 0 0) 0 8

/-- A quire as memory holds it. -/
def State.readQuire (s : State) (asid : BitVec 12) (frame : Word) (pa : Nat) : Quire :=
  let hdr := (List.range 8).map (fun i => s.memWord (pa + 8 * i))
  let cnt := ufield (hdr.getD 0 0) 0 8
  ⟨asid, frame, hdr, if cnt ≤ 128 then (List.range cnt).map (fun i => BitVec.ofNat 16 (s.memNat (pa + 64 + 2 * i) 2)) else []⟩

/-- The quire at a frame, from the loop buffer or from memory (R54, R58): a fault where it cannot be fetched. R57 lets
each halfword of a frame that is being rewritten be old or new; the buffered quire is wholly old, and any other is read
at one moment (DESIGN CHOICE, log entry 63). Poison in a unit that is read raises POISON (DESIGN CHOICE: R380 does not
name the expander; log entry 67). -/
def State.quireAt (s : State) (frame : Word) : Except Cause (Quire × State) :=
  let j := s.ctx.job
  match s.loopBuf.find? (fun q => q.asid == j.asid && q.frame == frame) with
  | some q => .ok (q, s)
  | none =>
    match s.translate j.asid j.root frame .exec with
    | (.fault c, _) => .error (if c = .pgAbsent ∨ c = .pgPerm then .codeFault else c)
    | (.ok pa tl, s') =>
      let q := s'.readQuire j.asid frame pa
      if s'.layerOff pa || s'.memPoisoned pa 64 || (q.cnt != 0 && decide (q.cnt ≤ 128) && s'.memPoisonedRun (pa + 64) (2 * q.cnt))
      then .error .poison
      else .ok (q, s'.l2Lines pa (64 + 2 * q.cnt) 0 j.ten (tl.kind == 2))

/-- The frame of a position (R54). -/
def frameOf (w : Word) : Word := w - BitVec.ofNat 64 (w.toNat % 512)
/-- A page of the running context meets no miss, or one that is served (R75). -/
def State.pageServed (s : State) (va : Word) : Bool := s.walkServed s.ctx.job.asid va false
/-- The half waits for the walk of such a page. -/
def State.awaitPage (s : State) (va : Word) : State := (s.noteMiss s.ctx.job.asid va false).wait .engine
/-- The quire at a frame is in the loop buffer, or its page is served. -/
def State.fetchServed (s : State) (frame : Word) : Bool :=
  s.loopBuf.any (fun q => q.asid == s.ctx.job.asid && q.frame == frame) || s.pageServed frame

/-- A fetch from a layer that is off is reported as any read (R86). -/
def State.fetchReport (s : State) (frame : Word) (c : Cause) : State :=
  match (if c = .poison then s.translate s.ctx.job.asid s.ctx.job.root frame .exec else (.fault c, s)) with
  | (.ok pa _, _) => if s.layerOff pa then s.dropAccess pa else s
  | (.fault _, _) => s

/-- Whether position `n` of a body is an index or an escape, not inside a literal (R56). -/
def okPos : List (BitVec 16) → Nat → Nat → Bool
  | [], _, _ => false
  | _ :: _, 0, 0 => true
  | h :: r, 0, n + 1 => okPos r (if h = 0xFFFF then 48 else 0) n
  | _ :: _, _ + 1, 0 => false
  | _ :: r, k + 1, n + 1 => okPos r k n

/-- A target where no bundle of any quire begins (R56). -/
def badPlace (target : Word) : Bool :=
  ufield target 56 8 != 0 || decide (target.toNat % 512 < 64) || target.toNat % 2 != 0
/-- The check of a branch target (R56): nothing, or the trap it raises. -/
def State.targetFault (s : State) (target : Word) : Option Cause :=
  if ufield target 56 8 != 0 then some .badTarget
  else
    let off := target.toNat % 512
    let frame := target - BitVec.ofNat 64 off
    if off < 64 || off % 2 != 0 then some .badTarget
    else match s.quireAt frame with
    | .error c => some c
    | .ok (q, _) =>
      if q.cnt = 0 || 128 < q.cnt then some .badTarget
      else if okPos q.body 0 ((off - 64) / 2) then none else some .badTarget
/-- The check can be made: the target's quire is not behind a miss that waits (R75). -/
def State.targetServed (s : State) (target : Word) : Bool := badPlace target || s.fetchServed (frameOf target)
/-- The report of a target's fetch that no layer serves. -/
def State.targetReport (s : State) (target : Word) (c : Cause) : State := s.fetchReport (frameOf target) c

/-! ### Segments (R148, R149, R162) -/

/-- Own resolution (R148). -/
def State.seg (s : State) (i : BitVec 2) (name : BitVec 16) : Option SegEntry :=
  if name = 0 then none else s.segs.find? (fun e => e.ctx == i && e.name == name)
def State.modSeg (s : State) (i : BitVec 2) (name : BitVec 16) (f : SegEntry → SegEntry) : State :=
  { s with segs := s.segs.map (fun e => if e.ctx = i ∧ e.name = name then f e else e) }

/-- Whether an entry holds a pin. -/
def SegEntry.pinned (e : SegEntry) : Bool := e.ppin || e.mpin || e.cpins != 0 || e.spins != 0
/-- The pinned lines P of a task (R162). -/
def State.pinnedLines (s : State) (i : BitVec 2) : Nat :=
  ((s.segs.filter (fun e => e.ctx == i && !e.anc && e.pinned)).map (·.size)).sum
/-- The lines by which pinning the named segments would raise P. -/
def State.pinCost (s : State) (i : BitVec 2) (names : List (BitVec 16)) : Nat :=
  ((s.segs.filter (fun e => e.ctx == i && !e.anc && !e.pinned && names.contains e.name)).map (·.size)).sum
/-- Whether a copy, collective or tile fetch of the task pins an unanchored segment (R163). -/
def State.enginePins (s : State) (i : BitVec 2) : Bool :=
  s.segs.any (fun e => e.ctx == i && !e.anc && e.cpins != 0)
/-- The outcome of R163: may pin, must wait, or raises FLOOR. -/
inductive PinFate where
  | fits | waits | floor
  deriving DecidableEq, Repr
def State.pinFate (s : State) (i : BitVec 2) (names : List (BitVec 16)) : PinFate :=
  let h := ((s.ctxAt i).task.map (·.h)).getD 0
  let cost := s.pinCost i names
  if cost = 0 || s.pinnedLines i + cost ≤ h then .fits else if s.enginePins i then .waits else .floor

/-- A touch: notes its moment (R157). -/
def State.touchSeg (s : State) (i : BitVec 2) (name : BitVec 16) : State :=
  (s.modSeg i name (fun e => { e with touched := s.fresh })).bump

/-- The segment-store lines in use. -/
def State.usedLines (s : State) : List Nat := (s.segs.map (·.place)).flatten
/-- Free segment-store lines, lowest first. -/
def State.freeLines (s : State) : List Nat :=
  (List.range (512 * s.sw)).filter (fun l => !s.usedLines.contains l)
/-- Lines resident, for the floor and the recall. -/
def State.residentCount (s : State) : Nat := (s.segs.map (·.place.length)).sum

/-- Frees a segment (R170): its entry, lines and push-out slot. -/
def State.freeSeg (s : State) (i : BitVec 2) (name : BitVec 16) : State :=
  { s with segs := s.segs.filter (fun e => !(e.ctx == i && e.name == name)) }

/-- Bytes of a segment. -/
def SegEntry.read (e : SegEntry) (off n : Nat) : List Byte := e.bytes.getRun 0 off n
def SegEntry.poisoned (e : SegEntry) (off n : Nat) : Bool :=
  e.poison.get false (off / 64) || e.poison.get false ((off + n - 1) / 64)
def SegEntry.write (e : SegEntry) (off : Nat) (bs : List Byte) (poison : Bool) : SegEntry :=
  let u := off / 64
  { e with
    bytes := e.bytes.setRun 0 off bs
    poison := e.poison.set false u (if poison then true else if bs.length = 64 then false else e.poison.get false u) }
/-- Sets or clears the full bit of a line. -/
def SegEntry.setFull (e : SegEntry) (line : Nat) (full : Bool) : SegEntry :=
  { e with empty := e.empty.set false line (!full) }
def SegEntry.isEmpty (e : SegEntry) (line : Nat) : Bool := e.empty.get false line

/-- Adjusts the engine pins of copies, collectives and fetches. -/
def State.pin (s : State) (i : BitVec 2) (names : List (BitVec 16)) : State :=
  { s with segs := s.segs.map (fun e => if e.ctx = i ∧ names.contains e.name then { e with cpins := e.cpins + 1 } else e) }
def State.unpin (s : State) (i : BitVec 2) (names : List (BitVec 16)) : State :=
  { s with segs := s.segs.map (fun e => if e.ctx = i ∧ names.contains e.name then { e with cpins := e.cpins - 1 } else e) }
/-- Pins of streams and phases. -/
def State.spin (s : State) (i : BitVec 2) (names : List (BitVec 16)) : State :=
  { s with segs := s.segs.map (fun e => if e.ctx = i ∧ names.contains e.name then { e with spins := e.spins + 1 } else e) }
def State.unspin (s : State) (i : BitVec 2) (names : List (BitVec 16)) : State :=
  { s with segs := s.segs.map (fun e => if e.ctx = i ∧ names.contains e.name then { e with spins := e.spins - 1 } else e) }

/-- The names of a context's own segments that a copy pins. -/
def Copy.names (c : Copy) : List (BitVec 16) :=
  (match c.src with | .own _ n _ => [n] | _ => []) ++ (match c.dst with | .own _ n _ => [n] | _ => [])
/-- The peer segment that a copy pins (R122). -/
def State.modPeer (s : State) (core : Nat) (name : BitVec 16) (job : Word) (f : SegEntry → SegEntry) : State :=
  { s with peers := s.peers.map (fun p => if p.core = core then
      { p with segs := p.segs.map (fun e => if e.anc ∧ e.name = name ∧ e.job = job then f e else e) } else p) }
/-- Peer resolution (R148): on another core, or on this one. -/
def State.peerSeg (s : State) (core : Nat) (name : BitVec 16) (job : Word) : Option SegEntry :=
  let ok (e : SegEntry) : Bool := e.anc && e.name == name && e.job == job
  if name = 0 then none
  else if core = s.core.toNat then s.segs.find? ok
  else (s.peers.find? (·.core == core)).bind (fun p => p.segs.find? ok)
/-- Changes an anchored segment of the job on a core of the group. -/
def State.modPeerSeg (s : State) (core : Nat) (name : BitVec 16) (job : Word) (f : SegEntry → SegEntry) : State :=
  if core = s.core.toNat then
    { s with segs := s.segs.map (fun e => if e.anc ∧ e.name = name ∧ e.job = job then f e else e) }
  else s.modPeer core name job f

/-- Releases the pins a copy holds. -/
def State.unpinCopy (s : State) (c : Copy) : State :=
  let s := s.unpin c.ctx c.names
  match c.dst with
  | .peer core name _ => if !c.peerPin then s else s.modPeerSeg core name ((c.task.map (·.jd)).getD 0) (fun e => { e with cpins := e.cpins - 1 })
  | _ => s

/-! ### The end of a task (R298, R354, R365) -/

/-- Status, the greater of two (R351). -/
def Status.max : Status → Status → Status
  | .poisoned, _ => .poisoned
  | _, .poisoned => .poisoned
  | .cancelled, _ => .cancelled
  | _, .cancelled => .cancelled
  | .ok, .ok => .ok

/-- Releases the pins of a discarded or finished fetch. -/
def Fetch.names (f : Fetch) : List (BitVec 16) :=
  match f.base with
  | .seg (some n) _ _ => if f.pinned then [n] else []
  | _ => []
/-- Releases pins of L2 lines (R256). -/
def State.l2Unpin (s : State) (lines : List Nat) : State :=
  { s with l2 := s.l2.map (fun l => if lines.contains l.line then { l with pins := l.pins - 1 } else l) }
/-- Ends a fetch. -/
def State.endFetch (s : State) (i : BitVec 2) (f : Fetch) : State := (s.unpin i f.names).l2Unpin f.held
def State.dropFetches (s : State) (l : List LagEntry) : State :=
  l.foldl (fun s e => match e.fetch with
    | some f => s.endFetch s.cur f
    | none => s) s
/-- The lag record of a context, and the one that a handler has set aside. -/
def Ctx.allLag (c : Ctx) : List LagEntry := c.lag ++ ((c.aside.map (·.lag)).getD [])
/-- A lag entry whose fetch starts again. -/
def LagEntry.refetch (e : LagEntry) : LagEntry :=
  { e with fetch := e.fetch.map (fun f => { f with units := [], held := [], pinned := false }) }
/-- The X-half that trapped discards the fetch that it has started (R256, R258). -/
def State.dropHead (s : State) : State :=
  match s.ctx.lag with
  | [] => s
  | e :: r => (s.dropFetches [e]).modCtx (fun c => { c with lag := e.refetch :: r })

/-- The bundle of a context no longer holds the pin of its memory-slot access (R162). -/
def State.dropM (s : State) (i : BitVec 2) : State :=
  { s with segs := s.segs.map (fun e => if e.ctx = i ∧ e.mpin then { e with mpin := false } else e) }

/-- Drops the segment pin of a stream. -/
def State.unbind (s : State) (t : Stream) : State :=
  let s := { s with streams := s.streams.filter (fun u => !(u.ctx == t.ctx && u.cl == t.cl && u.q == t.q)) }
  match t.seg with
  | some n => s.unspin t.ctx [n]
  | none => s

/-- Unpopped entries that a stream reserved are discarded (R198). -/
def State.dropStreamEntries (s : State) (t : Stream) : State :=
  s.modAt t.ctx (fun c => c.setQueue (6 * t.cl.toNat + t.q)
    ((c.queue (6 * t.cl.toNat + t.q)).filter (fun e => e.src != .stream)))

/-- Stops every copy of a context as by CPCAN (R129): written units stay, no arrival is posted. -/
def State.stopCopies (s : State) (i : BitVec 2) : State :=
  let mine := s.copies.filter (fun c => c.ctx == i)
  let s := mine.foldl (fun s c => s.unpinCopy c) s
  { s with copies := s.copies.filter (fun c => !(c.ctx == i)) }

/-- Ends work in flight of a stopped or cancelled task: copies stop, streams are unbound, the units not begun
of output streams and ZST writes are dropped (R354, R365). -/
def State.stopWork (s : State) (i : BitVec 2) : State :=
  let s := s.stopCopies i
  let s := (s.streams.filter (fun t => t.ctx == i)).foldl (fun s t => s.unbind t) s
  let s := (s.zstores.filter (fun z => z.ctx == i)).foldl (fun s z => s.unpin z.ctx z.seg.toList) s
  let s : State := { s with zstores := s.zstores.filter (fun z => !(z.ctx == i)) }
  match s.phase with
  | some p => if p.ctx = i then { s.unspin p.ctx [p.src, p.dst] with phase := none, mesh := [], meshWords := [] } else s
  | none => s

/-- The loop counters select a loop of the context on the core (R403). -/
def State.loopSelected (s : State) : Bool :=
  let sel := s.bar 0x80080
  sel.getLsbD 13 && ufield sel 0 9 == s.core.toNat && ufield sel 9 2 == s.cur.toNat

/-- The context stops executing its task, which now waits for its release: unissued X-halves are discarded,
exposed results dropped, queues emptied but for what a bound output stream still drains (R298, R193): of that an entry which
nothing will fill any more goes, and the later ones move up (DESIGN CHOICE: R198 does not name the case; log entry 78). -/
def State.endTask (s : State) (st : Status) (stopped : Bool) : State :=
  let s := (s.dropFetches s.ctx.allLag).dropM s.cur
  let s := if stopped then s.stopWork s.cur else s
  let ins := s.streams.filter (fun t => t.ctx == s.cur && t.q < 4)
  let s := ins.foldl (fun s t => s.unbind t) s
  let keep (id : Nat) : Bool := s.streams.any (fun t => t.ctx == s.cur && 6 * t.cl.toNat + t.q == id)
  -- a run of the selected loop that its task leaves open ends with it
  State.modCtx { s with parked := s.parked.filter (fun p => p.by_ != .half s.cur)
                        lpRun := if s.loopSelected then [] else s.lpRun } (fun c => { c with
    phase := .retiring
    task := c.task.map (fun t => { t with st := t.st.max st })
    lag := [], flight := [], zhist := [], xpend := [], active := false, aside := none, pend := none, aview := none,
    xview := none, watch := Watch.zero, yielding := false
    queues := (c.queues.filter (fun q => keep q.1)).map (fun q => (q.1, q.2.filter (fun e => e.val.isSome))) })

/-- Where the X-half stands: the first X-half not issued (R368). -/
def Ctx.xpc (c : Ctx) : Word := (c.lag.head?.map (·.pc)).getD c.pc

/-- Stops the running task with a cause: a record in the fault log, and the task retires POISONED (R365). -/
def State.stopTask (s : State) (c : Cause) (first : Option Cause) (detail : Word) : State :=
  let t := s.ctx.task
  let s := s.logFault ⟨s.part, c, first, s.core.toNat, s.cur, s.ctx.pc, s.ctx.xpc, (t.map (·.x)).getD 0,
    (t.map (·.y)).getD 0, detail, 0⟩
  let s : State := if 0x80 ≤ c.code then
      { s.machineCheck with phaseFirst := if s.phase.isSome then some .machineCheck else s.phaseFirst }
    else s
  s.endTask .poisoned true

/-! ### Taking a trap (R366 to R371) -/

/-- Parks an access in the fault table (R80). -/
def State.park (s : State) (who : ParkedBy) (va : Word) (c : Cause) (j : JobDesc) : State :=
  if s.parked.any (fun p => p.by_ == who && p.va == va && p.cause == c) then s
  else { s with parked := s.parked ++ [⟨who, j.asid, j.root, va, c, false⟩] }

/-- The result of the frame's translation: all of it lies in one 256-byte block. -/
def State.frameAt (s : State) (frame : Word) (acc : Access) : Trans × State :=
  s.translate s.ctx.job.asid s.ctx.job.root frame acc
/-- Bytes that a frame holds (R371). -/
def frameBytes : Nat := 0x48
/-- The kind of a request that an access orders itself against. -/
def Req.before (q : Req) (pa n : Nat) : Bool := decide (q.pa < pa + n ∧ pa < q.pa + q.width)
/-- Accesses of the context to the frame are outstanding: the frame is written and read in program order (R371, R373). -/
def State.frameBusy (s : State) (pa : Nat) : Bool :=
  s.reqs.any (fun q => q.ctx == s.cur && (q.before pa frameBytes || (q.kind != 2 && (q.ord == .acquire || q.ord == .acqRel))))

/-- What a trap sets aside (R368). -/
def State.toAside (s : State) (c : Cause) (frame : Word) : Aside :=
  ⟨s.ctx.pc, s.ctx.xpc, s.ctx.lag, s.ctx.flight, s.ctx.zhist, s.seenLatches, s.ctx.an, s.ctx.xn, s.ctx.xpend, c, frame, s.ctx.hand⟩

/-- Writes one word of the handler frame. -/
def State.frameWord (s : State) (pa off : Nat) (un : Bool) (v : Word) (poison : Bool) : State :=
  s.physWrite (pa + off) (natBytes 8 v.toNat) poison 0 s.ctx.job.ten un

/-- The visibility counts of accumulator writes are held while the handler runs (R371, R373). -/
def heldForever : Nat := 2 ^ 80

/-- A fault by which entry to the handler waits: it is served, and the trap is taken then; one for which no mapping
can be made makes entry fail (R81, R370). -/
def State.serveEntry (s : State) (t : TrapInfo) (va : Word) (c : Cause) : State :=
  if s.parked.any (fun p => p.denied && p.by_ == .half s.cur && p.va == va) then
    { (s.stopTask .double (some t.cause) t.detail) with mark := .trapped t }
  else { (s.park (.half s.cur) va c s.ctx.job).modCtx (fun x => { x with pend := some t }) with mark := .trapped t }

/-- Entry to the handler (R371): the state is set aside and the frame written, a60 to a63 tell the handler,
and both halves start at HPC with no lag. -/
def State.enterHandler (s : State) (t : TrapInfo) : State :=
  let h := s.ctx.handFor t
  match s.frameAt h.frame .write with
  | (.fault c, s1) =>
    if c.kind = .served then s1.serveEntry t h.frame c
    else { (s1.stopTask .double (some t.cause) t.detail) with mark := .trapped t }
  | (.ok pa tl, s1) =>
    if s1.frameBusy pa then (s1.modCtx (fun x => { x with pend := some t, aview := none, xview := none })).wait .entry
    else if s1.layerOff pa then
      { ((s1.dropAccess pa).stopTask .double (some t.cause) t.detail) with mark := .trapped t }
    else match s1.targetFault h.pc with
    | some c =>
      if c = .codeFault then s1.serveEntry t h.pc c
      else { ((s1.targetReport h.pc c).stopTask .double (some t.cause) t.detail) with mark := .trapped t }
    | none =>
      let un := tl.kind == 2
      let s1 := if t.xhalf then s1.dropHead else s1
      let c := s1.ctx
      let aside := s1.toAside t.cause h.frame
      let words : List (Nat × Word × Bool) :=
        [(0x00, h.pc, false), (0x08, t.word, false), (0x10, c.pc, false), (0x18, c.xpc, false), (0x20, t.detail, false)] ++
        (List.range 4).map (fun i => (0x28 + 8 * i, c.regs.a.get 0 (60 + i), c.regs.aPoison.get false (60 + i)))
      let s2 := words.foldl (fun s w => s.frameWord pa w.1 un w.2.1 w.2.2) s1
      let s3 := s2.modCtx (fun c => { c with
        aside := some aside
        lag := [], flight := [], xpend := [], hwrote := [], xn := c.an
        zhist := c.zhist.map (fun z => { z with due := heldForever })
        active := true, pend := none
        regs := (((c.regs.wa 60 h.frame false).wa 61 t.word false).wa 62 c.pc false).wa 63 aside.xpc false
        pc := h.pc, npc := h.pc, aview := none, xview := none, watch := c.watch.lose })
      { s3 with mark := .trapped t }

/-- To the control core (R370): a served cause is parked and the bundle executes again; BREAK stops the
context for the debugger (R400); any other cause stops the task. -/
def State.toControlCore (s : State) (t : TrapInfo) : State :=
  let s := s.modCtx (fun c => { c with aview := none, xview := none, pend := some t, watch := c.watch.lose })
  let s := s.traceRec 3 (if t.xhalf then s.ctx.xpc else s.ctx.pc) t.word
  match t.cause.kind with
  | .served =>
    if t.cause = .phaseTimeout then { s with mark := .trapped t }
    else { s.park (.half s.cur) t.detail t.cause s.ctx.job with mark := .trapped t }
  | .debugger =>
    { (s.modCtx (fun c => { c with stopped := true, stopCause := BitVec.ofNat 8 t.cause.code })).signal s.part.toNat 4
      with mark := .trapped t }
  | .report => { s.report t.cause t.detail with mark := .trapped t }
  | _ =>
    if s.ctx.active then { s.stopTask .double (s.ctx.aside.map (·.cause)) t.detail with mark := .trapped t }
    else { s.stopTask t.cause none t.detail with mark := .trapped t }

/-- Whether a trap goes to the context's own handler (R370). -/
def Ctx.delegates (c : Ctx) (t : TrapInfo) : Bool :=
  match t.cause.kind with
  | .delegable b => (c.handFor t).mask.getLsbD b && !c.active
  | _ => false

/-- A load still outstanding into a60 to a63, which entry to a handler saves and then writes (R36, R371). -/
def State.entryBusy (s : State) : Bool :=
  s.reqs.any (fun q => q.ctx == s.cur && (match q.act with | .areg d _ => decide (60 ≤ d.toNat) | _ => false))
/-- The pages of a handler's frame and of its first bundle are behind no miss that waits (R75). -/
def State.entryServed (s : State) (h : Hand) : Bool := s.pageServed h.frame && s.targetServed h.pc
/-- Entry to the handler for a trap waits: its bundle executes again, or the entry is owed (R372). -/
def State.entryWaits (s : State) (t : TrapInfo) : State :=
  (s.modCtx (fun c => { c with aview := none, xview := none, pend := some t })).wait .entry

/-- Taking a trap: the one operation every trap goes through (R366 to R371). A served fault for which no
mapping can be made is PGPERM (R81). Entry reads a60 to a63, so it waits for a load into one of them (R36). -/
def State.raise (s : State) (t : TrapInfo) : State :=
  let refused (p : Parked) : Bool :=
    p.denied && p.by_ == .half s.cur && p.va == t.detail && (p.cause == t.cause || t.cause == .pgPerm)
  let (t, s) : TrapInfo × State :=
    if s.parked.any refused then
      ({ t with cause := .pgPerm }, { s with parked := s.parked.filter (fun p => !refused p) })
    else (t, s)
  if s.ctx.delegates t then
    let h := s.ctx.handFor t
    if s.entryBusy then s.entryWaits t
    else if !s.entryServed h then
      (s.noteMiss s.ctx.job.asid (if s.pageServed h.frame then frameOf h.pc else h.frame) false).entryWaits t
    else (s.traceRec 3 (if t.xhalf then s.ctx.xpc else s.ctx.pc) t.word).enterHandler t
  else s.toControlCore t

/-- The four ways a slot of a bundle ends that are not its effect. -/
def State.aFault (s : State) (slot : Nat) (c : Cause) (detail : Word) : State := s.raise (aTrap slot c detail)
def State.xFault (s : State) (slot : Nat) (c : Cause) (detail : Word) : State := s.raise (xTrap slot c detail)

/-! ### Returning from a trap (R373) -/

/-- The special registers of an A-side snapshot that a handler wrote, put into a captured snapshot (R373). -/
def patchSr (now : ARegs) (snap : ARegs) (r : SR) : ARegs :=
  let put (m n : Store Word) (i : BitVec 2) : Store Word := n.set 0 i.toNat (m.get 0 i.toNat)
  match r with
  | .psel => { snap with psel := now.psel }
  | .rseed => { snap with rseed := now.rseed }
  | .upk => { snap with upk := now.upk }
  | .sfault => { snap with sfault := now.sfault }
  | .cpcause => { snap with cpcause := now.cpcause }
  | .lc i => { snap with lc := snap.lc.set 0 i.toNat (now.lc.get 0 i.toNat) }
  | .csh i => { snap with csh := put now.csh snap.csh i }
  | .cshs i => { snap with cshs := put now.cshs snap.cshs i }
  | .msh i => { snap with msh := put now.msh snap.msh i }
  | .mshs i => { snap with mshs := put now.mshs snap.mshs i }
  | .ssh i => { snap with ssh := put now.ssh snap.ssh i }
  | .sshs i => { snap with sshs := put now.sshs snap.sshs i }
  | _ => snap

/-- a60 to a63 read back from the frame; a load still outstanding into one of them no longer writes it (R36). -/
def State.restoreA (s : State) (pa : Nat) (un : Bool) : State :=
  (List.range 4).foldl (fun (s : State) i =>
    let (bs, p, s1) := s.physRead (pa + 0x28 + 8 * i) 8 0 s.ctx.job.ten un
    let d : AReg := BitVec.ofNat 6 (60 + i)
    { s1.modRegs (fun r => r.wa d (BitVec.ofNat 64 (bytesNat bs)) p) with reqs := dropPending s1.cur d s1.reqs }) s

/-- Shape registers of a class, or their shadows, as special registers. -/
def shapeSRs (c : ShapeClass) (shadow : Bool) : List SR :=
  ([0, 1, 2, 3] : List (BitVec 2)).map (fun i => match c, shadow with
    | .csh, false => .csh i
    | .csh, true => .cshs i
    | .msh, false => .msh i
    | .msh, true => .mshs i
    | .ssh, false => .ssh i
    | .ssh, true => .sshs i)
/-- Special registers that the handler writes (R373). -/
def Ctx.noteWrote (c : Ctx) (l : List SR) : Ctx := { c with hwrote := if c.active then l ++ c.hwrote else c.hwrote }

/-- A lag entry as the handler leaves it: its snapshot holds what the handler wrote, and a fetch whose matrix shapes that
changes reads its units again (R253, R373). -/
def LagEntry.patched (e : LagEntry) (c : Ctx) (a : Aside) : LagEntry :=
  let snap := c.hwrote.foldl (patchSr c.regs) e.snap
  { e with snap := snap, hand := if c.hand = a.hand then e.hand else c.hand
           fetch := if snap.msh = e.snap.msh ∧ snap.mshs = e.snap.mshs then e.fetch
             else e.fetch.map (fun f => { f with units := [], held := [] }) }
/-- L2 lines that such fetches no longer hold. -/
def State.letGo (s : State) (a : Aside) : State :=
  s.l2Unpin ((a.lag.map (fun e => match e.fetch, (e.patched s.ctx a).fetch with
    | some f, some g => if g.held = f.held then [] else f.held
    | _, _ => [])).flatten)
/-- The handler has written an accumulator of which a write was set aside: the handler's came later (R259). -/
def Ctx.wroteZ (c : Ctx) (z : BitVec 1) : Bool :=
  c.zhist.any (fun h => h.z == z && h.due != heldForever) || !c.zhist.any (fun h => h.z == z)

/-- Restores what the trap set aside (R369, R373): positions, lag record, shelf and latches. What the handler reserved
in a queue stands before every resumed bundle; the handler's own accumulator writes are visible (log entry 83). -/
def State.resumeAside (s : State) (a : Aside) : State :=
  let s := (s.letGo a).putLatches a.latches
  s.modCtx (fun c => { c with
    lag := a.lag.map (fun e => e.patched c a)
    flight := a.flight, zhist := a.zhist.filter (fun h => !c.wroteZ h.z), an := a.an, xn := a.xn
    queues := c.queues.map (fun q => (q.1, q.2.map (fun e => if a.an ≤ e.bun then { e with bun := a.xn - 1 } else e)))
    xpend := if c.hwrote.contains .qctl then a.xpend.filter (fun w => match w.2 with | .qctl _ => false | .rcnt0 => true)
      else a.xpend
    pc := a.apc, npc := a.apc, active := false, aside := none, hwrote := [] })

/-- Entries that nothing will fill any more, under ERET with GO = 1 (R373). -/
def orphan (lag : List LagEntry) (flight : List Flight) (e : QEntry) : Bool :=
  e.val.isNone && (match e.src with
    | .zrd => lag.any (fun l => l.zrd.contains e.tick)
    | .slot => flight.any (fun f => match f.dst with | .queue _ t => t == e.tick | _ => false)
    | _ => false)

/-- Discards what the trap set aside: both halves go on at `target` (R373). Writes the discarded X-halves'
own A-halves made to registers of the X side have been made. Accumulator writes set aside stay made, and are visible at
once (DESIGN CHOICE: R261 and R373 do not say what the discarded shelf makes of them; log entry 83). -/
def State.dropAside (s : State) (a : Aside) (target : Word) : State :=
  let s := s.dropFetches a.lag
  s.modCtx (fun c =>
    let c := a.xpend.foldl (fun c w => match w.2 with
      | .qctl v => if c.hwrote.contains .qctl then c else { c with qctl := v }
      | .rcnt0 => { c with rcnt := 0 }) c
    { c with
      queues := (c.queues.map (fun q => (q.1, q.2.filter (fun e => !orphan a.lag a.flight e)))).filter
        (fun q => q.2 != [])
      an := c.xn, zhist := [], pc := target, npc := target, active := false, aside := none, hwrote := [] })

end Sys2Proof.Machine
end

