-- ==== Sys2Proof/Machine/Comparator.lean ====
section
/-! DEFINITION. Replay of a partition in its twin: the comparator at the memory controllers (R385, R404). -/

namespace Sys2Proof.Machine

def regTWIN : Nat := 0x30048
def regCMPST : Nat := 0x30050
def regCMPREC (side : Nat) : Nat := 0x30100 + 128 * side

/-- TWIN: enabled, the primary and the twin. -/
def State.twinOn (s : State) : Bool := (s.barAt 0 regTWIN).getLsbD 6
def State.primary (s : State) : BitVec 3 := BitVec.ofNat 3 (ufield (s.barAt 0 regTWIN) 0 3)
def State.twinPart (s : State) : BitVec 3 := BitVec.ofNat 3 (ufield (s.barAt 0 regTWIN) 3 3)

/-- One key: the launch, the task, the instruction and the unit. -/
def sameKey (a b : KeyedWrite) : Bool := a.jcb == b.jcb && a.task == b.task && a.seq == b.seq && a.unit == b.unit
/-- What is compared under a key: address, bytes and byte mask. -/
def sameWrite (a b : KeyedWrite) : Bool := a.pa == b.pa && a.mask == b.mask && a.bytes == b.bytes

/-- CMPREC of one side: the write it made under the key, or none. -/
def State.putCmprec (s : State) (side : Nat) (key : KeyedWrite) (w : Option KeyedWrite) : State :=
  let put (s : State) (o : Nat) (v : Word) : State := s.setBar 0 (regCMPREC side + o) v
  let head := (put (put s 0 key.jcb) 8 (key.task.setWidth 64 + key.seq.setWidth 64 * 2 ^ 32)).setBar 0 (regCMPREC side + 16)
    (key.unit.setWidth 64 + (if w.isSome then 65536 else 0))
  let x := w.getD ⟨0, 0, 0, 0, 0, 0, 0⟩
  let body := put (put head 24 (BitVec.ofNat 52 x.pa |>.setWidth 64)) 32 x.mask
  (List.range 8).foldl (fun s i => put s (64 + 8 * i) (BitVec.ofNat 64 (x.bytes.toNat / 2 ^ (64 * i)))) body

/-- Jobs of a partition that are not done. -/
def State.jobsOf (s : State) (part : BitVec 3) : List Word :=
  (s.launches.filter (fun l => l.part == part && !l.done)).map (·.jd)

/-- The comparator stop: both partitions' jobs are stopped as a heavy save stops them, and resume only by RESUME
records. -/
def State.comparatorStop (s : State) (kind : Nat) (key : KeyedWrite) (a b : Option KeyedWrite) : State :=
  let st := s.barAt 0 regCMPST
  if st.getLsbD 0 then s
  else
    let s1 := (s.putCmprec 0 key a).putCmprec 1 key b
    let s2 := s1.setBar 0 regCMPST ((st &&& 0xC) ||| (if kind = 1 then 3 else 1))
    let jobs := (s.jobsOf s.primary ++ s.jobsOf s.twinPart).filter (fun j => !s.preempted.contains j)
    let s3 : State := ({ s2 with preempted := s2.preempted ++ jobs }.signal s.primary.toNat 3).signal s.twinPart.toNat 3
    s3.snapCause 3

/-- Bits 2 and 3 of CMPST: a side whose unmatched keys have reached 65,536 waits. -/
def State.noteWaits (s : State) : State :=
  let full (twin : Bool) : Bool := decide (65536 ≤ s.cmpKeys.countP (fun k => k.twin == twin))
  s.setBar 0 regCMPST ((s.barAt 0 regCMPST &&& 3) ||| (if full false then 4 else 0) ||| (if full true then 8 else 0))

/-- COMPARATOR_CHECK: one keyed write of a side is matched, kept unmatched, or stops both sides. -/
def State.compare (s : State) (twin : Bool) (w : KeyedWrite) : State :=
  if !s.twinOn then s
  else match s.cmpKeys.find? (fun k => k.twin != twin && sameKey k.w w) with
    | some k =>
      let s1 : State := { s with cmpKeys := s.cmpKeys.filter (fun x => x != k) }
      (if sameWrite k.w w then s1
       else if twin then s1.comparatorStop 0 w (some k.w) (some w) else s1.comparatorStop 0 w (some w) (some k.w)).noteWaits
    | none =>
      if 65536 ≤ s.cmpKeys.countP (fun k => k.twin == twin) then s
      else
        let s1 : State := { s with cmpKeys := s.cmpKeys ++ [⟨twin, w⟩] }
        s1.noteWaits
def execComparatorCheck (twin : Bool) (w : KeyedWrite) (s : State) : Out := .next (s.compare twin w)

/-- The writes of this partition's tasks wait: its unmatched keys have reached 65,536. -/
def State.cmpHeld (s : State) : Bool :=
  s.twinOn && ((s.part == s.primary && (s.barAt 0 regCMPST).getLsbD 2) || (s.part == s.twinPart && (s.barAt 0 regCMPST).getLsbD 3))

/-- The key of a write: the context whose task makes it, its instruction's sequence number, and the 64-byte unit in that. -/
structure WriteKey where
  ctx : BitVec 2
  seq : Nat
  unit : Nat
  deriving DecidableEq, Repr

/-- The comparator sees a write of `n` bytes that a task of this core makes to global memory (log entry 27). -/
def State.feed (s : State) (k : WriteKey) (pa n : Nat) (v : Vec) : State :=
  if !s.twinOn then s
  else match (s.ctxAt k.ctx).task with
    | none => s
    | some t =>
      if !(t.part == s.primary || t.part == s.twinPart) then s
      else s.compare (t.part == s.twinPart)
        { jcb := t.ljcb, task := BitVec.ofNat 32 (t.x + 65536 * t.y), seq := BitVec.ofNat 32 k.seq, unit := BitVec.ofNat 16 k.unit
          pa := pa / 64 * 64, mask := BitVec.ofNat 64 ((2 ^ n - 1) * 2 ^ (pa % 64))
          bytes := BitVec.ofNat 512 (v.toNat % 2 ^ (8 * n) * 2 ^ (8 * (pa % 64))) }
/-- The same where the access has a key: staging and the other writes that R404 does not name have none. -/
def State.feedBy (s : State) (k : Option WriteKey) (pa n : Nat) (v : Vec) : State :=
  match k with
  | some k => s.feed k pa n v
  | none => s

/-- A task has retired on one side: a key of it that the other side left unmatched stops both. -/
def State.compareRetire (s : State) (part : BitVec 3) (jcb : Word) (x y : Nat) : State :=
  if !s.twinOn ∨ !(part == s.primary || part == s.twinPart) then s
  else
    let twin := part == s.twinPart
    match s.cmpKeys.find? (fun k => k.twin != twin && k.w.jcb == jcb && k.w.task == BitVec.ofNat 32 (x + 65536 * y)) with
    | none => s
    | some k => if twin then s.comparatorStop 1 k.w (some k.w) none else s.comparatorStop 1 k.w none (some k.w)

end Sys2Proof.Machine
end

