-- ==== Sys2Proof/Machine/Rational.lean ====
section
/-! DEFINITION. Exact rational words: digits, residues, inverses and the bounded decode (R207, R217,
R268 to R279). -/

namespace Sys2Proof.Machine

/-- The prime a selector names; 12 to 15 are reserved and never stored: MTSR raises BADSR (R206, R207), and a write of the
debug window leaves PSEL as it is (DESIGN CHOICE, log entry 57). -/
def primeOf (sel : Nat) : Nat :=
  match sel with
  | 0 => 65521 | 1 => 65519 | 2 => 65497 | 3 => 65479 | 4 => 65449 | 5 => 65447 | 6 => 65437 | 7 => 65423
  | 8 => 5 | 9 => 7 | 10 => 31 | _ => 37

/-- The non-value under every prime (R217). -/
def qNV : Word := 0xFFFFFFFFFFFFFFFF

/-- digit(w, i) (R268). -/
def qdigit (w : Word) (i : Nat) : Nat := w.toNat / 2 ^ (16 * i) % 2 ^ 16

/-- nonvalue(w) (R268). -/
def nonvalue (p : Nat) (w : Word) : Bool :=
  decide (p ≤ qdigit w 0) || decide (p ≤ qdigit w 1) || decide (p ≤ qdigit w 2) || decide (p ≤ qdigit w 3)

/-- val(w) (R268). -/
def qval (p : Nat) (w : Word) : Nat :=
  qdigit w 0 + qdigit w 1 * p + qdigit w 2 * p ^ 2 + qdigit w 3 * p ^ 3

/-- word(x) (R268). -/
def qword (p : Nat) (x : Int) : Word :=
  let r := (x.emod ((p ^ 4 : Nat) : Int)).toNat
  BitVec.ofNat 64 (r % p + r / p % p * 2 ^ 16 + r / p ^ 2 % p * 2 ^ 32 + r / p ^ 3 % p * 2 ^ 48)

/-- The extended Euclid loop: returns the coefficient of the last non-zero remainder. -/
def invLoop : Nat → Int → Int → Int → Int → Int
  | 0, _, _, _, s1 => s1
  | fuel + 1, r0, r1, s0, s1 =>
    if r1 = 0 then s0 else invLoop fuel r1 (r0 - r0 / r1 * r1) s1 (s0 - r0 / r1 * s1)

/-- inv(x) modulo M = p^4, for x that p does not divide (R268). -/
def qinvMod (p : Nat) (x : Nat) : Nat :=
  let M : Int := (p ^ 4 : Nat)
  ((invLoop 200 M ((x : Int).emod M) 0 1).emod M).toNat

/-- QADD and QSUB of words (R272). -/
def qaddWord (p : Nat) (a b : Word) : Word :=
  if nonvalue p a || nonvalue p b then qNV else qword p ((qval p a : Int) + qval p b)
def qsubWord (p : Nat) (a b : Word) : Word :=
  if nonvalue p a || nonvalue p b then qNV else qword p ((qval p a : Int) - qval p b)
/-- QNEG (R272). -/
def qnegWord (p : Nat) (a : Word) : Word :=
  if nonvalue p a then qNV else qword p (-(qval p a : Int))
/-- QMUL (R273). -/
def qmulWord (p : Nat) (a b : Word) : Word :=
  if nonvalue p a || nonvalue p b then qNV else qword p ((qval p a : Int) * qval p b)

/-- A rational result, and whether its divisor was non-invertible (R274). -/
def qdivWord (p : Nat) (a b : Word) : Word × Bool :=
  if nonvalue p a || nonvalue p b then (qNV, false)
  else if qdigit b 0 = 0 then (qNV, true)
  else (qword p ((qval p a : Int) * qinvMod p (qval p b)), false)

/-- QENC of n/d (R275). -/
def qencInt (p : Nat) (n d : Int) : Word × Bool :=
  if d.emod (p : Int) = 0 then (qNV, true)
  else (qword p (n * qinvMod p (d.emod ((p ^ 4 : Nat) : Int)).toNat), false)

/-- The word of ± m · 2^e (R275). -/
def qencDyadic (p : Nat) (n : Bool) (m : Nat) (e : Int) : Word :=
  if 0 ≤ e then qword p (signedDyadic n m * (2 ^ e.toNat : Nat))
  else qword p (signedDyadic n m * qinvMod p (2 ^ (-e).toNat % p ^ 4))

/-- QENC of a floating-point value: infinity and NaN give NV (R275, R123). -/
def qencFloat (p : Nat) (x : FVal) : Word :=
  match x with
  | .fin n m e => qencDyadic p n m e
  | _ => qNV

/-- The bounded extended-Euclid step of decode (R278). -/
def decodeLoop (N : Int) : Nat → Int → Int → Int → Int → Int × Int
  | 0, _, r1, _, s1 => (r1, s1)
  | fuel + 1, r0, r1, s0, s1 =>
    if N < r1 then decodeLoop N fuel r1 (r0 - r0 / r1 * r1) s1 (s0 - r0 / r1 * s1) else (r1, s1)

/-- The bound N = floor(sqrt((M − 1) / 2)) (R278). -/
def qbound (p : Nat) : Nat := isqrt ((p ^ 4 - 1) / 2)

/-- decode(w): numerator and denominator in lowest terms, or failure (R278). -/
def qdecode (p : Nat) (w : Word) : Option (Int × Nat) :=
  if nonvalue p w then none
  else
    let N : Int := qbound p
    let (r1, s1) := decodeLoop N 200 ((p ^ 4 : Nat) : Int) (qval p w) 0 1
    if N < s1.natAbs || s1.emod (p : Int) == 0 then none
    else
      let g := Nat.gcd r1.natAbs s1.natAbs
      some ((if s1 < 0 then -(r1 / (g : Int)) else r1 / (g : Int)), s1.natAbs / g)

/-- n/d as an exact value. -/
def ratX (n : Int) (d : Nat) : XVal :=
  if n = 0 then .zero false else .mag (decide (n < 0)) (.rat n.natAbs d)

end Sys2Proof.Machine
end

