-- ==== Sys2Proof/Machine/Operands.lean ====
section
/-! DEFINITION. Operand forms: effective addresses and the a-registers a slot reads; the sources, guards and
destinations of cluster slots (R26, R30, R42, R190 to R192, R224). -/

namespace Sys2Proof.Machine

/-! ### Memory-slot addresses (R26) -/

def scaleOf (sc : BitVec 2) : Word := match sc.toNat with | 0 => 1 | 1 => 4 | 2 => 16 | _ => 64
/-- a[BASE] + a[IDX] × scale + OFF20. -/
def ARegs.addr (r : ARegs) (a : GAddr) : Word := r.ra a.base + r.ra a.idx * scaleOf a.sc + a.off.signExtend 64
/-- a[BASE] + OFF20, for CAS and LDQX (R104, R189). -/
def ARegs.addrNoIdx (r : ARegs) (a : GAddr) : Word := r.ra a.base + a.off.signExtend 64

/-! ### Queue heads -/

/-- Whether something a half reads is there, must be waited for, or traps. -/
inductive Ready where
  | ok
  | wait (w : WaitFor)
  | trap (c : Cause) (detail : Word)
  deriving DecidableEq, Repr

/-- The head of an input queue as an X-half pop or peek of the bundle being issued meets it (R191, R192). -/
def State.xHead (s : State) (id : Nat) : Ready :=
  let none' : Ready := match (s.streamAt s.cur id).filter (fun t => decide (t.bun < s.ctx.xn)) with
    | some t => match t.stop with
      | some (e, _) => if t.next < e then .wait .queue else .trap .streamFault (BitVec.ofNat 64 e)
      | none => if t.next < t.n0 * t.n1 then .wait .queue else .trap .qEmpty 0
    | none => .trap .qEmpty 0
  match s.queue id with
  | [] => none'
  | e :: _ => if s.ctx.xn ≤ e.bun then .trap .qEmpty 0 else if e.val.isSome then .ok else .wait .queue

/-- The head of bq, sq or an output queue as an A-half pop meets it (R191, R192). -/
def State.aHead (s : State) (id : Nat) : Ready :=
  match s.queue id with
  | ⟨_, _, _, some _, _⟩ :: _ => .ok
  | _ => if s.ctx.lag.isEmpty then .trap .qEmpty 0 else .wait .queue

/-- Room for an A-half reservation (R191, R192). -/
def State.aRoom (s : State) (id : Nat) : Ready :=
  if (s.queue id).length < 8 then .ok else if s.ctx.lag.isEmpty then .trap .qFull 0 else .wait .queue

/-- Lanes of the new value where the guard is 1, of the old elsewhere. -/
def merge (g : BitVec 16) (new old : Vec) : Vec := mkVec (fun l => if g.getLsbD l then lane new l else lane old l)
/-- Predicate bits: the lane is not zero. -/
def maskBits (v : Vec) : BitVec 16 :=
  BitVec.ofNat 16 ((List.range 16).foldl (fun n l => if lane v l ≠ 0 then n + 2 ^ l else n) 0)

/-- The content of a queue entry that a V slot fills (R190). -/
def queueValue (id : Nat) (g : BitVec 16) (v : Vec) : Vec :=
  let z := merge g v 0
  if id = qIdBq then (if z = 0 then 0 else 1)
  else if id = qIdSq then BitVec.ofNat 512 (z.toNat % 2 ^ 64)
  else z

/-- The content of an entry of a queue, with its poison: what has filled it, or a result that is due at the bundle where the
X-half stands (R37, R190). -/
def Ctx.content (c : Ctx) (id : Nat) (e : QEntry) : Option (Vec × Bool) :=
  match e.val with
  | some v => some (v, e.poison)
  | none =>
    if c.lag.isEmpty then none
    else (c.flight.find? (fun f => f.dst == .queue id e.tick && decide (f.due ≤ c.xn))).map
      (fun f => (queueValue id f.guard f.val, f.poison))

/-- A bound output stream will drain the head of its queue. -/
def State.drains (s : State) (id : Nat) : Bool :=
  (s.streamAt s.cur id).any (fun t => t.stop.isNone && decide (t.next < t.n0 * t.n1)) &&
  (s.queue id).head?.any (·.val.isSome)
/-- Room for an X-half reservation, and the end of a bound output stream (R191, R192, R196). A queue that its stream
drains is waited for, so that no timing decides. -/
def State.xRoom (s : State) (id : Nat) : Ready :=
  let ended := match s.streamAt s.cur id with
    | some t => decide (t.bun < s.ctx.xn ∧ t.n0 * t.n1 ≤ t.pushed)
    | none => false
  if ended then .trap .streamEnd 0
  else if (s.queue id).length < 8 then .ok
  else if decide (s.ctx.xn + 16 ≤ s.ctx.an) && !s.drains id then .trap .qFull 0 else .wait .queue

/-- The first that is not ready. -/
def Ready.all : List Ready → Ready
  | [] => .ok
  | .ok :: r => Ready.all r
  | x :: _ => x

/-! ### Cluster-slot sources (R30, R224) -/

/-- How an operand's immediates and scalars are read. -/
inductive OpTy where
  /-- 32-bit patterns. -/
  | int
  /-- FP32 lanes. -/
  | fp
  /-- `.q64` words. -/
  | word
  deriving DecidableEq, Repr

/-- The same lane everywhere. -/
def splat (x : Lane) : Vec := mkVec (fun _ => x)
/-- The same 64-bit word in every lane pair. -/
def splat64 (w : Word) : Vec := mkVec (fun l => if l % 2 = 0 then w.setWidth 32 else (w >>> 32).setWidth 32)
/-- Word i of a vector (R218). -/
def word64 (v : Vec) (i : Nat) : Word := BitVec.ofNat 64 (v.toNat >>> (64 * i))
/-- A vector from its words. -/
def mkWords (f : Nat → Word) : Vec :=
  mkVec (fun l => if l % 2 = 0 then (f (l / 2)).setWidth 32 else (f (l / 2) >>> 32).setWidth 32)

/-- The prime in force for the X-half (R269). -/
def State.xPrime (s : State) : Nat := primeOf (ufield s.xrd.psel 0 4)

def immVec (ty : OpTy) (p : Nat) (i : BitVec 8) : Vec :=
  match ty with
  | .int => splat (i.signExtend 32)
  | .fp => splat (toF32 Prefix.default 0 (XVal.ofInt i.toInt))
  | .word => splat64 (qword p i.toInt)

def unitNo : VUnit → Nat
  | .ia => 0 | .fm => 1 | .sf => 2 | .xm => 3

def vKey (cl : BitVec 3) (phys : Nat) : Nat := 640 * cl.toNat + phys
def latchKey (cl : BitVec 3) (u : VUnit) (t : Nat) : Nat := 16 * cl.toNat + 4 * unitNo u + t
/-- Poison of latches is kept above that of the vector registers. -/
def latchPoisonKey (cl : BitVec 3) (u : VUnit) (t : Nat) : Nat := 5120 + latchKey cl u t

/-- The value of a source (R30). -/
def State.src (s : State) (cl : BitVec 3) (ty : OpTy) : VSrc → Vec
  | .reg n => s.v.get 0 (vKey cl (s.ctx.vbase + n.toNat))
  | .latch u t => s.latch.get 0 (latchKey cl u t.toNat)
  | .queue _ q => ((s.queue (qIdIn cl q)).head?.bind (·.val)).getD 0
  | .scalar a => match ty with
    | .word => splat64 (s.xrd.ra a)
    | _ => splat ((s.xrd.ra a).setWidth 32)
  | .imm i => immVec ty s.xPrime i

/-- A register name beyond the vector window (R201). -/
def State.outside (s : State) : VSrc → Bool
  | .reg n => decide (s.ctx.vcnt ≤ n.toNat)
  | _ => false
def State.dstOutside (s : State) : VDst → Bool
  | .reg n => decide (s.ctx.vcnt ≤ n.toNat)
  | _ => false

/-- A source that consumes poison (R380). -/
def State.srcPoison (s : State) (cl : BitVec 3) : VSrc → Bool
  | .reg n => s.vPoison.get false (vKey cl (s.ctx.vbase + n.toNat))
  | .latch u t => s.vPoison.get false (latchPoisonKey cl u t.toNat)
  | .queue _ q => ((s.queue (qIdIn cl q)).head?.map (·.poison)).getD false
  | .scalar a => s.xrd.aPoison.get false a.toNat
  | .imm _ => false

/-- The readiness of a source's queue. -/
def State.srcReady (s : State) (cl : BitVec 3) : VSrc → Ready
  | .queue _ q => s.xHead (qIdIn cl q)
  | _ => .ok
/-- A source that is there, and consumes poison (R201, R380). -/
def State.takesPoison (s : State) (cl : BitVec 3) (x : VSrc) : Bool :=
  !s.outside x && s.srcReady cl x == .ok && s.srcPoison cl x

/-- Keeps the first of equal numbers. -/
def firstOfEach (l : List Nat) : List Nat := l.foldl (fun acc x => if acc.contains x then acc else acc ++ [x]) []
/-- The queues that the sources of one slot pop, each once (R43). -/
def popIds (cl : BitVec 3) (l : List VSrc) : List Nat :=
  firstOfEach (l.filterMap (fun x => match x with | .queue true q => some (qIdIn cl q) | _ => none))

/-! ### Guards and destinations (R42) -/

/-- p[i] of a cluster; p0 is all true (R200). -/
def Ctx.pred (c : Ctx) (cl : BitVec 3) (i : Nat) : BitVec 16 :=
  if i = 0 then 0xFFFF else c.p.get 0 (16 * cl.toNat + i)
def State.guard (s : State) (h : VHd) : BitVec 16 := s.ctx.pred h.cl h.pr.toNat

/-- Both lanes of word i are guarded (R218, R268). -/
def active (g : BitVec 16) (i : Nat) : Bool := g.getLsbD (2 * i) && g.getLsbD (2 * i + 1)
/-- The guard of a `.q64` write: a pair whose bits differ is not written. -/
def pairGuard (g : BitVec 16) : BitVec 16 :=
  BitVec.ofNat 16 ((List.range 8).foldl (fun n i => if active g i then n + 3 * 4 ^ i else n) 0)

/-- The queue a destination names. -/
def dstQueue (h : VHd) : VDst → Option Nat
  | .reg _ => none
  | .w i => some (qIdOut h.cl i)
  | .bq => some qIdBq
  | .sq => some qIdSq

/-! ### What landing writes (R37 to R42, R190) -/

/-- A unit's latches age by one place and the result enters t0, with its poison (R41, R378). -/
def State.age (s : State) (cl : BitVec 3) (u : VUnit) (v : Vec) (poison : Bool) : State :=
  let k := latchKey cl u 0
  let get (t : Nat) : Vec := s.latch.get 0 (k + t)
  let pk := latchPoisonKey cl u 0
  let pget (t : Nat) : Bool := s.vPoison.get false (pk + t)
  { s with
    latch := (((s.latch.set 0 (k + 3) (get 2)).set 0 (k + 2) (get 1)).set 0 (k + 1) (get 0)).set 0 k v
    vPoison := (((s.vPoison.set false (pk + 3) (pget 2)).set false (pk + 2) (pget 1)).set false (pk + 1)
      (pget 0)).set false pk poison }

/-- One exposed result lands (R37 to R42), with its poison where it writes; a predicate carries none (R379). -/
def State.landOne (s : State) (f : Flight) : State :=
  let s := s.age f.cl f.unit f.val f.poison
  match f.dst with
  | .none => s
  | .reg n =>
    let k := vKey f.cl (s.ctx.vbase + n)
    { s with
      v := s.v.set 0 k (merge f.guard f.val (s.v.get 0 k))
      vPoison := if f.poison ∧ f.guard ≠ 0 then s.vPoison.set false k true
        else if f.guard = 0xFFFF then s.vPoison.set false k false else s.vPoison }
  | .pred i =>
    if i = 0 then s
    else s.modCtx (fun c => { c with
      p := c.p.set 0 (16 * f.cl.toNat + i) ((f.guard &&& maskBits f.val) ||| (~~~f.guard &&& c.pred f.cl i)) })
  | .queue id tick => s.modCtx (fun c => c.fill id tick (queueValue id f.guard f.val) f.poison)

/-- Every result due at a bundle lands, the earlier-issued first. -/
def State.landAt (s : State) (m : Nat) : State :=
  let due := s.ctx.flight.filter (fun f => decide (f.due ≤ m))
  due.foldl State.landOne (s.modCtx (fun c => { c with flight := c.flight.filter (fun f => decide (m < f.due)) }))

/-! ### Issuing a cluster slot -/

/-- What a cluster slot computes: the full unguarded result, flags it sets, and the lowest active word whose
divisor is not invertible (R271, R274). -/
structure VResult where
  val : Vec
  qni : Bool
  qro : Bool
  nonInv : Option Nat
  deriving DecidableEq, Repr

/-- A result that sets no flag. -/
def VResult.plain (v : Vec) : VResult := ⟨v, false, false, none⟩

/-- Where a cluster slot's result goes. -/
inductive SlotDst where
  | vec (d : VDst)
  | pred (d : BitVec 4)
  deriving DecidableEq, Repr

/-- Everything that can keep a slot from issuing: poison that a source inside the window or an entry that is there holds,
which outranks every trap (R366); then in the order of R270 VRANGE, and its queues. -/
def State.slotReady (s : State) (h : VHd) (d : SlotDst) (l : List VSrc) : Ready :=
  let range := l.any s.outside || (match d with
    | .vec d => !h.nw && s.dstOutside d
    | .pred _ => false)
  if l.any (s.takesPoison h.cl) then .trap .poison 0
  else if range then .trap .vRange 0
  else match Ready.all (l.map (s.srcReady h.cl)) with
    | .ok => match d with
      | .vec d => if h.nw then .ok else match dstQueue h d with
        | some id => s.xRoom id
        | none => .ok
      | .pred _ => .ok
    | x => x

/-- The slot's own trap number in the X-half (R371). -/
def vSlotNo (h : VHd) : Nat := 1 + h.cl.toNat

/-- Sets the sticky flags of QCTL (R207, R271). -/
def qctlSet (q : Word) (qni qro : Bool) : Word :=
  q ||| (if qni then 0x100 else 0) ||| (if qro then 0x200 else 0)

/-- Issues a cluster slot: its pops, its reservation, its flags and its result in flight (R37, R42, R43). -/
def State.issueV (s : State) (h : VHd) (d : SlotDst) (l : List VSrc) (u : VUnit) (lat : Nat) (g : BitVec 16)
    (r : VResult) : State :=
  let s := (popIds h.cl l).foldl (fun s id => s.modCtx (fun c => c.pop id)) s
  let s := s.modCtx (fun c => { c with qctl := qctlSet c.qctl r.qni r.qro })
  let tick := s.fresh
  let (dst, s) : FDst × State := if h.nw then (.none, s) else match d with
    | .pred i => (.pred i.toNat, s)
    | .vec (.reg n) => (.reg n.toNat, s)
    | .vec d => match dstQueue h d with
      | some id =>
        let s : State := { s with streams := s.streams.map (fun (t : Stream) =>
          if t.ctx = s.cur ∧ 6 * t.cl.toNat + t.q = id then { t with pushed := t.pushed + 1 } else t) }
        (.queue id tick, s.reserve id .slot s.ctx.xn)
      | none => (.none, s)
  s.bump.modCtx (fun c => { c with
    flight := c.flight ++ [⟨c.xn + lat, s.fresh, u, h.cl, dst, g, r.val, false⟩] })

/-- Records the first STREAMFAULT of the context (R197). -/
def State.noteStream (s : State) (t : Stream) : State :=
  match t.stop with
  | some (e, c) => s.modRegs (fun r => if r.sfault = 0 then
      { r with sfault := BitVec.ofNat 64 (t.cl.toNat + 8 * t.q + 64 * (e % 2 ^ 24) + 2 ^ 32 * c.code) } else r)
  | none => s
/-- The stopped stream that a slot's sources reach: the one bound first, where two are reached (DESIGN CHOICE: R197 does
not say which SFAULT records; log entry 78). -/
def State.stoppedStream (s : State) (cl : BitVec 3) (l : List VSrc) : Option Stream :=
  s.streams.find? (fun t => t.ctx == s.cur && t.stop.isSome && l.any (fun x => match x with
    | .queue _ q => 6 * t.cl.toNat + t.q == qIdIn cl q && (match s.xHead (qIdIn cl q) with | .trap _ _ => true | _ => false)
    | _ => false))

/-- A cluster slot: waits, traps, or issues (R224, R238, R270). -/
def State.vslot (s : State) (h : VHd) (d : SlotDst) (l : List VSrc) (u : VUnit) (lat : Nat) (g : BitVec 16)
    (r : VResult) : State :=
  match s.slotReady h d l with
  | .trap c detail =>
    let s := if c = .streamFault then (match s.stoppedStream h.cl l with | some t => s.noteStream t | none => s) else s
    s.xFault (vSlotNo h) c detail
  | .wait w => s.wait w
  | .ok => match r.nonInv with
    | some i => s.xFault (vSlotNo h) .nonInv (BitVec.ofNat 64 i)
    | none => s.issueV h d l u lat g r

/-- The draw for rounding number `k` of the bundle (R223). -/
def State.draw (s : State) (k : Nat) : Nat := drawOf s.xrd.rseed (8192 * s.ctx.rcnt.toNat + k)
/-- The draw of lane `l` of a cluster slot (R223). -/
def State.laneDraw (s : State) (h : VHd) (l : Nat) : Nat := s.draw (16 * h.cl.toNat + l)

/-- One source, lane by lane. -/
def State.lane1 (s : State) (u : VUnit) (lat : Nat) (ty : OpTy) (o : V1) (f : Nat → Lane → Lane) : State :=
  let a := s.src o.h.cl ty o.a
  s.vslot o.h (.vec o.d) [o.a] u lat (s.guard o.h) (.plain (mkVec (fun l => f l (lane a l))))
/-- Two sources, lane by lane. -/
def State.lane2 (s : State) (u : VUnit) (lat : Nat) (ty : OpTy) (o : V2) (f : Nat → Lane → Lane → Lane) : State :=
  let a := s.src o.h.cl ty o.a
  let b := s.src o.h.cl ty o.b
  s.vslot o.h (.vec o.d) [o.a, o.b] u lat (s.guard o.h) (.plain (mkVec (fun l => f l (lane a l) (lane b l))))
/-- Three sources, lane by lane. -/
def State.lane3 (s : State) (u : VUnit) (lat : Nat) (ty : OpTy) (o : V3) (f : Nat → Lane → Lane → Lane → Lane) : State :=
  let a := s.src o.h.cl ty o.a
  let b := s.src o.h.cl ty o.b
  let c := s.src o.h.cl ty o.c
  s.vslot o.h (.vec o.d) [o.a, o.b, o.c] u lat (s.guard o.h)
    (.plain (mkVec (fun l => f l (lane a l) (lane b l) (lane c l))))

/-! ### The a-registers a slot reads (R34, R36) -/

end Sys2Proof.Machine

namespace Sys2Proof

def VSrc.areads : VSrc → List AReg
  | .scalar a => [a]
  | _ => []
def GAddr.areads (a : GAddr) : List AReg := [a.base, a.idx]
def MxSrc.areads : MxSrc → List AReg
  | .seg _ => []
  | .glob a _ _ => [a]
  | .tile a => [a]
def AtomArg.areads : AtomArg → List AReg
  | .scalar a => [a]
  | .vector _ => []

def V1.areads (o : V1) : List AReg := VSrc.areads o.a
def V2.areads (o : V2) : List AReg := VSrc.areads o.a ++ VSrc.areads o.b
def V3.areads (o : V3) : List AReg := VSrc.areads o.a ++ VSrc.areads o.b ++ VSrc.areads o.c

end Sys2Proof

namespace Sys2Proof.Machine

/-- The a-registers an instruction of a slot reads, those its X-half slot captures included. -/
def areads : Instr → List AReg
  | .jmpr _ _ a _ | .ret _ _ a | .loop _ a _ | .trapSet a _ _ | .bara _ a _ | .barw _ a _ | .grow a => [a]
  | .jtab a i _ _ => [a, i]
  | .add o | .sub o | .and o | .or o | .xor o | .shl o | .shr o | .sra o | .mul o | .mulh o | .mulhw o
  | .min o | .max o | .wmin o | .wmax o | .lea o _ _ | .selk o _ | .bfi o _ _ => [o.a, o.b]
  | .addi o | .andi o | .ori o | .xori o | .lih o => [o.a]
  | .shli o | .shri o | .srai o => [o.a]
  | .bfx o _ _ | .clz o | .ctz o | .popc o => [o.a]
  | .cmpeq o | .cmplt o | .cmpltw o => [o.a, o.b]
  | .cmpeqi o | .cmplti o => [o.a]
  | .mtsr _ _ a | .setg _ _ a => [a]
  | .lda _ _ m | .ldq _ m | .ldqx _ m | .stq _ m | .clrd _ m | .cmstStage _ m => m.a.areads
  | .ldaLocal _ _ m | .ldqLocal _ m | .ldqxLocal _ m | .stqLocal _ m => m.a.areads
  | .sta _ d m => d :: m.a.areads
  | .staLocal _ d m => d :: m.a.areads
  | .atomAdd x m | .atomMin x m | .atomMax x m | .atomWmin x m | .atomWmax x m | .atomAnd x m | .atomOr x m
  | .atomXor x m | .atomSwap x m | .atomCas x m | .atomFadd x m | .atomQadd x m => x.areads ++ m.a.areads
  | .atomLocal _ x m => x.areads ++ m.a.areads
  | .sbind _ _ b _ => [b]
  | .segnew _ _ b _ _ => [b]
  | .segclr _ a b _ => [a, b]
  | .shld _ a _ | .shst _ a _ => a.areads
  | .cpss _ _ a b c _ | .cpsp _ _ _ a b c _ | .cpgs _ _ a b c _ | .cpsg _ _ a b c _ | .cpts _ _ a b c _
  | .cpst _ _ a b c _ | .cpfill _ a b c _ => [a, b, c]
  | .cpwarm _ a b _ => [a, b]
  | .xpin _ _ a b c => [a, b, c]
  | .xmit _ a => [a]
  | .xsel _ a _ => [a]
  | .cgjoin _ a b _ => [a, b]
  | .cgred _ _ _ _ a b c _ _ _ => [a, b, c]
  | .cgbc _ _ _ a b c _ _ _ => [a, b, c]
  | .enq a b c _ => [a, b, c]
  | .mld _ src bo _ => bo :: src.areads
  | .mma _ _ _ src bo _ ss => bo :: ss :: src.areads
  | .zrd _ _ bo => [bo]
  | .zst _ _ src bo _ => bo :: src.areads
  | .iadd o | .isub o | .imin o | .imax o | .vWmin o | .vWmax o | .vAnd o | .vOr o | .vXor o | .andn o
  | .vShl o | .vShr o | .vSra o | .rol o | .iadds o | .isubs o | .wadds o | .wsubs o | .imul o | .imulh o
  | .wmulh o | .vBfx o | .lperm o | .lbc o | .lrot o | .qntE2m1b o | .dqntE2m1b o _ | .fadd o | .fsub o | .fmul o
  | .fdiv o | .fmin o | .fmax o | .fcps o | .qenc _ o | .qadd o | .qsub o | .qmul o | .qdiv o | .qsetd o _ => o.areads
  | .iabs o | .vPopc o | .vClz o | .mov o | .cvt _ o | .cvtWiden _ o _ | .fsqrt o | .fabs o | .fneg o | .fclass o
  | .vred _ o | .frcp o | .frsq o | .fexp2 o | .flog2 o | .fsin o | .fcos o | .ftanh o | .fsigm o
  | .specialFunction16 _ _ o | .qneg o | .qinv o | .qdig o _ | .qdec _ o | .qcvt o => o.areads
  | .vdot4 _ o | .sel o | .vBfi o | .ffma o | .ffms o | .fnma o => o.areads
  | .laneCompare _ _ _ a b | .qcmpeq _ _ a b => VSrc.areads a ++ VSrc.areads b
  | .cvtNarrow _ _ _ a c _ => VSrc.areads a ++ VSrc.areads c
  | _ => []

end Sys2Proof.Machine
end

