-- ==== Sys2Proof/Machine/Flags.lean ====
section
/-! DEFINITION. Flag and predicate computations: scalar compares, lane masks, predicate counts, uniformity
(R16, R233 to R235, R287, R295), and counts of bits. -/

namespace Sys2Proof.Machine

/-- Limits of the 32-bit types (R213). -/
def i32Min : Int := -2147483648
def i32Max : Int := 2147483647
def w32Max : Int := 4294967295

/-- SAT of the bundle in the X-half (R22). -/
def State.xsat (s : State) : Sat := s.ctx.xpfx.sat

/-- A compare's lane result (R41). -/
def maskLane (t : Bool) : Lane := if t then 0xFFFFFFFF else 0

/-- Number of 1 bits among the low `n`. -/
def popCount : Nat → Nat → Nat
  | 0, _ => 0
  | n + 1, v => v % 2 + popCount n (v / 2)
/-- Leading zeros of an `n`-bit value. -/
def leadingZeros (n v : Nat) : Nat := if v = 0 then n else n - 1 - v.log2
/-- Trailing zeros of an `n`-bit value. -/
def trailingZeros : Nat → Nat → Nat
  | 0, _ => 0
  | n + 1, v => if v % 2 = 1 then 0 else 1 + trailingZeros n (v / 2)

/-- A predicate of all eight clusters: bit 16c + l is lane l of cluster c (R16). -/
def Ctx.pred128 (c : Ctx) (i : Nat) : Nat :=
  (List.range 8).foldl (fun n k => n + (c.pred (BitVec.ofNat 3 k) i).toNat * 65536 ^ k) 0
/-- The number of 1 bits of a predicate over 128 lanes (R235). -/
def Ctx.predCount (c : Ctx) (i : Nat) : Nat := popCount 128 (c.pred128 i)
/-- The lowest core-wide lane whose bit differs from lane 0's (R371). -/
def firstDiffering (v : Nat) : Nat := if v % 2 = 0 then trailingZeros 128 v else trailingZeros 128 (2 ^ 128 - 1 - v)

/-- A predicate operation of one cluster (R234). -/
def State.predSlot (s : State) (h : VHd) (d : BitVec 4) (bits : BitVec 16) : State :=
  s.vslot h (.pred d) [] .ia 1 (s.guard h) (.plain (mkVec (fun l => maskLane (bits.getLsbD l))))

/-- XMV and XBC: a register or latch of another cluster (R237). -/
def XSrc.toSrc : XSrc → VSrc
  | .reg n => .reg n
  | .latch u t => .latch u t
def State.crossSlot (s : State) (h : VHd) (d : VDst) (a : XSrc) (sc : BitVec 3) (lat : Nat) (f : Vec → Vec) : State :=
  if s.takesPoison sc (XSrc.toSrc a) then s.xFault (vSlotNo h) .poison 0
  else if s.outside (XSrc.toSrc a) then s.xFault (vSlotNo h) .vRange 0
  else s.vslot h (.vec d) [] .xm lat (s.guard h) (.plain (f (s.src sc .int (XSrc.toSrc a))))

end Sys2Proof.Machine
end

