-- ==== Sys2Proof/Machine/Scalar.lean ====
section
/-! DEFINITION. The scalar slots: arithmetic, flags, bit fields, special registers, names and the queues sq
and bq (R284 to R291). -/

namespace Sys2Proof.Machine

/-- A scalar, control, memory or copy slot that reads a-registers: a poisoned one is consumed (R380). -/
def State.aSlot (s : State) (slot : Nat) (l : List AReg) (t : State) : State :=
  if l.any (fun a => s.rd.aPoison.get false a.toNat) then s.aFault slot .poison 0 else t

/-- The number of a scalar slot in a cause word (R371). -/
def sNo (sl : SSlot) : Nat := 1 + sl.toNat

/-- Two registers to a register. -/
def State.sRR (s : State) (o : SRRR) (f : Word → Word → Word) : State :=
  s.aSlot (sNo o.sl) [o.a, o.b] (s.setA o.d (f (s.rd.ra o.a) (s.rd.ra o.b)))
/-- A register and an immediate to a register. -/
def State.sRI (s : State) (o : SRRI) (f : Word → Word) : State :=
  s.aSlot (sNo o.sl) [o.a] (s.setA o.d (f (s.rd.ra o.a)))
/-- A register and a count to a register. -/
def State.sRC (s : State) (o : SRRC) (f : Word → Nat → Word) : State :=
  s.aSlot (sNo o.sl) [o.a] (s.setA o.d (f (s.rd.ra o.a) o.cnt.toNat))
/-- One register to a register. -/
def State.sR (s : State) (o : SRR) (f : Word → Word) : State :=
  s.aSlot (sNo o.sl) [o.a] (s.setA o.d (f (s.rd.ra o.a)))
/-- A compare of two registers. -/
def State.sCmp (s : State) (o : SKRR) (f : Word → Word → Bool) : State :=
  s.aSlot (sNo o.sl) [o.a, o.b] (s.setK o.d (f (s.rd.ra o.a) (s.rd.ra o.b)))
/-- A compare with an immediate. -/
def State.sCmpI (s : State) (o : SKRI) (f : Word → Word → Bool) : State :=
  s.aSlot (sNo o.sl) [o.a] (s.setK o.d (f (s.rd.ra o.a) (o.imm.signExtend 64)))
/-- Two flags to a flag. -/
def State.sKK (s : State) (o : SKKK) (f : Bool → Bool → Bool) : State :=
  s.setK o.d (f (s.rd.rk o.a) (s.rd.rk o.b))

/-- ADD (R285). -/
def execAdd (o : SRRR) (s : State) : Out := .next (s.sRR o (fun x y => x + y))
/-- SUB (R285). -/
def execSub (o : SRRR) (s : State) : Out := .next (s.sRR o (fun x y => x - y))
/-- AND (R285). -/
def execAnd (o : SRRR) (s : State) : Out := .next (s.sRR o (fun x y => x &&& y))
/-- OR (R285). -/
def execOr (o : SRRR) (s : State) : Out := .next (s.sRR o (fun x y => x ||| y))
/-- XOR (R285). -/
def execXor (o : SRRR) (s : State) : Out := .next (s.sRR o (fun x y => x ^^^ y))
/-- SHL (R285). -/
def execShl (o : SRRR) (s : State) : Out := .next (s.sRR o (fun x y => x <<< (y.toNat % 64)))
/-- SHR (R285). -/
def execShr (o : SRRR) (s : State) : Out := .next (s.sRR o (fun x y => x >>> (y.toNat % 64)))
/-- SRA (R285). -/
def execSra (o : SRRR) (s : State) : Out := .next (s.sRR o (fun x y => x.sshiftRight (y.toNat % 64)))
/-- MUL (R285). -/
def execMul (o : SRRR) (s : State) : Out := .next (s.sRR o (fun x y => x * y))
/-- MULH (R285). -/
def execMulh (o : SRRR) (s : State) : Out := .next (s.sRR o (fun x y => BitVec.ofInt 64 (x.toInt * y.toInt / 2 ^ 64)))
/-- MULHW (R285). -/
def execMulhw (o : SRRR) (s : State) : Out := .next (s.sRR o (fun x y => BitVec.ofNat 64 (x.toNat * y.toNat / 2 ^ 64)))
/-- MIN (R285). -/
def execMin (o : SRRR) (s : State) : Out := .next (s.sRR o (fun x y => if y.slt x then y else x))
/-- MAX (R285). -/
def execMax (o : SRRR) (s : State) : Out := .next (s.sRR o (fun x y => if x.slt y then y else x))
/-- WMIN (R285). -/
def execWmin (o : SRRR) (s : State) : Out := .next (s.sRR o (fun x y => if y.ult x then y else x))
/-- WMAX (R285). -/
def execWmax (o : SRRR) (s : State) : Out := .next (s.sRR o (fun x y => if x.ult y then y else x))
/-- ADDI (R286). -/
def execAddi (o : SRRI) (s : State) : Out :=
  let i : Word := o.imm.signExtend 64
  .next (s.sRI o (fun x => x + i))
/-- ANDI (R286). -/
def execAndi (o : SRRI) (s : State) : Out :=
  let i : Word := o.imm.signExtend 64
  .next (s.sRI o (fun x => x &&& i))
/-- ORI (R286). -/
def execOri (o : SRRI) (s : State) : Out :=
  let i : Word := o.imm.signExtend 64
  .next (s.sRI o (fun x => x ||| i))
/-- XORI (R286). -/
def execXori (o : SRRI) (s : State) : Out :=
  let i : Word := o.imm.signExtend 64
  .next (s.sRI o (fun x => x ^^^ i))
/-- SHLI (R286). -/
def execShli (o : SRRC) (s : State) : Out := .next (s.sRC o (fun x n => x <<< n))
/-- SHRI (R286). -/
def execShri (o : SRRC) (s : State) : Out := .next (s.sRC o (fun x n => x >>> n))
/-- SRAI (R286). -/
def execSrai (o : SRRC) (s : State) : Out := .next (s.sRC o (fun x n => x.sshiftRight n))
/-- LI (R286). -/
def execLi (_ : SSlot) (d : AReg) (imm : BitVec 14) (s : State) : Out := .next (s.setA d (imm.signExtend 64))
/-- LIH (R286). -/
def execLih (o : SRRI) (s : State) : Out := .next (s.sRI o (fun x => (x <<< 14) ||| o.imm.setWidth 64))
/-- LEA (R286). -/
def execLea (o : SRRR) (sh : BitVec 3) (off : BitVec 11) (s : State) : Out :=
  .next (s.sRR o (fun x y => x + (y <<< sh.toNat) + off.signExtend 64))
/-- CMPEQ (R287). -/
def execCmpeq (o : SKRR) (s : State) : Out := .next (s.sCmp o (fun x y => x == y))
/-- CMPLT (R287). -/
def execCmplt (o : SKRR) (s : State) : Out := .next (s.sCmp o (fun x y => x.slt y))
/-- CMPLTW (R287). -/
def execCmpltw (o : SKRR) (s : State) : Out := .next (s.sCmp o (fun x y => x.ult y))
/-- CMPEQI (R287). -/
def execCmpeqi (o : SKRI) (s : State) : Out := .next (s.sCmpI o (fun x i => x == i))
/-- CMPLTI (R287). -/
def execCmplti (o : SKRI) (s : State) : Out := .next (s.sCmpI o (fun x i => x.slt i))
/-- SELK (R287). -/
def execSelk (o : SRRR) (k : KReg) (s : State) : Out := .next (s.sRR o (fun x y => if s.rd.rk k then x else y))
/-- KAND (R287). -/
def execKand (o : SKKK) (s : State) : Out := .next (s.sKK o (fun x y => x && y))
/-- KOR (R287). -/
def execKor (o : SKKK) (s : State) : Out := .next (s.sKK o (fun x y => x || y))
/-- KXOR (R287). -/
def execKxor (o : SKKK) (s : State) : Out := .next (s.sKK o (fun x y => x != y))
/-- KNOT (R287). -/
def execKnot (_ : SSlot) (d a : KReg) (s : State) : Out := .next (s.setK d (!s.rd.rk a))
/-- BFX (R288). -/
def execBfx (o : SRR) (pos : BitVec 6) (len : BitVec 7) (s : State) : Out :=
  .next (s.sR o (fun x => BitVec.ofNat 64 (x.toNat / 2 ^ pos.toNat % 2 ^ Nat.min len.toNat 64)))
/-- BFI (R288). -/
def execBfi (o : SRRR) (pos : BitVec 6) (len : BitVec 7) (s : State) : Out :=
  let m : Word := BitVec.ofNat 64 (2 ^ Nat.min len.toNat 64 - 1) <<< pos.toNat
  .next (s.sRR o (fun x y => (y &&& ~~~m) ||| ((x <<< pos.toNat) &&& m)))
/-- CLZ (R288). -/
def execClz (o : SRR) (s : State) : Out := .next (s.sR o (fun x => BitVec.ofNat 64 (leadingZeros 64 x.toNat)))
/-- CTZ (R288). -/
def execCtz (o : SRR) (s : State) : Out := .next (s.sR o (fun x => BitVec.ofNat 64 (trailingZeros 64 x.toNat)))
/-- POPC (R288). -/
def execPopc (o : SRR) (s : State) : Out := .next (s.sR o (fun x => BitVec.ofNat 64 (popCount 64 x.toNat)))

/-! ### Special registers (R205 to R208, R154, R180, R181, R289) -/

/-- CTXID (R208). -/
def State.ctxid (s : State) : Word :=
  let g := groupOf s.core.toNat
  BitVec.ofNat 64 (s.cur.toNat + 16 * s.core.toNat + 8192 * memberOf s.core.toNat + 65536 * g + 16777216 * s.part.toNat)
/-- The deckle ranges of the tasks that hold contexts, intersected (R180). -/
def State.tasks (s : State) : List Task := (s.ctx.task.toList ++ s.others.filterMap (fun c => c.2.task))
def State.swlo (s : State) : Nat := s.tasks.foldl (fun m t => Nat.max m t.swlo) 1
def State.swhi (s : State) : Nat := s.tasks.foldl (fun m t => Nat.min m t.swhi) 16

/-- What MFSR reads. QCTL is read after realignment. -/
def State.readSR (s : State) (r : SR) : Word :=
  let x := s.rd
  let at_ (m : Store Word) (i : BitVec 2) : Word := m.get 0 i.toNat
  match r with
  | .psel => x.psel
  | .qctl => s.ctx.qctl
  | .rseed => x.rseed
  | .upk => x.upk
  | .sfault => x.sfault
  | .cpcause => x.cpcause
  | .deck => BitVec.ofNat 64 (s.sw + (match s.deckMove with | none => 0 | some up => if up then 768 else 256))
  | .dklim => BitVec.ofNat 64 (s.swlo + 256 * s.swhi + 2 ^ 32 * Nat.min s.rclLast (2 ^ 32 - 1))
  | .l1smp => BitVec.ofNat 64 (Nat.min s.smpLast.hits 65535 + 65536 * Nat.min s.smpLast.miss 65535 +
      2 ^ 32 * Nat.min s.smpLast.ghost 65535 + 2 ^ 48 * Nat.min s.smpLast.lruh 65535)
  | .ctxid => s.ctxid
  | .tidx => match s.ctx.task with | some t => BitVec.ofNat 64 (t.x + 65536 * t.y) | none => 0
  | .tstat => match s.ctx.task with | some t => if t.inp then 1 else 0 | none => 0
  | .vwin => BitVec.ofNat 64 (s.ctx.vbase + 65536 * s.ctx.vcnt)
  | .mwin => BitVec.ofNat 64 (s.ctx.mbase + 256 * s.ctx.mcnt + 65536 * s.ctx.dbase + 2 ^ 32 * s.ctx.dlim)
  | .lc i => (x.rlc i).setWidth 64
  | .csh i => at_ x.csh i
  | .cshs i => at_ x.cshs i
  | .msh i => at_ x.msh i
  | .mshs i => at_ x.mshs i
  | .ssh i => at_ x.ssh i
  | .sshs i => at_ x.sshs i

/-- MFSR (R289): an MFSR of QCTL realigns first. It does not wait for the landing of rational results as R206 says: while
the A-half waits no X-half issues and none would land (R37); the flags are set at issue (R271), so the value is the same
(DESIGN CHOICE, log entry 68). -/
def execMfsr (_ : SSlot) (d : AReg) (r : SR) (s : State) : Out :=
  if r = .qctl ∧ !s.realigned then .next (s.wait .realign) else .next (s.setA d (s.readSR r))

/-- The bits of a matrix shape that are not reserved (R253). -/
def mshMask : Word := 0x0000FFFFFFFF0007

/-- The bits of QCTL that are not reserved (R207). -/
def qctlMask : Word := 0x301

/-- Writes an A-side special register; reserved bits are dropped except in UPK (R206). -/
def ARegs.writeSR (x : ARegs) (r : SR) (v : Word) : ARegs :=
  let clean (c : ShapeClass) (i : Nat) : Store Bool := x.shPoison.set false (8 * c.no + i) false
  match r with
  | .psel => { x with psel := v &&& 15 }
  | .rseed => { x with rseed := v }
  | .upk => { x with upk := v }
  | .sfault => { x with sfault := v &&& 0xFF3FFFFFFF }
  | .cpcause => { x with cpcause := v &&& 0xFF1F }
  | .lc i => { x with lc := x.lc.set 0 i.toNat (v.setWidth 32) }
  | .csh i => { x with csh := x.csh.set 0 i.toNat v, shPoison := clean .csh i.toNat }
  | .cshs i => { x with cshs := x.cshs.set 0 i.toNat v, shPoison := clean .csh (4 + i.toNat) }
  | .msh i => { x with msh := x.msh.set 0 i.toNat (v &&& mshMask), shPoison := clean .msh i.toNat }
  | .mshs i => { x with mshs := x.mshs.set 0 i.toNat (v &&& mshMask), shPoison := clean .msh (4 + i.toNat) }
  | .ssh i => { x with ssh := x.ssh.set 0 i.toNat v, shPoison := clean .ssh i.toNat }
  | .sshs i => { x with sshs := x.sshs.set 0 i.toNat v, shPoison := clean .ssh (4 + i.toNat) }
  | _ => x

/-- A write of a special register by the bundle whose A-half issues. QCTL, and the RCNT that a write of RSEED
clears, change after that bundle's X-half (R34, R223); a handler's writes are noted for its ERET (R373). -/
def State.writeSR (s : State) (r : SR) (v : Word) : State :=
  s.modCtx (fun c => { c with
    regs := c.regs.writeSR r v
    xpend := match r with
      | .qctl => c.xpend ++ [(c.an, .qctl (v &&& qctlMask))]
      | .rseed => c.xpend ++ [(c.an, .rcnt0)]
      | _ => c.xpend
    hwrote := (c.noteWrote [r]).hwrote })

/-- MTSR (R289): a reserved prime selector raises BADSR (R206). -/
def execMtsr (sl : SSlot) (r : SR) (a : AReg) (s : State) : Out :=
  let v := s.rd.ra a
  .next (s.aSlot (sNo sl) [a]
    (if r = .psel ∧ 12 ≤ ufield v 0 4 then s.aFault (sNo sl) .badSr 0 else s.writeSR r v))

/-- GETG (R290). -/
def execGetg (_ : SSlot) (d : AReg) (g : GReg) (s : State) : Out := .next (s.setA d ((s.rd.rg g).setWidth 64))
/-- SETG (R290). -/
def execSetg (sl : SSlot) (g : GReg) (a : AReg) (s : State) : Out :=
  .next (s.aSlot (sNo sl) [a]
    (s.modRegs (fun x => { x with g := x.g.set 0 g.toNat ((s.rd.ra a).setWidth 16) })))

/-- Pops a queue of the X-half into a register (R291); the entry carries its poison (R379). -/
def State.popToA (s : State) (slot : Nat) (d : AReg) (id : Nat) : State :=
  match s.aHead id with
  | .wait w => s.wait w
  | .trap c v => s.aFault slot c v
  | .ok =>
    let e := (s.queue id).head?
    let v : Word := ((e.bind (·.val)).getD 0).setWidth 64
    let s := (s.modCtx (fun c => c.pop id)).setA d v
    s.modRegs (fun r => r.wa d v ((e.map (·.poison)).getD false))

/-- POPSQ (R291). -/
def execPopsq (sl : SSlot) (d : AReg) (s : State) : Out := .next (s.popToA (sNo sl) d qIdSq)
/-- POPBQ (R291). -/
def execPopbq (sl : SSlot) (d : AReg) (s : State) : Out := .next (s.popToA (sNo sl) d qIdBq)

end Sys2Proof.Machine
end

