-- ==== Sys2Proof/Machine/Segments.lean ====
section
/-! DEFINITION. Segments: checks of an access, residency, recall, push-out, the tamper and the deckle, and the
segment instructions (R147 to R175, R180, R181). -/

namespace Sys2Proof.Machine

/-- What a meaning answers once its checks have run: the state it stopped in, or its effect. -/
def fin (r : Except State State) : Out := .next (match r with | .ok s => s | .error s => s)

/-- A poisoned a-register among those read is consumed (R380). -/
def State.live (s : State) (slot : Nat) (l : List AReg) : Except State Unit :=
  if l.any (fun a => s.rd.aPoison.get false a.toNat) then .error (s.aFault slot .poison 0) else .ok ()
/-- A check: the trap it raises where it fails. -/
def State.need (s : State) (ok : Bool) (slot : Nat) (c : Cause) (detail : Word) : Except State Unit :=
  if ok then .ok () else .error (s.aFault slot c detail)
/-- A condition to wait for. -/
def State.until (s : State) (ok : Bool) (w : WaitFor) : Except State Unit := if ok then .ok () else .error (s.wait w)
/-- A queue that must be ready. -/
def State.ready (s : State) (slot : Nat) : Ready → Except State Unit
  | .ok => .ok ()
  | .wait w => .error (s.wait w)
  | .trap c d => .error (s.aFault slot c d)

/-! ### Residency (R156 to R166) -/

def SegEntry.here (e : SegEntry) : Bool := e.st == .resident || e.st == .moving

/-- Requests the recall of absent segments, in one request (R158, R165). -/
def State.requestRecall (s : State) (i : BitVec 2) (names : List (BitVec 16)) : State :=
  let out (e : SegEntry) : Bool := e.ctx == i && names.contains e.name && e.st == .absent
  let ask (e : SegEntry) : SegEntry := if out e then { e with st := .recalling, touched := s.fresh } else e
  if s.segs.any out then { s.bump with segs := s.segs.map ask } else s

/-- A segment that may be pushed out (R156). -/
def SegEntry.victim (e : SegEntry) : Bool := e.here && !e.pinned && !e.anc

/-- Lines of a task's segments that are resident, and its floor (R161, R164). -/
def State.residentOf (s : State) (i : BitVec 2) : Nat :=
  ((s.segs.filter (fun e => e.ctx == i)).map (·.place.length)).sum
def Task.floor (t : Task) : Nat := t.anchored + t.h
def State.aboveFloor (s : State) (i : BitVec 2) : Bool :=
  match (s.ctxAt i).task with
  | some t => decide (t.floor < s.residentOf i)
  | none => true

/-- Least recently touched first; ties to the lower context number, then the lower name (R157). -/
def SegEntry.older (a b : SegEntry) : Bool :=
  decide (a.touched < b.touched ∨ (a.touched = b.touched ∧ (a.ctx.toNat < b.ctx.toNat ∨
    (a.ctx = b.ctx ∧ a.name.toNat < b.name.toNat))))
def oldest (l : List SegEntry) : Option SegEntry :=
  l.foldl (fun b e => match b with
    | none => some e
    | some o => if e.older o then some e else some o) none

/-- The next victim among those allowed: of tasks above their floor first (R157). -/
def State.nextVictim (s : State) (only : Option (BitVec 2)) : Option SegEntry :=
  let l := s.segs.filter (fun e => e.victim && (match only with | some i => e.ctx == i | none => true))
  match oldest (l.filter (fun e => s.aboveFloor e.ctx)) with
  | some e => some e
  | none => oldest l

/-- Physical address of a 64-byte unit of a segment's slot in the push-out area (R150, R156). -/
def State.slotUnit (s : State) (e : SegEntry) (u : Nat) : Nat := s.pushArea + 128 * e.spoff + 64 * u
/-- A segment's lines are written to its slot, through the home slices with the default hint (R156). -/
def State.toSlot (s : State) (e : SegEntry) : State :=
  (List.range (2 * e.size)).foldl (fun (s : State) u =>
    s.physWrite (s.slotUnit e u) (e.read (64 * u) 64) (e.poisoned (64 * u) 64) 0 (s.ctxAt e.ctx).job.ten false) s
/-- They are read back: the bytes and the poison of each unit (R158). -/
def State.fromSlot (s : State) (e : SegEntry) : SegEntry × State :=
  if e.zimg then (e, s)
  else (List.range (2 * e.size)).foldl (fun (x : SegEntry × State) u =>
    let (bs, p, s1) := x.2.physRead (x.2.slotUnit e u) 64 0 (x.2.ctxAt e.ctx).job.ten false
    (x.1.write (64 * u) bs p, s1)) ({ e with bytes := [], poison := [] }, s)

/-- A push-out: the segment becomes absent with its image in its slot, its full/empty bits with it, and its lines are
free (R156). -/
def State.pushOut (s : State) (i : BitVec 2) (name : BitVec 16) : State :=
  match s.seg i name with
  | none => s
  | some e => (s.toSlot e).modSeg i name (fun e => { e with st := .absent, place := [], zimg := false, bytes := [], poison := [] })

/-- Pushes victims out until a condition holds, at most `n` of them. -/
def State.makeRoom (s : State) (only : Option (BitVec 2)) (enough : State → Bool) : Nat → State
  | 0 => s
  | n + 1 => if enough s then s else match s.nextVictim only with
    | none => s
    | some e => (s.pushOut e.ctx e.name).makeRoom only enough n

/-- Serves the oldest recall request, in ascending name order within it; waits where no room can be made
(R158, R164, R165). -/
def State.recall (s : State) : State :=
  let want := s.segs.filter (fun e => e.st == .recalling)
  let first := want.foldl (fun (b : Option SegEntry) e => match b with
    | none => some e
    | some o => if e.touched < o.touched ∨ (e.touched = o.touched ∧ e.name.toNat < o.name.toNat) then some e else some o) none
  match first with
  | none => s
  | some e =>
    let rl := ((s.ctxAt e.ctx).task.map (·.rl)).getD 0
    let s := if rl = 0 then s
      else s.makeRoom (some e.ctx) (fun s => decide (s.residentOf e.ctx + e.size ≤ rl)) s.segs.length
    let s := s.makeRoom none (fun s => decide (s.usedLines.length + e.size ≤ 512 * s.sw)) s.segs.length
    let free := s.freeLines
    if free.length < e.size ∨ (rl ≠ 0 ∧ rl < s.residentOf e.ctx + e.size) then s
    else
      let (e1, s) := s.fromSlot e
      let s := s.modSeg e.ctx e.name (fun x => { x with st := .resident, place := free.take e.size, touched := s.fresh
                                                        bytes := e1.bytes, poison := e1.poison })
      ({ s.bump with rcl := s.rcl + e.size }).traceOf e.ctx 5 (s.ctxAt e.ctx).pc (e.name.setWidth 64)

/-! ### Checks of an access (R163, R167) -/

/-- The pins an operation would take: it fits, waits for engine pins, or raises FLOOR (R163). -/
def State.mayPin (s : State) (slot : Nat) (names : List (BitVec 16)) : Except State Unit :=
  match s.pinFate s.cur names with
  | .fits => .ok ()
  | .waits => .error (s.wait .barrier)
  | .floor => .error (s.aFault slot .floor 0)

/-- The segment is resident, or its recall is requested and the half blocks (R166). -/
def State.mustBeHere (s : State) (e : SegEntry) : Except State Unit :=
  if e.here then .ok ()
  else .error ((s.requestRecall s.cur [e.name]).wait .segment)

/-- Resolves a name of the running context (R148). -/
def State.own (s : State) (slot : Nat) (g : GReg) : Except State SegEntry :=
  match s.seg s.cur (s.rd.rg g) with
  | some e => .ok e
  | none => .error (s.aFault slot .noSeg 0)

/-- Rows 2 to 6 of R167 for an access of `w` bytes at an offset. -/
def State.segCheck (s : State) (slot : Nat) (g : GReg) (off : Word) (w : Nat) : Except State SegEntry := do
  let e ← s.own slot g
  s.need (off.toNat % w == 0) slot .misalign off
  s.need (decide (off.toNat + w ≤ 128 * e.size)) slot .segBound off
  s.mayPin slot [e.name]
  s.mustBeHere e
  pure e

/-- An empty line is touched: where the staging of its entry was abandoned, a refill is due (R341). -/
def State.wantSeg (s : State) (e : SegEntry) : State :=
  if (s.ctxAt e.ctx).task.any (fun t => e.wsEntry.any t.refills.contains) then
    s.modSeg e.ctx e.name (fun e => { e with wanted := true })
  else s
/-- The line of a byte offset is full (R152). -/
def State.mustBeFull (s : State) (e : SegEntry) (off : Word) : Except State Unit :=
  if e.isEmpty (off.toNat / 128) then .error ((s.wantSeg e).wait .segment) else .ok ()

/-! ### Segment instructions (R168 to R174) -/

/-- Whether a run of lines of the push-out area is free. -/
def State.runFree (s : State) (at_ size : Nat) : Bool :=
  decide (at_ + size ≤ 32768) &&
  (s.segs ++ (s.images.map (·.segs)).flatten).all (fun e => decide (at_ + size ≤ e.spoff ∨ e.spoff + e.size ≤ at_))
/-- The first free run of the push-out area, by the table's order (R150; DESIGN CHOICE: R169 does not say which run is taken;
log entry 84). -/
def State.freeRun (s : State) (size : Nat) : Option Nat :=
  (0 :: (s.segs ++ (s.images.map (·.segs)).flatten).map (fun e => e.spoff + e.size)).find? (fun a => s.runFree a size)

/-- Creates a segment, absent with a zero image (R169). -/
def SegEntry.fresh (name : BitVec 16) (ctx : BitVec 2) (job : Word) (fmt : ElemFmt) (size spoff touched : Nat)
    (full : Bool) : SegEntry :=
  { name := name, anc := false, ctx := ctx, job := job, fmt := fmt, size := size, st := .absent, ppin := false,
    zimg := true, cpins := 0, mpin := false, spins := 0, spoff := spoff, place := [], bytes := [],
    empty := if full then [] else (List.range size).map (fun i => (i, true)), poison := [], touched := touched,
    wsEntry := none, wanted := false, born := touched }

/-- The status of SEGNEW (R168). -/
def State.segnewStatus (s : State) (name : BitVec 16) (size : Word) (fmt : ElemFmt) : Nat :=
  if name = 0 then 4
  else if (s.seg s.cur name).isSome then 1
  else if size.toNat = 0 ∨ 4096 < size.toNat ∨ (fmt = .e2m1b ∧ size.toNat % 9 ≠ 0) then 3
  else if (s.ctx.task.map (·.h)).getD 0 < size.toNat then 5
  else if 256 ≤ s.segs.length ∨ (s.freeRun size.toNat).isNone then 2
  else 0

/-- SEGNEW (R169). -/
def execSegnew (d : AReg) (g : GReg) (size : AReg) (fmt : ElemFmt) (empty : Bool) (s : State) : Out :=
  let name := s.rd.rg g
  let sz := s.rd.ra size
  let st := s.segnewStatus name sz fmt
  fin (do
    s.live 3 [size]
    let s' := if st = 0 then
        { s with segs := s.segs ++ [SegEntry.fresh name s.cur s.ctx.jd fmt sz.toNat ((s.freeRun sz.toNat).getD 0)
            s.fresh (!empty)] }.bump
      else s
    pure (s'.setA d (BitVec.ofNat 64 st)))

/-- SEGFREE (R170). -/
def execSegfree (g : GReg) (s : State) : Out := fin (do
  let e ← s.own 3 g
  s.need (!e.ppin && e.spins == 0) 3 .segBusy 0
  s.until (e.cpins == 0) .barrier
  pure (s.freeSeg s.cur e.name))

/-- SEGPIN (R171). -/
def execSegpin (g : GReg) (s : State) : Out := fin (do
  let e ← s.own 3 g
  if e.ppin then pure s
  else
    s.mayPin 3 [e.name]
    s.mustBeHere e
    pure ((s.modSeg s.cur e.name (fun e => { e with ppin := true })).touchSeg s.cur e.name))

/-- SEGUNPIN (R171). -/
def execSegunpin (g : GReg) (s : State) : Out := fin (do
  let e ← s.own 3 g
  pure (s.modSeg s.cur e.name (fun e => { e with ppin := false })))

/-- The codes of R88. -/
def fmtCode (f : ElemFmt) : Nat := (encodeFmt f).toNat

/-- What SEGSZ reports (R172). -/
def SegEntry.report (e : SegEntry) : Nat :=
  let bit (b : Bool) (n : Nat) : Nat := if b then 2 ^ n else 0
  e.size + fmtCode e.fmt * 65536 + bit e.here 20 + bit e.anc 21 + bit e.ppin 22 + bit (e.mpin || e.cpins + e.spins != 0) 23

/-- SEGSZ (R172). -/
def execSegsz (d : AReg) (g : GReg) (s : State) : Out :=
  .next (s.setA d (BitVec.ofNat 64 (match s.seg s.cur (s.rd.rg g) with
    | some e => e.report
    | none => 0)))

/-- The effect of SEGCLR on a segment: lines `l` to `l + n − 1` (R173). -/
def SegEntry.clear (e : SegEntry) (act : BitVec 2) (l n : Nat) : SegEntry :=
  let full := act == 1 || act == 2
  let zero := act == 2 || act == 3
  let e := (List.range n).foldl (fun (e : SegEntry) i => e.setFull (l + i) full) e
  if zero then
    let keepB (p : Nat × Byte) : Bool := decide (p.1 < 128 * l ∨ 128 * (l + n) ≤ p.1)
    let keepP (p : Nat × Bool) : Bool := decide (p.1 < 2 * l ∨ 2 * (l + n) ≤ p.1)
    { e with bytes := e.bytes.filter keepB, poison := e.poison.filter keepP }
  else e

/-- SEGCLR (R173). Its faults come before its wait for pins (DESIGN CHOICE: the rule gives the two no order; log entry 84). -/
def execSegclr (g : GReg) (off cnt : AReg) (act : BitVec 2) (s : State) : Out :=
  let o := s.rd.ra off
  let n := s.rd.ra cnt
  fin (do
    s.live 3 [off, cnt]
    let e ← s.own 3 g
    s.need (o.toNat % 128 == 0) 3 .misalign o
    s.need (n != 0 && decide (o.toNat / 128 + n.toNat ≤ e.size)) 3 .segBound o
    s.need (e.spins == 0) 3 .segBusy 0
    s.until (e.cpins == 0) .barrier
    s.mayPin 3 [e.name]
    s.mustBeHere e
    pure ((s.modSeg s.cur e.name (fun e => e.clear act (o.toNat / 128) n.toNat)).touchSeg s.cur e.name))

/-- SEGFMT (R174). -/
def execSegfmt (d : AReg) (g : GReg) (fmt : ElemFmt) (s : State) : Out := fin (do
  let e ← s.own 3 g
  s.until (e.cpins == 0) .barrier
  let bad := fmt == .e2m1b && e.size % 9 != 0
  let s' := if bad then s else s.modSeg s.cur e.name (fun e => { e with fmt := fmt })
  pure (s'.setA d (if bad then 3 else 0)))

/-! ### Residency events -/

/-- SEGMENT_RECALL (R158, R165). -/
def execSegmentRecall (s : State) : Out := .next s.recall

/-- Room that is needed now: for the recall being served, of the owner's own segments under a residency limit, or for a
way being given up (R155, R157). An admission makes its own room as it happens. -/
def State.roomNeed (s : State) : Option (Option (BitVec 2)) :=
  let want := s.segs.filter (fun e => e.st == .recalling)
  match oldest want with
  | some e =>
    let rl := ((s.ctxAt e.ctx).task.map (·.rl)).getD 0
    if rl ≠ 0 ∧ rl < s.residentOf e.ctx + e.size then some (some e.ctx)
    else if s.freeLines.length < e.size then some none else none
  | none =>
    let top := 512 * (s.sw - 1)
    if s.deckMove = some false ∧ s.usedLines.any (fun l => decide (top ≤ l)) ∧ !s.freeLines.any (fun l => decide (l < top))
    then some none else none

/-- PUSH_OUT: ends a push-out that is under way, and begins one on the next victim where room is needed (R156, R157,
R160). -/
def execPushOut (ctx : BitVec 2) (name : BitVec 16) (s : State) : Out :=
  .next (match s.seg ctx name with
    | some e =>
      if e.st = .pushing then s.pushOut ctx name
      else match s.roomNeed with
        | some only =>
          if (s.nextVictim only).any (fun v => v.ctx == ctx && v.name == name)
          then s.modSeg ctx name (fun e => { e with st := .pushing }) else s
        | none => s
    | none => s)

/-- Where the tamper moves a line of a segment: behind the line before it where that is free, else to the lowest free
line below it (R159). -/
def State.tamperTo (s : State) (e : SegEntry) (line old : Nat) : Option Nat :=
  let free := s.freeLines
  let low : Option Nat := free.head?.bind (fun n => if n < old then some n else none)
  match line with
  | 0 => low
  | k + 1 =>
    let next := (e.place.getD k 0) + 1
    if next = old then none else if free.contains next then some next else low

/-- TAMPER_MOVE: one line of an unpinned segment moves (R159, R160). -/
def State.tamper (s : State) (ctx : BitVec 2) (name : BitVec 16) (line : Nat) : State :=
  match s.seg ctx name with
  | none => s
  | some e =>
    if e.pinned then s.modSeg ctx name (fun e => { e with st := if e.st = .moving then .resident else e.st })
    else if !e.here then s
    else match e.place[line]? with
      | none => s
      | some old => match s.tamperTo e line old with
        | some new => s.modSeg ctx name (fun e => { e with
            place := e.place.set line new, st := if line + 1 = e.size then .resident else .moving })
        | none => s.modSeg ctx name (fun e => { e with st := .resident })
def execTamperMove (ctx : BitVec 2) (name : BitVec 16) (line : Nat) (s : State) : Out :=
  .next (s.tamper ctx name line)

/-- The ways the L1 holds (R176). -/
def State.l1Ways (s : State) : Nat := 16 - s.sw
def l1SetOf (line : Nat) : Nat := Config.l1Set line % 512

/-- Taking a way: L1 way SW drops its lines, and SW rises (R155). Which line of a set lies in that way is a
free value for each of the 512 sets (log entry 4). -/
def State.takeWay (s : State) : State :=
  if s.deckMove.isSome ∨ s.swhi ≤ s.sw then s
  else
    let ways := s.l1Ways
    let drop (l : L1Line) : Bool :=
      let inSet := s.l1.filter (fun m => l1SetOf m.line == l1SetOf l.line)
      (inSet[(Config.freeWord (s.fresh + l1SetOf l.line)).toNat % ways]?).any (fun m => m.line == l.line)
    ({ s with fresh := s.fresh + 512, sw := s.sw + 1, l1 := s.l1.filter (fun l => !drop l) }).traceRec 10 s.ctx.pc (BitVec.ofNat 64 (s.sw + 1))

/-- DECKLE_TAKE_WAY (R155). -/
def execDeckleTakeWay (s : State) : Out := .next s.takeWay

/-- The floors of the tasks that hold contexts (R161). -/
def State.floors (s : State) : Nat := (s.tasks.map Task.floor).sum

/-- The lines of the top way that may be moved down, and the move of one. -/
def State.emptyOne (s : State) : State :=
  let top := 512 * (s.sw - 1)
  match s.segs.find? (fun e => e.here && !e.pinned && e.place.any (fun p => decide (top ≤ p))) with
  | none => s
  | some e =>
    match (s.freeLines.filter (fun l => decide (l < top))).head? with
    | some free => s.modSeg e.ctx e.name (fun e =>
        let place := e.place.map (fun p => if e.place.find? (fun q => decide (top ≤ q)) = some p then free else p)
        { e with place := place, st := if place.any (fun p => decide (top ≤ p)) then .moving else .resident })
    | none => match s.nextVictim none with
      | some v => s.pushOut v.ctx v.name
      | none => s
def State.emptyWay (s : State) : Nat → State
  | 0 => s
  | n + 1 => s.emptyOne.emptyWay n

/-- A move is over; segments that it left half way are where they are (R155). -/
def State.endMove (s : State) : State :=
  { s with deckMove := none, segs := s.segs.map (fun e => if e.st = .moving then { e with st := .resident } else e) }

/-- Giving up a way: starts where every floor still fits, and ends once the way is empty. Tasks may be
admitted meanwhile at the position as it stands (R337); a move that their floors or ranges no longer allow is abandoned
(R161, R180, R345). -/
def State.giveWay (s : State) : State :=
  let started := s.deckMove == some false
  let barred := decide (s.sw ≤ s.swlo) || decide (512 * (s.sw - 1) < s.floors)
  if started && barred then s.endMove
  else if !started && (s.deckMove.isSome || barred) then s
  else
    let s := ({ s with deckMove := some false }).emptyWay 1024
    if s.usedLines.any (fun l => decide (512 * (s.sw - 1) ≤ l)) then s
    else ({ s.endMove with sw := s.sw - 1 }).traceRec 10 s.ctx.pc (BitVec.ofNat 64 (s.sw - 1))

/-- DECKLE_GIVE_WAY (R155). -/
def execDeckleGiveWay (s : State) : Out := .next s.giveWay

/-- DECKLE_EPOCH_END (R181): the first row that applies, then the counts are cleared. A move still running
suppresses the decision and is abandoned (R155). -/
def execDeckleEpochEnd (s : State) : Out :=
  let t := match s.deckMove with
    | some _ => s.endMove
    | none =>
      if s.sw < s.swhi ∧ 16 * s.smp.lruh < s.rcl then s.takeWay
      else if s.swlo < s.sw ∧ s.rcl = 0 ∧ 16 ≤ s.smp.ghost then s.giveWay
      else s
  .next { t with smpLast := s.smp, rclLast := s.rcl, smp := ⟨0, 0, 0, 0⟩, rcl := 0 }

end Sys2Proof.Machine
end

