-- ==== Sys2Proof/Machine/LoadStore.lean ====
section
/-! DEFINITION. The L1, the outstanding requests of the A-half, and the memory-slot loads and stores
(R68, R77, R176 to R189, R199, R210, R303 to R310). -/

namespace Sys2Proof

def MemOrd.acq : MemOrd → Bool
  | .acquire | .acqRel => true
  | _ => false
def MemOrd.rel : MemOrd → Bool
  | .release | .acqRel => true
  | _ => false

def LdTy.bytes : LdTy → Nat
  | .i8 | .w8 => 1
  | .i16 | .w16 => 2
  | .i32 | .w32 => 4
  | .i64 => 8
/-- The loaded bytes, extended (R183). -/
def LdTy.extend (t : LdTy) (v : Nat) : Word :=
  match t with
  | .i8 => (BitVec.ofNat 8 v).signExtend 64
  | .i16 => (BitVec.ofNat 16 v).signExtend 64
  | .i32 => (BitVec.ofNat 32 v).signExtend 64
  | .i64 | .w8 | .w16 | .w32 => BitVec.ofNat 64 v
def StTy.bytes : StTy → Nat
  | .b8 => 1
  | .b16 => 2
  | .b32 => 4
  | .b64 => 8

def OutQ.id (q : OutQ) : Nat := qIdOut q.cl q.w

end Sys2Proof

namespace Sys2Proof.Machine

/-! ### The L1 (R176 to R179, R181) -/

/-- Saturating sampling counts. -/
def satInc (n : Nat) (b : Bool) : Nat := if b then Nat.min 65535 (n + 1) else n

/-- A load served by the L1: the line it holds, or its fill (R177, R178). A line that holds poison, or that
no layer backs, is not kept (R379 names no poison in the L1). With no L1 way left nothing is evicted, and the shadow tags
take no line (DESIGN CHOICE: R181 does not say; log entry 78). -/
def State.l1Read (s : State) (pa n : Nat) (hint : BitVec 2) (cls : BitVec 4) : List Byte × Bool × State :=
  let line := pa / 128
  let set := l1SetOf line
  let inSet := s.l1.filter (fun m => l1SetOf m.line == set)
  let sampled := set % 16 == 0
  match inSet.find? (fun m => m.line == line) with
  | some m =>
    let last := sampled && decide (inSet.length = s.l1Ways) && inSet.getLast?.any (fun x => x.line == line)
    let smp := { s.smp with hits := satInc s.smp.hits sampled, lruh := satInc s.smp.lruh last }
    ((natBytes 128 m.data.toNat).drop (pa % 128) |>.take n, false,
      { s with l1 := m :: s.l1.filter (fun x => x.line != line), smp := smp })
  | none =>
    let ghost := sampled && s.ghosts.contains line
    let smp := { s.smp with miss := satInc s.smp.miss sampled, ghost := satInc s.smp.ghost ghost }
    let (bs, p, s') := { s with smp := smp }.physRead pa n hint cls false
    if s.l1Ways = 0 ∨ s.layerOff pa ∨ s.memPoisoned (128 * line) 128 then (bs, p, s')
    else
      let full := decide (s.l1Ways ≤ inSet.length)
      let out := if full then inSet.getLast? else none
      let l : L1Line := ⟨line, BitVec.ofNat 1024 (s.memNat (128 * line) 128)⟩
      let kept := s'.l1.filter (fun x => !out.any (fun o => o.line == x.line))
      let ghosts := match out with
        | some o => if sampled then o.line :: s'.ghosts.filter (fun g => l1SetOf g != set) else s'.ghosts
        | none => s'.ghosts
      (bs, p, { s' with l1 := l :: kept, ghosts := ghosts })

/-- An acquire of scope core or wider invalidates the L1 (R179). -/
def State.acquireL1 (s : State) (ord : MemOrd) (scope : Scope) : State :=
  match ord with
  | .acquire | .acqRel => if scope = .ctx then s else { s with l1 := [] }
  | _ => s

/-! ### Order among the requests of a context (R303 to R310) -/

/-- Page kinds (R71). -/
def kindRC : BitVec 2 := 0
def kindSO : BitVec 2 := 1
def kindUN : BitVec 2 := 2

/-- Whether an earlier access of the context must be performed before a later one (R304 to R310). -/
def mustPrecede (qpa qn : Nat) (qkind : BitVec 2) (qord : MemOrd) (pa n : Nat) (kind : BitVec 2) (ord : MemOrd) : Bool :=
  decide (qpa < pa + n ∧ pa < qpa + qn) || (qkind == kindSO && kind == kindSO) ||
  (qkind != kindUN && kind != kindUN && (qord.acq || ord.rel))
def Req.precedes (q : Req) (pa n : Nat) (kind : BitVec 2) (ord : MemOrd) : Bool :=
  mustPrecede q.pa q.width q.kind q.ord pa n kind ord

/-- A synchronous global access of the running context waits for the requests it comes after. -/
def State.inOrder (s : State) (pa n : Nat) (kind : BitVec 2) (ord : MemOrd) : Except State Unit :=
  s.until (!s.reqs.any (fun q => q.ctx == s.cur && q.precedes pa n kind ord)) .engine
/-- A segment access comes after an acquire still outstanding (R310). -/
def State.localOrder (s : State) : Except State Unit :=
  s.until (!s.reqs.any (fun q => q.ctx == s.cur && q.kind != kindUN && q.ord.acq)) .engine
/-- The A-half budget of requests (R199). -/
def State.budget (s : State) : Except State Unit := s.until (decide (s.reqs.length < 1024)) .engine

/-! ### Translation of an M-slot access (R66, R68, R77, R80) -/

/-- A fault of a translated access: a trap of the slot at its address. A miss that no walker serves holds the A-half. -/
def State.gCheck (s : State) (slot : Nat) (va : Word) (w : Nat) (acc : Access) : Except State (Nat × Tlb × State) :=
  let j := s.ctx.job
  if ufield va 56 8 != 0 then .error (s.aFault slot .badAddr va)
  else if va.toNat % w != 0 then .error (s.aFault slot .misalign va)
  else if !s.walkServed j.asid va false then .error ((s.noteMiss j.asid va false).wait .engine)
  else match s.translate j.asid j.root va acc with
    | (.fault c, s') => .error (s'.aFault slot c va)
    | (.ok pa t, s') => .ok (pa, t, s')

/-- Counts a memory-writing instruction of the task (R404). -/
def State.nextSeq (s : State) : State :=
  s.modCtx (fun c => { c with task := c.task.map (fun t => { t with seq := t.seq + 1 }) })
def State.seqNo (s : State) : Nat := (s.ctx.task.map (·.seq)).getD 0

/-- Puts a request behind the others. -/
def State.request (s : State) (act : ReqAct) (pa w : Nat) (t : Tlb) (hint : BitVec 2) (byp : Bool) (ord : MemOrd)
    (scope : Scope) : State :=
  let q : Req := { id := s.fresh, ctx := s.cur, act := act, pa := pa, width := w, kind := t.kind, hint := hint, w := byp,
                   ord := ord, scope := scope, ten := s.ctx.job.ten, key := s.seqNo }
  { s.bump with reqs := s.reqs ++ [q] }

/-! ### LDA, STA (R183, R184) -/

/-- LDA, global form (R183). -/
def execLda (t : LdTy) (d : AReg) (m : GMem) (s : State) : Out := fin (do
  s.live 3 m.a.areads
  let (pa, tl, s1) ← s.gCheck 3 (s.rd.addr m.a) t.bytes .read
  s1.budget
  pure ({ s1 with reqs := dropPending s1.cur d s1.reqs }.request (.areg d t) pa t.bytes tl m.hint m.w m.ord m.scope))

/-- LDA, local form (R167, R183). -/
def execLdaLocal (t : LdTy) (d : AReg) (m : LMem) (s : State) : Out := fin (do
  let off := s.rd.addr m.a
  s.live 3 m.a.areads
  let e ← s.segCheck 3 m.g off t.bytes
  s.mustBeFull e off
  s.localOrder
  let v := t.extend (bytesNat (e.read off.toNat t.bytes))
  let s1 := (s.setA d v).touchSeg s.cur e.name
  pure (s1.modRegs (fun r => r.wa d v (e.poisoned off.toNat t.bytes))))

/-- STA, global form (R184): a poisoned register is stored as poison, not consumed (R379). -/
def execSta (t : StTy) (d : AReg) (m : GMem) (s : State) : Out := fin (do
  s.live 3 m.a.areads
  let (pa, tl, s1) ← s.gCheck 3 (s.rd.addr m.a) t.bytes .write
  s1.budget
  pure (s1.nextSeq.request (.store ((s.rd.ra d).setWidth 512) (s.rd.aPoison.get false d.toNat)) pa t.bytes tl m.hint false
    m.ord m.scope))

/-- STA, local form (R152, R184). -/
def execStaLocal (t : StTy) (d : AReg) (m : LMem) (s : State) : Out := fin (do
  let off := s.rd.addr m.a
  s.live 3 m.a.areads
  let e ← s.segCheck 3 m.g off t.bytes
  s.localOrder
  pure ((s.modSeg s.cur e.name (fun e => e.write off.toNat (natBytes t.bytes (s.rd.ra d).toNat)
    (s.rd.aPoison.get false d.toNat))).touchSeg s.cur e.name))

/-! ### LDQ, LDQX (R185, R188, R189) -/

/-- The queues of a push are not bound, and have room (R187 rows 7 and 9). -/
def State.queuesFree (s : State) (ids : List Nat) : Except State Unit :=
  s.need (!ids.any s.boundQ) 3 .qBound 0
def State.queuesRoom (s : State) (ids : List Nat) : Except State Unit :=
  s.ready 3 (Ready.all (ids.map s.aRoom))

/-- Reserves an entry in each queue; the tickets. -/
def State.reserveAll (s : State) (ids : List Nat) : List (Nat × Nat) × State :=
  ids.foldl (fun (l, s) id => (l ++ [(id, s.fresh)], s.reserve id .load s.ctx.an)) ([], s)

/-- The unpack pattern of UPK (R188). -/
structure Unpack where
  per : Nat
  nf : Nat
  foff : Nat
  fst : Nat
  w : Nat
  sgn : Bool
  half : Bool
  deriving DecidableEq, Repr

/-- Bits that element `e` of an unpack reads from (R189). -/
def Unpack.bit (u : Unpack) (b e : Nat) : Nat := b + e / u.nf * u.per + u.foff + e % u.nf * u.fst
def Unpack.nout (u : Unpack) : Nat := if u.half then 32 else 16
def Unpack.osz (u : Unpack) : Nat := if u.half then 16 else 32

/-- UPK decoded for a start bit; none where LDQX raises BADUNPACK (R189). -/
def unpackOf (upk : Word) (b : Nat) : Option Unpack :=
  let u : Unpack := ⟨ufield upk 0 8, ufield upk 8 8, ufield upk 16 7, ufield upk 24 7, ufield upk 32 5 + 1,
    upk.getLsbD 37, ufield upk 38 2 == 1⟩
  if upk.getLsbD 23 || upk.getLsbD 31 || ufield upk 40 24 != 0 || decide (2 ≤ ufield upk 38 2) then none
  else if u.per = 0 ∨ 128 < u.per ∨ u.nf = 0 ∨ 128 < u.nf then none
  else if (1 < u.nf ∧ u.fst = 0) ∨ u.per < u.foff + (u.nf - 1) * u.fst + u.w ∨ u.osz < u.w ∨ 511 < b then none
  else if 512 < u.bit b (u.nout - 1) + u.w then none
  else some u

/-- The output of LDQX (R189). -/
def Unpack.apply (u : Unpack) (b : Nat) (blk : Vec) : Vec :=
  BitVec.ofNat 512 ((List.range u.nout).foldl (fun n e =>
    let v := blk.toNat / 2 ^ u.bit b e % 2 ^ u.w
    let x := if u.sgn ∧ 2 ^ (u.w - 1) ≤ v then 2 ^ u.osz - (2 ^ u.w - v) else v
    n + x * 2 ^ (u.osz * e)) 0)

/-- The vector that a load of 64 bytes delivers. -/
def deliver (unpack : Option (Word × Nat)) (blk : Vec) : Vec :=
  match unpack with
  | none => blk
  | some (upk, b) => match unpackOf upk b with
    | some u => u.apply b blk
    | none => blk

/-- A queue load, global: LDQ without and LDQX with an unpack pattern. -/
def State.loadQ (s : State) (q : InQ) (m : GMem) (va : Word) (unpack : Option (Word × Nat)) : Except State State := do
  s.live 3 m.a.areads
  let (pa, tl, s1) ← s.gCheck 3 va 64 .read
  s1.queuesFree q.ids
  s1.need (match unpack with | none => true | some (u, b) => (unpackOf u b).isSome) 3 .badUnpack 0
  s1.queuesRoom q.ids
  s1.budget
  let (dst, s2) := s1.reserveAll q.ids
  pure (s2.request (.queue dst unpack) pa 64 tl m.hint m.w m.ord m.scope)

/-- A queue load from a segment. -/
def State.loadQLocal (s : State) (q : InQ) (m : LMem) (off : Word) (unpack : Option (Word × Nat)) : Except State State := do
  s.live 3 m.a.areads
  let e ← s.segCheck 3 m.g off 64
  s.queuesFree q.ids
  s.need (match unpack with | none => true | some (u, b) => (unpackOf u b).isSome) 3 .badUnpack 0
  s.queuesRoom q.ids
  s.mustBeFull e off
  s.localOrder
  let v := deliver unpack (bytesVec (e.read off.toNat 64))
  let p := e.poisoned off.toNat 64
  let (dst, s1) := s.reserveAll q.ids
  pure ((dst.foldl (fun s d => s.modCtx (fun c => c.fill d.1 d.2 v p)) s1).touchSeg s.cur e.name)

/-- The bit start of LDQX: a[IDX] × scale, modulo 2^64 (R189; DESIGN CHOICE: the rule does not say whether the product wraps;
log entry 85). -/
def ARegs.bitStart (r : ARegs) (a : GAddr) : Nat := (r.ra a.idx * scaleOf a.sc).toNat

/-- LDQ (R185). -/
def execLdq (q : InQ) (m : GMem) (s : State) : Out := fin (s.loadQ q m (s.rd.addr m.a) none)
def execLdqLocal (q : InQ) (m : LMem) (s : State) : Out := fin (s.loadQLocal q m (s.rd.addr m.a) none)
/-- LDQX (R189): the pattern is read at issue. -/
def execLdqx (q : InQ) (m : GMem) (s : State) : Out :=
  fin (s.loadQ q m (s.rd.addrNoIdx m.a) (some (s.rd.upk, s.rd.bitStart m.a)))
def execLdqxLocal (q : InQ) (m : LMem) (s : State) : Out :=
  fin (s.loadQLocal q m (s.rd.addrNoIdx m.a) (some (s.rd.upk, s.rd.bitStart m.a)))

/-! ### STQ (R186) -/

/-- The head of a queue: its value and poison. -/
def State.headOf (s : State) (id : Nat) : Vec × Bool :=
  match (s.queue id).head? with
  | some e => (e.val.getD 0, e.poison)
  | none => (0, false)

/-- STQ, global form. -/
def execStq (q : OutQ) (m : GMem) (s : State) : Out := fin (do
  s.live 3 m.a.areads
  let (pa, tl, s1) ← s.gCheck 3 (s.rd.addr m.a) 64 .write
  s1.need (!s1.boundQ (q.id)) 3 .qBound 0
  s1.ready 3 (s1.aHead (q.id))
  s1.budget
  let (v, p) := s1.headOf (q.id)
  pure ((s1.modCtx (fun c => c.pop (q.id))).nextSeq.request (.store v p) pa 64 tl m.hint false m.ord m.scope))

/-- STQ, local form. -/
def execStqLocal (q : OutQ) (m : LMem) (s : State) : Out := fin (do
  let off := s.rd.addr m.a
  s.live 3 m.a.areads
  let e ← s.segCheck 3 m.g off 64
  s.need (!s.boundQ (q.id)) 3 .qBound 0
  s.ready 3 (s.aHead q.id)
  s.localOrder
  let (v, p) := s.headOf (q.id)
  pure (((s.modCtx (fun c => c.pop (q.id))).modSeg s.cur e.name
    (fun e => e.write off.toNat (vecBytes v) p)).touchSeg s.cur e.name))

/-! ### SHLD, SHST (R210) -/

/-- A class's shadows wait for an SHLD of that class. -/
def State.shadowBusy (s : State) (c : ShapeClass) : Bool :=
  s.reqs.any (fun q => q.ctx == s.cur && (match q.act with | .shadow d => d == c | _ => false))

/-- SHLD. -/
def execShld (c : ShapeClass) (a : GAddr) (hint : BitVec 2) (s : State) : Out := fin (do
  s.live 3 a.areads
  s.until (!s.shadowBusy c) .interlock
  let (pa, tl, s1) ← s.gCheck 3 (s.rd.addr a) 32 .read
  s1.budget
  pure ((s1.modCtx (fun x => x.noteWrote (shapeSRs c true))).request (.shadow c) pa 32 tl hint true .plain .ctx))

/-- SHST. -/
def execShst (c : ShapeClass) (a : GAddr) (hint : BitVec 2) (s : State) : Out := fin (do
  s.live 3 a.areads
  s.until (!s.shadowBusy c) .interlock
  let (pa, tl, s1) ← s.gCheck 3 (s.rd.addr a) 32 .write
  s1.budget
  let sh := (s.rd.shapes c).2
  let v : Nat := (List.range 4).foldl (fun n i => n + (sh.get 0 i).toNat * 2 ^ (64 * i)) 0
  let p := (List.range 4).any (fun i => s.rd.shPoison.get false (8 * c.no + 4 + i))
  pure (s1.nextSeq.request (.store (BitVec.ofNat 512 v) p) pa 32 tl hint false .plain .ctx))

/-! ### Requests performed (R199, R303) -/

def ReqAct.isStore : ReqAct → Bool
  | .store _ _ => true
  | .arrive _ _ => true
  | .trig => true
  | _ => false

/-- It writes global memory. -/
def ReqAct.writes : ReqAct → Bool
  | .store _ _ => true
  | _ => false

/-- A load waits for an earlier acquire of its context on a UN page, whose invalidation of the L1 it must meet (R179,
R307). -/
def State.staleL1 (s : State) (i : Nat) (r : Req) : Bool :=
  !r.act.isStore && r.kind != kindUN &&
  (s.reqs.take i).any (fun q => q.ctx == r.ctx && q.kind == kindUN && q.ord.acq && q.scope != .ctx)

/-- Whether request number `i` may be performed: no earlier one of its context must come first, a store does not wait at
the comparator (R404), and a load does not reach a frozen core (R381). -/
def State.mayPerform (s : State) (i : Nat) : Option Req :=
  match s.reqs[i]? with
  | none => none
  | some r =>
    if (s.reqs.take i).any (fun q => q.ctx == r.ctx && q.precedes r.pa r.width r.kind r.ord) || s.staleL1 i r ||
      (r.act.writes && s.cmpHeld) || (s.frozen && !r.act.isStore) then none
    else some r

/-- The data a load request reads, from the L1 or below it (R177). -/
def State.readFor (s : State) (r : Req) : List Byte × Bool × State :=
  if r.ord = .plain ∧ !r.w ∧ r.hint ≠ 3 ∧ r.kind = kindRC ∧ (inHbm r.pa || inNear r.pa) then
    s.l1Read r.pa r.width r.hint r.ten
  else s.physRead r.pa r.width r.hint r.ten (r.kind == kindUN)

/-- A load delivers its data. -/
def State.arrive (s : State) (r : Req) (bs : List Byte) (p : Bool) : State :=
  match r.act with
  | .areg d t => s.modAt r.ctx (fun c => { c with regs := c.regs.wa d (t.extend (bytesNat bs)) p })
  | .queue dst un => s.modAt r.ctx (fun c => dst.foldl (fun c d => c.fill d.1 d.2 (deliver un (bytesVec bs)) p) c)
  | .shadow cl => s.modAt r.ctx (fun c => { c with regs :=
      let (a, _) := c.regs.shapes cl
      let sh : Store Word := (List.range 4).foldl (fun m i =>
        m.set 0 i (BitVec.ofNat 64 (bytesNat bs / 2 ^ (64 * i)))) []
      { c.regs.setShapes cl (a, sh) with
        shPoison := (List.range 4).foldl (fun m i => m.set false (8 * cl.no + 4 + i) p) c.regs.shPoison } })
  | .store _ _ => s
  | .arrive _ _ | .trig => s

/-- Takes request `i` off the list. -/
def State.dropReq (s : State) (i : Nat) : State := { s with reqs := s.reqs.eraseIdx i }

/-- LOAD_DATA_ARRIVAL: the load numbered `i` reads its data, which reaches its register, queue entries or
shadows; an acquire then invalidates the L1 (R179, R182). -/
def State.loadArrived (s : State) (i : Nat) : State :=
  match s.mayPerform i with
  | none => s
  | some r =>
    if r.act.isStore then s
    else
      let (bs, p, s1) := s.readFor r
      ((s1.arrive r bs p).acquireL1 r.ord r.scope).dropReq i
def execLoadDataArrival (i : Nat) (s : State) : Out := .next (s.loadArrived i)

/-- The number of barrier `h` of a group (R313). -/
def barNo (g : Nat) (h : BitVec 6) : Nat := 64 * g + h.toNat
/-- An arrival: an atomic addition to a barrier (R313). -/
def State.arriveAt (s : State) (g : Nat) (h : BitVec 6) (v : Word) : State :=
  { s with bars := s.bars.set 0 (barNo g h) (s.bars.get 0 (barNo g h) + v) }

/-- The dispatcher counts a task as triggered, with the status it carries (R357). -/
def State.countTrigger (s : State) (t : Task) (st : Status) : State :=
  let n (l : Launch) : Nat := t.x + l.nx * t.y
  let p : Post := { part := t.part, job := t.job, jd := t.jd, jcb := t.ljcb, lvl := 5, status := .ok, cause := 0, ent := 0,
                    weight := 0, launch := t.launch, whole := false, raiseOnly := false }
  if s.launches.any (fun l => l.id == t.launch && l.trigd.contains (n l)) then s
  else { s with
    launches := s.launches.map (fun l => if l.id = t.launch then
      { l with trigd := l.trigd ++ [n l], trigSt := l.trigSt.max st } else l)
    posts := s.posts ++ [p] }

/-- STORE_PERFORMED: the store numbered `i` is performed at its home (R184), or the addition of a BARA (R314). -/
def State.storePerformed (s : State) (i : Nat) : State :=
  match s.mayPerform i with
  | none => s
  | some r => match r.act with
    | .store v p =>
      ((s.physWrite r.pa (natBytes r.width v.toNat) p r.hint r.ten (r.kind == kindUN)).feed ⟨r.ctx, r.key, 0⟩ r.pa r.width v).dropReq i
    | .arrive h v => (s.arriveAt (groupOf s.core.toNat) h v).dropReq i
    | .trig => (match (s.ctxAt r.ctx).task with
      | some t => s.countTrigger t .ok
      | none => s).dropReq i
    | _ => s
def execStorePerformed (i : Nat) (s : State) : Out := .next (s.storePerformed i)

end Sys2Proof.Machine
end

