-- ==== Sys2Proof/Machine/Atomics.lean ====
section
/-! DEFINITION. Read-modify-writes, the conditional multi-line store, FENCE and barriers
(R104 to R111, R312 to R315). -/

namespace Sys2Proof.Machine

/-! ### ATOM (R104 to R106) -/

/-- Scalar FADD and the lanes of vector FADD: nearest even, denormals honoured (R104). -/
def atomFaddLane (a b : Lane) : Lane := toF32 Prefix.default 0 (xadd .rne (f32 a) (f32 b))

/-- The new 64-bit element; FADD works on the low 32 bits. -/
def atomWord (op : AtomOp) (p : Nat) (cmp old v : Word) : Word :=
  match op with
  | .add => old + v
  | .min => if v.slt old then v else old
  | .max => if old.slt v then v else old
  | .wmin => if v.ult old then v else old
  | .wmax => if old.ult v then v else old
  | .and => old &&& v
  | .or => old ||| v
  | .xor => old ^^^ v
  | .swap => v
  | .cas => if old = cmp then v else old
  | .fadd => (atomFaddLane (old.setWidth 32) (v.setWidth 32)).setWidth 64
  | .qadd => qaddWord p old v

/-- The new 32-bit lane of the vector form. -/
def atomLane (op : AtomOp) (old v : Lane) : Lane :=
  match op with
  | .add => old + v
  | .min => if v.slt old then v else old
  | .max => if old.slt v then v else old
  | .wmin => if v.ult old then v else old
  | .wmax => if old.ult v then v else old
  | .and => old &&& v
  | .or => old ||| v
  | .xor => old ^^^ v
  | .fadd => atomFaddLane old v
  | .swap | .cas | .qadd => v

/-- The new block of the vector form. -/
def atomVec (op : AtomOp) (p : Nat) (old v : Vec) : Vec :=
  match op with
  | .qadd => mkWords (fun i => qaddWord p (word64 old i) (word64 v i))
  | _ => mkVec (fun l => atomLane op (lane old l) (lane v l))

/-- Width of the element in bytes. -/
def atomBytes (op : AtomOp) : AtomArg → Nat
  | .vector _ => 64
  | .scalar _ => if op = .fadd then 4 else 8

/-- The operand: an a-register, or the head of an output queue, with its poison. -/
def State.atomOperand (s : State) : AtomArg → Vec × Bool
  | .scalar d => ((s.rd.ra d).setWidth 512, false)
  | .vector q => s.headOf q.id

/-- The new bytes. -/
def atomNew (op : AtomOp) (x : AtomArg) (p : Nat) (cmp : Word) (old v : Vec) : List Byte :=
  match x with
  | .scalar _ => natBytes (atomBytes op x) (atomWord op p cmp (old.setWidth 64) (v.setWidth 64)).toNat
  | .vector _ => vecBytes (atomVec op p old v)

/-- The operand queue is not bound and its head is filled (R105). -/
def State.atomReady (s : State) : AtomArg → Except State Unit
  | .scalar _ => .ok ()
  | .vector q => do
    s.need (!s.boundQ q.id) 3 .qBound 0
    s.ready 3 (s.aHead q.id)

/-- Where the old value goes. -/
def State.atomEnd (s : State) (x : AtomArg) (old : Vec) (poison : Bool) : State :=
  match x with
  | .scalar d => (s.setA d (old.setWidth 64)).modRegs (fun r => r.wa d (old.setWidth 64) poison)
  | .vector q => s.modCtx (fun c => c.pop q.id)

/-- The vector form has no register for the poison of an old unit, and reports it as a read of an off layer (R105). -/
def State.atomReport (s : State) (x : AtomArg) (at_ : Word) : State :=
  match x with
  | .vector _ => s.report .layerOff at_
  | .scalar _ => s

/-- The prime selector of the context at A-half issue (R104). -/
def State.atomPrime (s : State) : Nat := primeOf (ufield s.rd.psel 0 4)

/-- The access performed in the slice, as one event (R104, R105). An operand entry that is poisoned leaves the
unit poisoned (log entry 20). -/
def State.atomAt (s : State) (op : AtomOp) (x : AtomArg) (m : GMem) (pa : Nat) (t : Tlb) : State :=
  let n := atomBytes op x
  let (bs, off, s1) := s.physRead pa n m.hint s.ctx.job.ten (t.kind == kindUN)
  let old := bytesVec bs
  let (v, vp) := s.atomOperand x
  if off then
    let s1 := if s.layerOff pa then s1 else s1.atomReport x (BitVec.ofNat 64 pa)
    (s1.atomEnd x old true).acquireL1 m.ord m.scope
  else
    let cmp := s.rd.ra m.a.idx
    let s2 := s1.nextSeq
    let s3 := s2.physWrite pa (atomNew op x s.atomPrime cmp old v) vp m.hint s.ctx.job.ten (t.kind == kindUN)
    ((s3.feed ⟨s.cur, s2.seqNo, 0⟩ pa n v).atomEnd x old false).acquireL1 m.ord m.scope

/-- The address of an ATOM: CAS takes no index (R104). -/
def atomAddr (op : AtomOp) (r : ARegs) (a : GAddr) : Word := if op = .cas then r.addrNoIdx a else r.addr a

/-- ATOM, global form. -/
def State.atom (s : State) (op : AtomOp) (x : AtomArg) (m : GMem) : Except State State := do
  s.live 3 (x.areads ++ m.a.areads)
  let (pa, t, s1) ← s.gCheck 3 (atomAddr op s.rd m.a) (atomBytes op x) .atomic
  s1.need (!(inHost pa || inJirum pa)) 3 .badAtom (atomAddr op s.rd m.a)
  s1.atomReady x
  s1.budget
  s1.inOrder pa (atomBytes op x) t.kind m.ord
  s1.until (!s1.cmpHeld) .engine
  pure (s1.atomAt op x m pa t)

/-- ATOM.ADD (R104). -/
def execAtomAdd (x : AtomArg) (m : GMem) (s : State) : Out := fin (s.atom .add x m)
/-- ATOM.MIN (R104). -/
def execAtomMin (x : AtomArg) (m : GMem) (s : State) : Out := fin (s.atom .min x m)
/-- ATOM.MAX (R104). -/
def execAtomMax (x : AtomArg) (m : GMem) (s : State) : Out := fin (s.atom .max x m)
/-- ATOM.WMIN (R104). -/
def execAtomWmin (x : AtomArg) (m : GMem) (s : State) : Out := fin (s.atom .wmin x m)
/-- ATOM.WMAX (R104). -/
def execAtomWmax (x : AtomArg) (m : GMem) (s : State) : Out := fin (s.atom .wmax x m)
/-- ATOM.AND (R104). -/
def execAtomAnd (x : AtomArg) (m : GMem) (s : State) : Out := fin (s.atom .and x m)
/-- ATOM.OR (R104). -/
def execAtomOr (x : AtomArg) (m : GMem) (s : State) : Out := fin (s.atom .or x m)
/-- ATOM.XOR (R104). -/
def execAtomXor (x : AtomArg) (m : GMem) (s : State) : Out := fin (s.atom .xor x m)
/-- ATOM.SWAP (R104). -/
def execAtomSwap (x : AtomArg) (m : GMem) (s : State) : Out := fin (s.atom .swap x m)
/-- ATOM.CAS (R104). -/
def execAtomCas (x : AtomArg) (m : GMem) (s : State) : Out := fin (s.atom .cas x m)
/-- ATOM.FADD (R104). -/
def execAtomFadd (x : AtomArg) (m : GMem) (s : State) : Out := fin (s.atom .fadd x m)
/-- ATOM.QADD (R104). -/
def execAtomQadd (x : AtomArg) (m : GMem) (s : State) : Out := fin (s.atom .qadd x m)

/-- ATOM, local form (R106, R167). -/
def execAtomLocal (op : AtomOp) (x : AtomArg) (m : LMem) (s : State) : Out := fin (do
  let off := atomAddr op s.rd m.a
  let n := atomBytes op x
  s.live 3 (x.areads ++ m.a.areads)
  let e ← s.segCheck 3 m.g off n
  s.atomReady x
  s.mustBeFull e off
  s.localOrder
  let old := bytesVec (e.read off.toNat n)
  let (v, vp) := s.atomOperand x
  let p := e.poisoned off.toNat n
  let new := atomNew op x s.atomPrime (s.rd.ra m.a.idx) old v
  let s1 := if p then s.atomReport x off else s.modSeg s.cur e.name (fun e => e.write off.toNat new vp)
  pure ((s1.atomEnd x old p).touchSeg s.cur e.name))

/-! ### CLRD, CMST, CMAB (R107 to R111) -/

/-- The watch set holds a line, with a watch at its slice or without one. -/
def Watch.holds (w : Watch) (line : Nat) : Bool := w.lines.any (·.1 == line) || w.bare.contains line

/-- The lines that contexts of this core watch in a slice, each once, and those of other cores. -/
def State.watchesIn (s : State) (slice : Nat) : Nat :=
  let mine := firstOfEach ((s.ctx.watch.lines ++ (s.others.map (fun c => c.2.watch.lines)).flatten).map (·.1))
  (mine.filter (fun l => s.homeSlice (128 * l) == slice)).length + s.l2Watches.get 0 slice

/-- A line joins the watch set (R107, R108). A line whose slice has no free watch joins too, unwatched, as R108 has every
line join; R107 says only that the set is marked (DEDUCED, log entry 61). -/
def State.watchLine (s : State) (pa : Nat) : State :=
  let line := pa / 128
  let w := s.ctx.watch
  let slice := s.homeSlice pa
  let w1 : Watch :=
    if w.holds line then w
    else
      let w := { w with split := w.split || ((w.lines.map (fun (x : Nat × Nat) => x.1)) ++ w.bare).any (fun l => s.homeSlice (128 * l) != slice) }
      if 4 ≤ w.lines.length + w.bare.length then { w with full := true }
      else if !s.watched line && decide (64 ≤ s.watchesIn slice) then { w with capacity := true, bare := w.bare ++ [line] }
      else { w with lines := w.lines ++ [(line, s.l2Version.get 0 line)] }
  s.modCtx (fun c => { c with watch := w1 })

/-- CLRD (R108, R111). -/
def execClrd (d : ClrdDst) (m : GMem) (s : State) : Out := fin (do
  let n := match d with | .queue _ => 64 | .reg _ => 8
  let ids := match d with | .queue q => q.ids | .reg _ => []
  s.live 3 m.a.areads
  let (pa, t, s1) ← s.gCheck 3 (s.rd.addr m.a) n .read
  s1.need (!(inHost pa || inJirum pa)) 3 .badAtom (s.rd.addr m.a)
  s1.queuesFree ids
  s1.queuesRoom ids
  s1.budget
  s1.inOrder pa n t.kind m.ord
  let (bs, p, s2) := s1.physRead pa n 0 s.ctx.job.ten (t.kind == kindUN)
  let s3 := s2.watchLine pa
  let s4 := match d with
    | .reg a => (s3.setA a (BitVec.ofNat 64 (bytesNat bs))).modRegs (fun r => r.wa a (BitVec.ofNat 64 (bytesNat bs)) p)
    | .queue _ =>
      let (dst, s4) := s3.reserveAll ids
      dst.foldl (fun (s : State) (q : Nat × Nat) => s.modCtx (fun c => c.fill q.1 q.2 (bytesVec bs) p)) s4
  pure (s4.acquireL1 m.ord m.scope))

/-- CMST, staging form (R109): a ninth write marks the buffer full. A write to a layer that is off is dropped at once,
with its report (R86, R111). -/
def execCmstStage (q : OutQ) (m : GMem) (s : State) : Out := fin (do
  s.live 3 m.a.areads
  let (pa, t, s1) ← s.gCheck 3 (s.rd.addr m.a) 64 .write
  s1.need (!(inHost pa || inJirum pa)) 3 .badAtom (s.rd.addr m.a)
  s1.need (!s1.boundQ q.id) 3 .qBound 0
  s1.ready 3 (s1.aHead q.id)
  let (v, p) := s1.headOf q.id
  if s1.layerOff pa then pure ((s1.modCtx (fun c => c.pop q.id)).dropAccess pa)
  else pure (s1.modCtx (fun c =>
    let w := c.watch
    let w := if 8 ≤ w.staged.length then { w with full := true } else { w with staged := w.staged ++ [⟨pa, v, p, t.kind⟩] }
    { c.pop q.id with watch := w })))

/-- The status of a commit: the first failing row, then the versions (R109). -/
def State.cmstStatus (s : State) : Nat :=
  let w := s.ctx.watch
  if w.lost then 2
  else if w.split then 3
  else if w.full then 4
  else if w.staged.any (fun x => !w.holds (x.pa / 128)) then 5
  else if w.lines.isEmpty && w.bare.isEmpty then 6
  else if w.capacity then 7
  else if w.lines.any (fun l => s.l2Version.get 0 l.1 != l.2) then 1
  else 0

/-- CMST, commit form (R109). Its writes are ordered as memory-slot accesses; it takes no fault (R111). -/
def execCmstCommit (d : AReg) (ord : MemOrd) (scope : Scope) (s : State) : Out := fin (do
  let w := s.ctx.watch
  s.budget
  s.until (!s.reqs.any (fun q => q.ctx == s.cur &&
    (w.staged.any (fun x => q.precedes x.pa 64 x.kind ord) || w.lines.any (fun l => q.precedes (128 * l.1) 128 kindRC ord) ||
     (q.kind != kindUN && (q.ord.acq || ord.rel))))) .engine
  let st := s.cmstStatus
  s.until (!(st == 0 && s.cmpHeld)) .engine
  let s1 := if st = 0 then
      (w.staged.zipIdx).foldl (fun s p => (s.physWrite p.1.pa (vecBytes p.1.val) p.1.poison 0 s.ctx.job.ten
        (p.1.kind == kindUN)).feed ⟨s.cur, s.seqNo, p.2⟩ p.1.pa 64 p.1.val) s.nextSeq
    else s
  pure (((s1.modCtx (fun c => { c with watch := Watch.zero })).setA d (BitVec.ofNat 64 st)).acquireL1 ord scope))

/-- CMAB (R110). -/
def execCmab (s : State) : Out := .next (s.modCtx (fun c => { c with watch := Watch.zero }))

/-! ### FENCE (R312) -/

/-- The requests a fence waits for: reads, or all; on UN pages only at scope sys. -/
def State.fenceWaits (s : State) (ord : MemOrd) (scope : Scope) : Bool :=
  s.reqs.any (fun q => q.ctx == s.cur && (scope == .sys || q.kind != kindUN) && (ord.rel || !q.act.isStore))

/-- FENCE. -/
def execFence (ord : MemOrd) (scope : Scope) (s : State) : Out := fin (do
  s.until (!s.fenceWaits ord scope) .engine
  let s1 := s.acquireL1 ord scope
  pure (if scope = .sys then s1.dropUn else s1))

/-! ### Barriers (R313 to R315) -/

/-- BARA: a release whose addition comes after its earlier accesses (R314). -/
def execBara (h : BitVec 6) (a : AReg) (scope : Scope) (s : State) : Out := fin (do
  s.live 0 [a]
  let q : Req := { id := s.fresh, ctx := s.cur, act := .arrive h (s.rd.ra a), pa := 2 ^ 60, width := 0, kind := kindRC,
                   hint := 0, w := false, ord := .release, scope := scope, ten := 0, key := 0 }
  pure { s.bump with reqs := s.reqs ++ [q] })

/-- BARW: blocks until the count has reached the target, then is an acquire (R315). -/
def execBarw (h : BitVec 6) (a : AReg) (scope : Scope) (s : State) : Out := fin (do
  s.live 0 [a]
  let cnt := s.bars.get 0 (barNo (groupOf s.core.toNat) h)
  s.until (decide (0 ≤ (cnt - s.rd.ra a).toInt)) .barrier
  pure (s.acquireL1 .acquire scope))

end Sys2Proof.Machine
end

