-- ==== Sys2Proof/Machine/Convert.lean ====
section
/-! DEFINITION. Conversions: the CVT family, E2M1B blocks (R214 to R216, R225 to R229). -/

namespace Sys2Proof.Machine

/-- The prefix in force for the X-half bundle (R222). -/
def State.xp (s : State) : Prefix := s.ctx.xpfx

/-- CVT between FP32 and 32-bit integers (R225). -/
def execCvt (c : CvtOp) (o : V1) (s : State) : Out :=
  match c with
  | .f32i32 => .next (s.lane1 .fm 2 .int o (fun l a => toF32 s.xp (s.laneDraw o.h l) (XVal.ofInt a.toInt)))
  | .i32f32 => .next (s.lane1 .fm 2 .fp o (fun l a => encodeInt s.xp (s.laneDraw o.h l) true 32 (f32 a).toX))
  | .f32w32 => .next (s.lane1 .fm 2 .int o (fun l a => toF32 s.xp (s.laneDraw o.h l) (XVal.ofInt a.toNat)))
  | .w32f32 => .next (s.lane1 .fm 2 .fp o (fun l a => encodeInt s.xp (s.laneDraw o.h l) false 32 (f32 a).toX))

/-- The floating-point format a narrow suffix names. -/
def narrowFmt : NarrowFmt → Option FFmt
  | .bf16 => some bf16
  | .f16 => some fp16
  | .e4m3 => some e4m3
  | .e5m2 => some e5m2
  | .i8 => none
def narrowBits : NarrowFmt → Nat
  | .bf16 | .f16 => 16
  | _ => 8

/-- Element n of a vector of `w`-bit elements (R204). -/
def elem (v : Vec) (w n : Nat) : Nat := v.toNat / 2 ^ (w * n) % 2 ^ w
/-- A vector of `512 / w` elements of `w` bits. -/
def mkElems (w : Nat) (f : Nat → Nat) : Vec :=
  BitVec.ofNat 512 ((List.range (512 / w)).foldr (fun n acc => f n % 2 ^ w + acc * 2 ^ w) 0)

/-- A widened element as FP32 or .i32: exact; only NZ acts (R226). -/
def widen (f : NarrowFmt) (nz : Bool) (bits : Nat) : Lane :=
  match narrowFmt f with
  | some ff => toF32 ⟨.rne, .ieee, nz⟩ 0 (ff.decode bits).toX
  | none => (BitVec.ofNat 8 bits).signExtend 32

/-- The widening conversions (R226). -/
def execCvtWiden (f : NarrowFmt) (o : V1) (part : BitVec 2) (s : State) : Out :=
  let a := s.src o.h.cl .int o.a
  .next (s.lane1 .fm 2 .int o (fun l _ => widen f s.xp.nz (elem a (narrowBits f) (16 * part.toNat + l))))

/-- A narrowed lane (R227). -/
def narrow (f : NarrowFmt) (p : Prefix) (draw : Nat) (a : Lane) : Nat :=
  match narrowFmt f with
  | some ff => ff.encode p draw (f32 a).toX
  | none => (satInt p.sat (-128) 127 8 a.toInt : BitVec 8).toNat

/-- The narrowing conversions: sixteen elements of one part of a copy of C (R227). -/
def execCvtNarrow (f : NarrowFmt) (h : VHd) (d : VDst) (a c : VSrc) (part : BitVec 2) (s : State) : Out :=
  let va := s.src h.cl (if f = .i8 then .int else .fp) a
  let vc := s.src h.cl .int c
  let w := narrowBits f
  let res := mkElems w (fun n =>
    if 16 * part.toNat ≤ n ∧ n < 16 * part.toNat + 16 then
      narrow f s.xp (s.laneDraw h (n - 16 * part.toNat)) (lane va (n - 16 * part.toNat))
    else elem vc w n)
  .next (s.vslot h (.vec d) [a, c] .fm 2 (s.guard h) (.plain res))

/-! ### E2M1B (R214, R215, R228, R229) -/

/-- Twice the magnitude of a code's low three bits (R214). -/
def e2mag2 : Nat → Nat
  | 0 => 0 | 1 => 1 | 2 => 2 | 3 => 3 | 4 => 4 | 5 => 6 | 6 => 8 | _ => 12

/-- An exact finite fraction ± n/d. -/
structure Frac where
  neg : Bool
  n : Nat
  d : Nat
  deriving DecidableEq, Repr

/-- A decoded value as a fraction; NaN and infinity have none. -/
def FVal.toFrac : FVal → Option Frac
  | .fin n m e => some (if 0 ≤ e then ⟨n, m * 2 ^ e.toNat, 1⟩ else ⟨n, m, 2 ^ (-e).toNat⟩)
  | _ => none

/-- a ≤ b of magnitudes. -/
def Frac.leMag (a b : Frac) : Bool := decide (a.n * b.d ≤ b.n * a.d)

/-- The smallest s ≥ −127 with amax ≤ 6 · 2^s, and 0 where amax = 0 (R228). -/
def blockScale (amax : Frac) : Int :=
  if amax.n = 0 then 0
  else
    let base : Int := (amax.n.log2 : Int) - (amax.d.log2 : Int) - 4
    let ok (s : Int) : Bool :=
      if 0 ≤ s then decide (amax.n ≤ 6 * 2 ^ s.toNat * amax.d) else decide (amax.n * 2 ^ (-s).toNat ≤ 6 * amax.d)
    let i : Nat := ((List.range 8).find? (fun (i : Nat) => ok (base + (i : Int)))).getD 7
    max (-127) (base + (i : Int))

/-- x · 2^(−s), doubled: the fraction that is compared with the doubled code magnitudes. -/
def Frac.scaled2 (x : Frac) (s : Int) : Frac :=
  if 0 ≤ s then ⟨x.neg, 2 * x.n, x.d * 2 ^ s.toNat⟩ else ⟨x.neg, 2 * x.n * 2 ^ (-s).toNat, x.d⟩

/-- The code index to which a doubled magnitude of at most 12 rounds (R228). -/
def roundCode (rm : RM) (draw : Nat) (y : Frac) : Nat :=
  let lo := ((List.range 8).filter (fun i => decide (e2mag2 i * y.d ≤ y.n))).getLastD 0
  if e2mag2 lo * y.d = y.n ∨ lo = 7 then lo
  else
    let hi := lo + 1
    let twice := 2 * y.n
    let mid := (e2mag2 lo + e2mag2 hi) * y.d
    match rm with
    | .rne => if twice < mid then lo else if mid < twice then hi else if lo % 2 = 0 then lo else hi
    | .rtz => lo
    | .rdn => if y.neg then hi else lo
    | .rup => if y.neg then lo else hi
    | .rna => if twice < mid then lo else hi
    | .rsr =>
      if draw * ((e2mag2 hi - e2mag2 lo) * y.d) < (y.n - e2mag2 lo * y.d) * 2 ^ 32 then hi else lo

/-- The distance from a doubled value to its code, as a fraction. -/
def codeErr (y : Frac) (code : Nat) : Frac :=
  let q := e2mag2 code * y.d
  ⟨false, if q ≤ y.n then y.n - q else q - y.n, y.d⟩

/-- A quantised block: 32 codes and the header (R215, R228). `draw e` rounds element e, `drawS` the special. -/
def quantise (rm : RM) (draw : Nat → Nat) (drawS : Nat) (x : List (Option Frac)) : List Nat × Nat :=
  if x.any (·.isNone) then (List.replicate 32 0, 0x7FFF)
  else
    let xs : List Frac := x.map (·.getD ⟨false, 0, 1⟩)
    let amax := xs.foldl (fun m y => if m.leMag y then y else m) ⟨false, 0, 1⟩
    let s := blockScale amax
    let ys := xs.map (·.scaled2 s)
    let qs := (ys.zipIdx).map (fun y => roundCode rm (draw y.2) y.1)
    let errs := (ys.zip qs).map (fun y => codeErr y.1 y.2)
    let k := ((errs.zipIdx).foldl (fun (b : Frac × Nat) e => if e.1.leMag b.1 then b else e) (errs.headD ⟨false, 0, 1⟩, 0)).2
    let codes := ((ys.zip qs).zipIdx).map (fun y =>
      if y.2 = k then 8 else if y.1.2 = 0 then 0 else y.1.2 + (if y.1.1.neg then 8 else 0))
    let yk := ys.getD k ⟨false, 0, 1⟩
    let special := e4m3.encode ⟨rm, .ieee, false⟩ drawS
      (if yk.n = 0 then .zero yk.neg else .mag yk.neg (.rat yk.n (2 * yk.d)))
    (codes, (s + 127).toNat + 256 * special)

/-- The exact value of a code under a header (R215). -/
def dequant (code hdr : Nat) : FVal :=
  let scale := hdr % 256
  let shift : Int := (scale : Int) - 127
  if scale = 255 then .nan
  else if code = 8 then
    match e4m3.decode (hdr / 256 % 256) with
    | .fin n m e => .fin n m (e + shift)
    | x => x
  else .fin (decide (8 ≤ code)) (e2mag2 (code % 8)) (shift - 1)

/-- QNT.e2m1b (R228). -/
def execQntE2m1b (o : V2) (s : State) : Out :=
  let a := s.src o.h.cl .fp o.a
  let b := s.src o.h.cl .fp o.b
  let x : List (Option Frac) := (List.range 32).map (fun e => FVal.toFrac (f32 (if e < 16 then lane a e else lane b (e - 16))))
  let c := o.h.cl.toNat
  let (codes, hdr) := quantise s.xp.rm
    (fun e => if e < 16 then s.draw (16 * c + e) else s.draw (128 + 16 * c + (e - 16))) (s.draw (256 + c)) x
  let res := mkElems 4 (fun n => if n < 32 then codes.getD n 0 else if n < 40 then hdr / 16 ^ (n - 32) % 16 else 0)
  .next (s.vslot o.h (.vec o.d) [o.a, o.b] .fm 2 (s.guard o.h) (.plain res))

/-- DQNT.e2m1b (R229). -/
def execDqntE2m1b (o : V2) (sel : BitVec 6) (s : State) : Out :=
  let a := s.src o.h.cl .int o.a
  let b := s.src o.h.cl .int o.b
  let h := sel.toNat % 2
  let q := sel.toNat / 2 % 4
  let m := sel.toNat / 8
  let hdr := elem b 16 (4 * m + q)
  .next (s.vslot o.h (.vec o.d) [o.a, o.b] .fm 2 (s.guard o.h)
    (.plain (mkVec (fun l => toF32 s.xp (s.laneDraw o.h l) (dequant (elem a 4 (32 * q + 16 * h + l)) hdr).toX))))

end Sys2Proof.Machine
end

