-- ==== Sys2Proof/Machine/Engine.lean ====
section
/-! DEFINITION. What the engines share: tensor handles and tiles, and reads and writes of 64-byte units at any
end of an engine operation (R80, R86 to R95, R151, R196, R254). -/

namespace Sys2Proof.Machine

/-! ### Formats (R88, R151) -/

/-- Bits of an element; 4 for E2M1B, whose headers stand apart. -/
def fmtBits : ElemFmt → Nat
  | .f32 | .i32 | .w32 => 32
  | .f16 | .bf16 => 16
  | .e4m3 | .e5m2 | .i8 | .w8 => 8
  | .e2m1b => 4
  | .q64 => 64

/-- Bytes that a count of elements takes in canonical packing. -/
def fmtBytes (f : ElemFmt) (n : Nat) : Nat := if f = .e2m1b then n / 2048 * 1152 else n * fmtBits f / 8
/-- Elements in a count of bytes. -/
def fmtCount (f : ElemFmt) (bytes : Nat) : Nat := if f = .e2m1b then bytes / 1152 * 2048 else bytes * 8 / fmtBits f

/-! ### Tensors (R87 to R91) -/

/-- A tile found through a handle: its format and shape, its size, and where it lies. -/
structure Tile where
  fmt : ElemFmt
  ltx : Nat
  lty : Nat
  tb : Nat
  /-- In the host or Jirum range: a physical address; else a virtual address of ASID 0. -/
  far : Bool
  at_ : Nat
  deriving DecidableEq, Repr

/-- What a lookup of the Felt in ASID 0 meets: what it asks for, a miss that waits (R75), or a fault at an address. -/
inductive Look (α : Type) where
  | ok (a : α) (s : State)
  | waits (s : State)
  | fault (c : Cause) (at_ : Word) (s : State)

/-- A run of `n` bytes at a virtual address of ASID 0 as the Felt looks it up, through the slices in the system class. One
that is not served is reported and faults as `off` says (R86, R88, R101, R112). -/
def State.sysAt (s : State) (va : Word) (n : Nat) (staging : Bool) (off : Cause) : Look Nat :=
  if !s.walkServed 0 va staging then .waits (s.noteMiss 0 va staging)
  else match s.translate 0 s.sysRootOf va .system with
    | (.fault c, s1) => .fault c va s1
    | (.ok pa t, s1) => if s1.layerOff pa then .fault off va (s1.dropAccess pa) else .ok pa (s1.feltLines pa n 0 (t.kind == 2))
/-- The same in another partition, whose translations this core does not hold. -/
def State.sysAtOf (s : State) (p : BitVec 3) (va : Word) (n : Nat) (staging : Bool) (off : Cause) : Look Nat :=
  if p = s.part then s.sysAt va n staging off
  else match s.walk 0 (s.sysRoot.get 0 p.toNat) va with
    | .leaf t =>
      let pa := t.pa + (va.toNat - t.va)
      if s.layerOff pa then .fault off va (s.dropAccess pa) else .ok pa (s.feltLines pa n 0 (t.kind == 2))
    | .absent => .fault .pgAbsent va s
    | .bad => .fault .pteBad va s
/-- DT is set before the Felt writes at a virtual address of ASID 0 of a partition (R73). -/
def State.sysDirty (s : State) (p : BitVec 3) (va : Word) : State :=
  if p = s.part then (s.translate 0 s.sysRootOf va .systemWrite).2
  else match s.walk 0 (s.sysRoot.get 0 p.toNat) va with
    | .leaf t => s.markWritten t
    | .absent | .bad => s

/-- Where a tensor descriptor of a partition stands (R88). -/
def State.descVa (s : State) (p : BitVec 3) (idx : Nat) : Word := s.barAt p.toNat 0x10500 + BitVec.ofNat 64 (64 * idx)
/-- The eight words of a tensor descriptor of a partition, and where it lies. One that no layer serves counts as one that is
not bound (DESIGN CHOICE: the spec does not name the case; log entry 58). -/
def State.descriptorOf (s : State) (p : BitVec 3) (idx : Nat) (staging : Bool) : Look (List Word × Nat) :=
  match s.sysAtOf p (s.descVa p idx) 64 staging .stale with
  | .ok pa s' => .ok ((List.range 8).map (fun i => s'.memWord (pa + 8 * i)), pa) s'
  | .waits s' => .waits s'
  | .fault c a s' => .fault c a s'
/-- One of this core's partition, looked up on demand. -/
def State.descriptor (s : State) (idx : Nat) : Look (List Word × Nat) := s.descriptorOf s.part idx false

/-- TB of R89. -/
def tileBytes (f : ElemFmt) (l : Nat) : Nat :=
  if f = .e2m1b then 1152 * 2 ^ (l - 11) else 2 ^ l * fmtBits f / 8

/-- A map entry of a mapped tensor (R91): cached, or read now. One that no layer serves counts as absent (DESIGN CHOICE: the
spec does not name the case; log entry 58). -/
def State.mapEntry (s : State) (h : Word) (map : Word) (n : Nat) (staging : Bool) : Look Word :=
  match s.mapCache.find? (fun m => m.part == s.part && m.handle == h && m.tile == n) with
  | some m => .ok m.entry s
  | none => match s.sysAt (map + BitVec.ofNat 64 (8 * n)) 8 staging .tileAbsent with
    | .ok pa s' =>
      let e := s'.memWord pa
      .ok e { s' with mapCache := ⟨s.part, h, n, e⟩ :: s'.mapCache }
    | .waits s' => .waits s'
    | .fault c a s' => .fault c (if c = .tileAbsent then h else a) s'

/-- What a descriptor gives of a tensor. -/
structure Tensor where
  fmt : ElemFmt
  ltx : Nat
  lty : Nat
  tb : Nat
  words : List Word
  deriving DecidableEq, Repr

/-- The tensor that a handle names (R87 to R89). -/
def State.tensorOf (s : State) (h : Word) (staging : Bool) : Look Tensor :=
  if ufield h 20 44 != 0 then .fault .badHandle h s
  else match s.descriptorOf s.part (ufield h 0 12) staging with
    | .waits s1 => .waits s1
    | .fault c a s1 => .fault c a s1
    | .ok (d, _) s1 =>
      let w : Word := d.getD 0 0
      if !w.getLsbD 1 || ufield w 8 8 != ufield h 12 8 then .fault .stale h s1
      else
        let fmt := (decodeFmt (BitVec.ofNat 4 (ufield w 4 4))).getD .f32
        .ok ⟨fmt, ufield w 16 4, ufield w 20 4, tileBytes fmt (ufield w 16 4 + ufield w 20 4), d⟩ s1

/-- A tile by handle and packed coordinates (R87 to R91). -/
def State.tileOf (s : State) (h coords : Word) (staging : Bool) : Look Tile :=
  match s.tensorOf h staging with
  | .waits s1 => .waits s1
  | .fault c a s1 => .fault c a s1
  | .ok t s1 =>
    let w (i : Nat) : Word := t.words.getD i 0
    let nx := ufield (w 2) 0 20
    let ny := ufield (w 2) 20 20
    let nz := ufield (w 2) 40 20
    let tx := ufield coords 0 20
    let ty := ufield coords 20 20
    let tz := ufield coords 40 20
    if ufield coords 60 4 != 0 || decide (nx ≤ tx) || decide (ny ≤ ty) || decide (nz ≤ tz) then .fault .bounds h s1
    else
      let n := (tz * ny + ty) * nx + tx
      let loc : Tile := ⟨t.fmt, t.ltx, t.lty, t.tb, false, (w 1).toNat + n * t.tb⟩
      if !(w 0).getLsbD 2 then .ok loc s1
      else match s1.mapEntry h (w 3) n staging with
        | .waits s2 => .waits s2
        | .fault c a s2 => .fault c a s2
        | .ok e s2 =>
          let pa := e.toNat / 128 % 2 ^ 45 * 128
          match ufield e 0 2 with
          | 0 => .ok loc s2
          | 3 => .fault .tileAbsent h s2
          | k => if ufield e 2 5 != 0 || ufield e 52 12 != 0 || (if k = 1 then !inHost pa else !inJirum pa)
            then .fault .bounds h s2 else .ok ⟨t.fmt, t.ltx, t.lty, t.tb, true, pa⟩ s2

/-! ### One 64-byte unit at an end of an engine operation -/

/-- What an engine meets at a unit. -/
inductive UnitRes (α : Type) where
  | ok (a : α) (s : State)
  /-- Nothing yet: an empty line, a segment being recalled or moved to a spare, a page or tile parked. -/
  | later (s : State)
  /-- A fault that is not restartable. -/
  | bad (c : Cause) (s : State)

/-- A fault of an engine access: served causes are parked in the fault table (R80). -/
def State.unitFault {α : Type} (s : State) (who : ParkedBy) (j : JobDesc) (va : Word) (c : Cause) : UnitRes α :=
  match c.kind with
  | .served =>
    if s.parked.any (fun p => p.denied && p.by_ == who && p.va == va && p.cause == c) then .bad .pgPerm s
    else .later (s.park who va c j)
  | _ => .bad c s

/-- The segment of an own end is resident, or its recall is requested (R122). -/
def State.unitSeg {α : Type} (s : State) (ctx : BitVec 2) (name : BitVec 16) (f : SegEntry → UnitRes α) : UnitRes α :=
  match s.seg ctx name with
  | none => .bad .noSeg s
  | some e => if e.here then f e else .later (s.requestRecall ctx [name])

/-- Reads a 64-byte unit of a segment; `full` where an empty line is waited for (R152). -/
def State.readSegUnit (s : State) (ctx : BitVec 2) (name : BitVec 16) (off : Nat) (full : Bool) : UnitRes (Vec × Bool) :=
  s.unitSeg ctx name (fun e =>
    if full && e.isEmpty (off / 128) then .later (s.wantSeg e)
    else .ok (bytesVec (e.read off 64), e.poisoned off 64) (s.touchSeg ctx name))

/-- The operation is one of the dispatcher's staging (R75). -/
def State.stagingBy (s : State) (who : ParkedBy) : Bool := s.staging.any (fun c => who == .copy c.id)
/-- Where an access of an engine goes: a miss that no walker serves waits, with its slot in the budget (R75). -/
def State.pageOf (s : State) (who : ParkedBy) (j : JobDesc) (va : Word) (acc : Access) : UnitRes (Nat × Tlb) :=
  if !s.walkServed j.asid va (s.stagingBy who) then .later (s.noteMiss j.asid va (s.stagingBy who))
  else match s.translate j.asid j.root va acc with
    | (.fault c, s1) => s1.unitFault who j va c
    | (.ok pa t, s1) => .ok (pa, t) s1

/-- Reads a 64-byte unit of global memory of a job. -/
def State.readGlobUnit (s : State) (who : ParkedBy) (j : JobDesc) (va : Word) (hint : BitVec 2) : UnitRes (Vec × Bool) :=
  match s.pageOf who j va .read with
  | .ok (pa, t) s1 =>
    let (bs, p, s2) := s1.physRead pa 64 hint j.ten (t.kind == 2)
    .ok (bytesVec bs, p) s2
  | .later s1 => .later s1
  | .bad c s1 => .bad c s1

/-- Writes a 64-byte unit of global memory of a job. -/
def State.writeGlobUnit (s : State) (who : ParkedBy) (j : JobDesc) (va : Word) (v : Vec) (p : Bool) (hint : BitVec 2)
    (k : Option WriteKey) : UnitRes Unit :=
  match s.pageOf who j va .write with
  | .later s1 => .later s1
  | .bad c s1 => .bad c s1
  | .ok (pa, t) s1 => .ok () ((s1.physWrite pa (vecBytes v) p hint j.ten (t.kind == 2)).feedBy k pa 64 v)

/-- The number of a tile of a local tensor, above those of the blocks of HBM4 (R83). -/
def tileBlock (part : BitVec 3) (h coords : Word) : Nat :=
  2 ^ 26 + 4 * (8 * (4096 * (coords.toNat % 2 ^ 60) + ufield h 0 12) + part.toNat)
/-- The number under which a die counts accesses to a tile. -/
def tileCountKey (die : Nat) (part : BitVec 3) (h coords : Word) : Nat := tileBlock part h coords + die
/-- Counts an access to a tile. -/
def State.noteTile (s : State) (h coords : Word) : State :=
  let k := tileCountKey (dieOf s.core.toNat) s.part h coords
  { s with nsCount := s.nsCount.set 0 k (Nat.min 255 (s.nsCount.get 0 k + 1)) }

/-- A sealed address belongs to the tensor of a handle (R93). -/
def State.sealedFor (s : State) (h va : Word) : Bool :=
  s.bound.any (fun b => b.part == s.part && b.idx == ufield h 0 12 && decide (b.base ≤ va.toNat ∧ va.toNat < b.base + b.size))

/-- The physical address of unit `k` of a tile (R93): pages of ASID 0, under kind RC. -/
def State.tileUnit (s : State) (who : ParkedBy) (h coords : Word) (k : Nat) (acc : Access) : UnitRes (Nat × Tile) :=
  let sys : JobDesc := ⟨s.sysRootOf, 0, 0, 0, 0⟩
  match s.tileOf h coords (s.stagingBy who) with
  | .waits s1 => .later s1
  | .fault c a s1 => s1.unitFault who sys a c
  | .ok t s1 =>
    if t.far then .ok (t.at_ + 64 * k, t) s1
    else
      let va : Word := BitVec.ofNat 64 (t.at_ + 64 * k)
      match s1.pageOf who sys va acc with
      | .later s2 => .later s2
      | .bad c s2 => .bad c s2
      | .ok (pa, tl) s2 =>
        if tl.sl && !s2.sealedFor h va then .bad .sealed s2 else .ok (pa, t) (s2.noteTile h coords)

/-- Reads unit `k` of a tile. -/
def State.readTileUnit (s : State) (who : ParkedBy) (h coords : Word) (k : Nat) (hint : BitVec 2) (ten : BitVec 4) :
    UnitRes (Vec × Bool) :=
  match s.tileUnit who h coords k .tensorRead with
  | .ok (pa, _) s1 =>
    let (bs, p, s2) := s1.physRead pa 64 hint ten false
    .ok (bytesVec bs, p) s2
  | .later s1 => .later s1
  | .bad c s1 => .bad c s1

/-- Writes unit `k` of a tile. -/
def State.writeTileUnit (s : State) (who : ParkedBy) (h coords : Word) (k : Nat) (v : Vec) (p : Bool) (hint : BitVec 2)
    (ten : BitVec 4) (key : Option WriteKey) : UnitRes Unit :=
  match s.tileUnit who h coords k .tensorWrite with
  | .ok (pa, _) s1 => .ok () ((s1.physWrite pa (vecBytes v) p hint ten false).feedBy key pa 64 v)
  | .later s1 => .later s1
  | .bad c s1 => .bad c s1

/-! ### Element values (R123, R151, R211 to R218) -/

/-- A decoded element: a float, an integer, or a rational word. -/
inductive Elem where
  | flt (x : FVal)
  | int (i : Int)
  | rat (w : Word)
  deriving DecidableEq, Repr

/-- An element of a format, from its bits. -/
def elemOf (f : ElemFmt) (b : Nat) : Elem :=
  match f with
  | .f32 => .flt (fp32.decode b)
  | .f16 => .flt (fp16.decode b)
  | .bf16 => .flt (bf16.decode b)
  | .e4m3 => .flt (e4m3.decode b)
  | .e5m2 => .flt (e5m2.decode b)
  | .e2m1b => .flt (.fin false 0 0)
  | .i8 => .int (BitVec.ofNat 8 b).toInt
  | .i32 => .int (BitVec.ofNat 32 b).toInt
  | .w8 => .int (b % 256)
  | .w32 => .int (b % 2 ^ 32)
  | .q64 => .rat (BitVec.ofNat 64 b)

/-- The exact value, and whether a decode failed (R123, R280). -/
def Elem.exact (p : Nat) : Elem → XVal × Bool
  | .flt x => (x.toX, false)
  | .int i => (XVal.ofInt i, false)
  | .rat w => match qdecode p w with
    | some (n, d) => (ratX n d, false)
    | none => (.nan, true)

/-- The exact value as a fraction for the quantiser; none for NaN and infinity, which it treats alike here. -/
def Elem.frac (p : Nat) : Elem → Option Frac × Bool
  | .flt x => (x.toFrac, false)
  | .int i => (some ⟨decide (i < 0), i.natAbs, 1⟩, false)
  | .rat w => match qdecode p w with
    | some (n, d) => (some ⟨decide (n < 0), n.natAbs, d⟩, false)
    | none => (none, true)

/-- The float format of an element format. -/
def floatFmt : ElemFmt → Option FFmt
  | .f32 => some fp32
  | .f16 => some fp16
  | .bf16 => some bf16
  | .e4m3 => some e4m3
  | .e5m2 => some e5m2
  | _ => none

/-- An element rounded to a format other than E2M1B (R123): its bits, and whether a decode failed. -/
def Elem.to (e : Elem) (f : ElemFmt) (pfx : Prefix) (draw : Nat) (p : Nat) : Nat × Bool :=
  match f with
  | .q64 => match e with
    | .flt x => ((qencFloat p x).toNat, false)
    | .int i => ((qword p i).toNat, false)
    | .rat w => (w.toNat, false)
  | .i8 => let (x, b) := e.exact p; ((encodeInt pfx draw true 8 x).toNat, b)
  | .i32 => let (x, b) := e.exact p; ((encodeInt pfx draw true 32 x).toNat, b)
  | .w8 => let (x, b) := e.exact p; ((encodeInt pfx draw false 8 x).toNat, b)
  | .w32 => let (x, b) := e.exact p; ((encodeInt pfx draw false 32 x).toNat, b)
  | f => let (x, b) := e.exact p; (((floatFmt f).getD fp32).encode pfx draw x, b)

end Sys2Proof.Machine
end

