-- ==== Sys2Proof/Machine/Copies.lean ====
section
/-! DEFINITION. Copies: issue, the units they write, completion, waiting and cancelling, and the release of
parked accesses (R80, R81, R115 to R132, R341, R427). -/

namespace Sys2Proof.Machine

/-! ### Geometry -/

/-- Rows a copy moves. -/
structure Rows where
  n : Nat
  s : Int
  d : Int
  deriving DecidableEq, Repr

/-- Destination bytes per row after conversion (R119). -/
def convBytes (sf df : ElemFmt) (len : Nat) : Nat := fmtBytes df (fmtCount sf len)
/-- The element counts that E2M1B requires, and a whole number of 64-byte units (R119, R123). -/
def convOk (sf df : ElemFmt) (len : Nat) : Bool :=
  (sf != .e2m1b || len % 1152 == 0) && (df != .e2m1b || fmtCount sf len % 2048 == 0) && convBytes sf df len % 64 == 0
/-- q64 to an integer format cannot be converted (R123). -/
def badConv (sf df : ElemFmt) : Bool :=
  sf == .q64 && (df == .i8 || df == .i32 || df == .w8 || df == .w32)

/-- Every byte of every row lies inside `limit` bytes. -/
def rowsInside (off : Int) (n : Nat) (str : Int) (len : Nat) (limit : Nat) : Bool :=
  let last := off + (n - 1 : Int) * str
  decide (0 ≤ off ∧ off + len ≤ limit ∧ 0 ≤ last ∧ last + len ≤ limit)

/-! ### Checks at issue, in the order of R427 -/

/-- Row 3: the shape. A poisoned shape is consumed (R380). -/
def State.copyRows (s : State) (o : CopyOpt) : Except State Rows := do
  if o.sh then
    let w := s.rd.csh.get 0 o.csh.toNat
    s.need (!s.rd.shPoison.get false (8 * ShapeClass.no .csh + o.csh.toNat)) 4 .poison 0
    s.need (ufield w 0 16 != 0) 4 .badShape 0
    pure ⟨ufield w 0 16, sfield w 16 24, sfield w 40 24⟩
  else pure ⟨1, 0, 0⟩
/-- Row 4: the length. -/
def State.copyLen (s : State) (len : Word) : Except State Unit :=
  s.need (decide (64 ≤ len.toNat ∧ len.toNat ≤ 1048576) && len.toNat % 64 == 0) 4 .badLen 0
/-- Rows 5 and 6 for a global operand: bits [63:56] of every row, then alignment. -/
def State.copyGlob (s : State) (va : Word) (n : Nat) (str : Int) (len : Nat) : Except State Unit := do
  s.need (rowsInside va.toNat n str len (2 ^ 56)) 4 .badAddr va
  s.need (va.toNat % 64 == 0 && str % 64 == 0) 4 .misalign va
/-- Rows 5 and 6 for a segment of the core: name, alignment, every byte inside. -/
def State.copySeg (s : State) (g : GReg) (off : Word) (n : Nat) (str : Int) (len : SegEntry → Nat) :
    Except State SegEntry := do
  let e ← s.own 4 g
  s.need (decide (0 ≤ off.toInt) && off.toNat % 64 == 0 && str % 64 == 0) 4 .misalign off
  s.need (rowsInside off.toInt n str (len e) (128 * e.size)) 4 .segBound off
  pure e
/-- Whether the context has a copy in flight under a CID. -/
def State.cidBusy (s : State) (i : BitVec 2) (cid : BitVec 4) : Bool :=
  s.copies.any (fun c => c.ctx == i && c.cid == some cid)
/-- Rows 9 and 10: pins, then the engine. -/
def State.copyAdmit (s : State) (names : List (BitVec 16)) (cid : BitVec 4) : Except State Unit := do
  s.mayPin 4 names
  s.until (decide (s.copies.countP (fun c => c.cid.isSome) < 16) && !s.cidBusy s.cur cid) .queue

/-- A copy of the running context, as accepted (R116). -/
def State.newCopy (s : State) (cid : BitVec 4) (kind : CopyKind) (src dst : CopyEnd) (r : Rows) (len : Nat) (be : Bool)
    (bar : BitVec 6) (hint : BitVec 2) (conv : Option (ElemFmt × ElemFmt)) (drow : Nat) (known : Bool) : Copy :=
  { id := s.fresh, ctx := s.cur, cid := some cid, kind := kind, src := src, dst := dst, nrow := r.n, len := len,
    sstr := r.s, dstr := r.d, be := be, bar := bar, pfx := s.ctx.apfx, psel := s.rd.psel, rseed := s.rd.rseed,
    hint := hint, task := s.ctx.task, done := 0, parked := [], fault := none, peerPin := false, after := s.fresh, gid := 0, op := .fadd,
    ord := 0, word := 0, entry := none, seqNo := s.seqNo + 1, conv := conv, drow := drow, known := known, result := none,
    rpoison := [], got := [] }

/-- The job descriptor a copy's names are resolved under (R148). -/
def Copy.jobVa (c : Copy) : Word := match c.task with | some t => t.jd | none => 0

/-- The peer segment of a copy resolves. -/
def State.peerThere (s : State) (c : Copy) : Bool :=
  match c.dst with
  | .peer core name _ => (s.peerSeg core name c.jobVa).isSome
  | _ => false
/-- The engine accepts a copy: its pins are taken (R122, R162). -/
def State.accept (s : State) (c : Copy) : State :=
  let held := s.peerThere c
  let s := s.pin c.ctx c.names
  let s := match c.dst with
    | .peer core name _ => if held then s.modPeerSeg core name c.jobVa (fun e => { e with cpins := e.cpins + 1 }) else s
    | _ => s
  (({ s with copies := s.copies ++ [{ c with peerPin := held }] }).nextSeq).bump

def pairOf (sf df : ElemFmt) : Option (ElemFmt × ElemFmt) := if sf = df then none else some (sf, df)

/-- CPSS (R124). -/
def execCpss (sg dg : GReg) (sa da len : AReg) (o : CopyOpt) (s : State) : Out := fin (do
  s.live 4 [sa, da, len]
  let r ← s.copyRows o
  s.copyLen (s.rd.ra len)
  let n := (s.rd.ra len).toNat
  let a ← s.copySeg sg (s.rd.ra sa) r.n r.s (fun _ => n)
  let dlen (e : SegEntry) : Nat := if a.fmt = e.fmt then n else convBytes a.fmt e.fmt n
  let b ← s.copySeg dg (s.rd.ra da) r.n r.d dlen
  s.need (a.fmt == b.fmt || convOk a.fmt b.fmt n) 4 .badLen 0
  s.need (!badConv a.fmt b.fmt) 4 .badConv 0
  s.copyAdmit [a.name, b.name] o.cid
  pure (s.accept (s.newCopy o.cid .seg (.own s.cur a.name (s.rd.ra sa).toNat) (.own s.cur b.name (s.rd.ra da).toNat) r n
    o.be o.bar 0 (pairOf a.fmt b.fmt) (dlen b) true)))

/-- CPSP (R124): the peer's side is checked by the engine (R119, R427). -/
def execCpsp (mbr : BitVec 3) (sg dg : GReg) (sa da len : AReg) (o : CopyOpt) (s : State) : Out := fin (do
  s.live 4 [sa, da, len]
  let r ← s.copyRows o
  s.copyLen (s.rd.ra len)
  let n := (s.rd.ra len).toNat
  let a ← s.copySeg sg (s.rd.ra sa) r.n r.s (fun _ => n)
  s.copyAdmit [a.name] o.cid
  pure (s.accept (s.newCopy o.cid .peer (.own s.cur a.name (s.rd.ra sa).toNat)
    (.peer (coreAt (groupOf s.core.toNat) mbr.toNat) (s.rd.rg dg) (s.rd.ra da)) r n o.be o.bar 0 none n false)))

/-- CPGS (R124). -/
def execCpgs (hint : BitVec 2) (dg : GReg) (sa da len : AReg) (o : CopyOpt) (s : State) : Out := fin (do
  s.live 4 [sa, da, len]
  let r ← s.copyRows o
  s.copyLen (s.rd.ra len)
  let n := (s.rd.ra len).toNat
  s.copyGlob (s.rd.ra sa) r.n r.s n
  let b ← s.copySeg dg (s.rd.ra da) r.n r.d (fun _ => n)
  s.copyAdmit [b.name] o.cid
  pure (s.accept (s.newCopy o.cid .load (.glob (s.rd.ra sa)) (.own s.cur b.name (s.rd.ra da).toNat) r n o.be o.bar hint
    none n true)))

/-- CPSG (R124). -/
def execCpsg (hint : BitVec 2) (sg : GReg) (sa da len : AReg) (o : CopyOpt) (s : State) : Out := fin (do
  s.live 4 [sa, da, len]
  let r ← s.copyRows o
  s.copyLen (s.rd.ra len)
  let n := (s.rd.ra len).toNat
  let a ← s.copySeg sg (s.rd.ra sa) r.n r.s (fun _ => n)
  s.copyGlob (s.rd.ra da) r.n r.d n
  s.copyAdmit [a.name] o.cid
  pure (s.accept (s.newCopy o.cid .store (.own s.cur a.name (s.rd.ra sa).toNat) (.glob (s.rd.ra da)) r n o.be o.bar hint
    none n true)))

/-- Bytes that the segment side of a tensor copy holds (R125), as the descriptor that the handle names stands at issue;
64 where there is none: the engine then ends the copy by the handle's fault. -/
def State.tensorSide (s : State) (h : Word) (e : SegEntry) : Nat :=
  match s.tensorOf h false with
  | .ok d _ => if e.fmt = d.fmt then d.tb else Nat.max 64 (fmtBytes e.fmt (fmtCount d.fmt d.tb))
  | .waits _ | .fault _ _ _ => 64

/-- CPTS (R125): the segment side is checked at issue, as any of the core (R119); handle and coordinates are checked by
the engine. -/
def execCpts (hint : BitVec 2) (dg : GReg) (sa da len : AReg) (o : CopyOpt) (s : State) : Out := fin (do
  s.live 4 [sa, da, len]
  let b ← s.copySeg dg (s.rd.ra da) 1 0 (s.tensorSide (s.rd.ra sa))
  s.copyAdmit [b.name] o.cid
  pure (s.accept (s.newCopy o.cid .tileIn (.tile (s.rd.ra sa) (s.rd.ra len)) (.own s.cur b.name (s.rd.ra da).toNat)
    ⟨1, 0, 0⟩ 0 o.be o.bar hint none 0 false)))

/-- CPST (R125), checked as CPTS. -/
def execCpst (hint : BitVec 2) (sg : GReg) (sa da len : AReg) (o : CopyOpt) (s : State) : Out := fin (do
  s.live 4 [sa, da, len]
  let a ← s.copySeg sg (s.rd.ra sa) 1 0 (s.tensorSide (s.rd.ra da))
  s.copyAdmit [a.name] o.cid
  pure (s.accept (s.newCopy o.cid .tileOut (.own s.cur a.name (s.rd.ra sa).toNat) (.tile (s.rd.ra da) (s.rd.ra len))
    ⟨1, 0, 0⟩ 0 o.be o.bar hint none 0 false)))

/-- CPWARM (R126). -/
def execCpwarm (hint : BitVec 2) (sa len : AReg) (o : CopyOpt) (s : State) : Out := fin (do
  s.live 4 [sa, len]
  let r ← s.copyRows o
  s.copyLen (s.rd.ra len)
  let n := (s.rd.ra len).toNat
  s.copyGlob (s.rd.ra sa) r.n r.s n
  s.copyAdmit [] o.cid
  pure (s.accept (s.newCopy o.cid .warm (.glob (s.rd.ra sa)) .none r n o.be o.bar hint none n true)))

/-- CPFILL (R127). -/
def execCpfill (dg : GReg) (sa da len : AReg) (o : CopyOpt) (s : State) : Out := fin (do
  s.live 4 [sa, da, len]
  let r ← s.copyRows o
  s.copyLen (s.rd.ra len)
  let n := (s.rd.ra len).toNat
  let b ← s.copySeg dg (s.rd.ra da) r.n r.d (fun _ => n)
  s.copyAdmit [b.name] o.cid
  pure (s.accept (s.newCopy o.cid .fill (.pat (s.rd.ra sa)) (.own s.cur b.name (s.rd.ra da).toNat) r n o.be o.bar 0
    none n true)))

/-! ### The engine resolves what issue could not (R119, R125) -/

/-- Formats, lengths and bounds of a pair that the engine checks. -/
def Copy.settle (c : Copy) (sf df : ElemFmt) (len : Nat) : Except Cause Copy :=
  if sf = df then .ok { c with len := len, conv := none, drow := len, known := true }
  else if !convOk sf df len then .error .badLen
  else if badConv sf df then .error .badConv
  else .ok { c with len := len, conv := some (sf, df), drow := convBytes sf df len, known := true }

/-- A copy with what is known of its size, though it fails a check: formats and source bytes per row. -/
def Copy.sizedAs (c : Copy) (sf df : ElemFmt) (len : Nat) : Copy :=
  let whole := sf = df ∨ ((sf = .e2m1b → len % 1152 = 0) ∧ (df = .e2m1b → fmtCount sf len % 2048 = 0))
  { c with len := len, drow := if sf = df then len else convBytes sf df len, known := decide whole }
/-- What a copy that ends at its engine-side checks posts and poisons: its size, where its formats are to be found
(R128). Where they are not (a handle without a descriptor, a peer name that does not resolve), the byte count is a free
value (log entry 4). -/
def State.sized (s : State) (c : Copy) : Copy :=
  match c.src, c.dst with
  | .own i a _, .peer core name _ => match s.seg i a, s.peerSeg core name c.jobVa with
    | some ea, some eb => c.sizedAs ea.fmt eb.fmt c.len
    | _, _ => { c with known := false }
  | .tile h _, .own i b _ => match s.tensorOf h false, s.seg i b with
    | .ok d _, some eb => c.sizedAs d.fmt eb.fmt d.tb
    | _, _ => { c with known := false }
  | .own i a _, .tile h _ => match s.tensorOf h false, s.seg i a with
    | .ok d _, some ea =>
      { c.sizedAs d.fmt d.fmt d.tb with len := if ea.fmt = d.fmt then d.tb else fmtBytes ea.fmt (fmtCount d.fmt d.tb) }
    | _, _ => { c with known := false }
  | _, _ => c

/-- A core of the group is being moved to a spare: this one, or another (R124, R381, R382). -/
def State.coreMoving (s : State) (core : Nat) : Bool :=
  if core = s.core.toNat then s.frozen else s.peers.any (fun p => p.core == core && p.moving)

/-- A copy whose engine-side checks are made. -/
def State.resolve (s : State) (c : Copy) : UnitRes Copy :=
  let close (r : Except Cause Copy) (limit : Option Nat) (off : Nat) (len : Copy → Nat) (s : State) : UnitRes Copy :=
    match r with
    | .error e => .bad e s
    | .ok c' => match limit with
      | some l => if rowsInside off c'.nrow c'.dstr (len c') l then .ok c' s else .bad .segBound s
      | none => .ok c' s
  match c.src, c.dst with
  | .own i a _, .peer core name off =>
    if s.coreMoving core then .later s
    else match s.seg i a, s.peerSeg core name c.jobVa with
      | some ea, some eb =>
      if off.toNat % 64 ≠ 0 ∨ c.dstr % 64 ≠ 0 then .bad .misalign s
      else close (c.settle ea.fmt eb.fmt c.len) (some (128 * eb.size)) off.toNat (·.drow) s
      | _, _ => .bad .segBound s
  | .tile h co, .own i b off => match s.tileOf h co (s.stagingBy (.copy c.id)) with
    | .waits s1 => .later s1
    | .fault e a s1 => s1.unitFault (.copy c.id) ⟨s1.sysRootOf, 0, 0, 0, 0⟩ a e
    | .ok t s1 => match s1.seg i b with
      | some eb => close (c.settle t.fmt eb.fmt t.tb) (some (128 * eb.size)) off (·.drow) s1
      | none => .bad .noSeg s1
  | .own i a off, .tile h co => match s.tileOf h co (s.stagingBy (.copy c.id)) with
    | .waits s1 => .later s1
    | .fault e a s1 => s1.unitFault (.copy c.id) ⟨s1.sysRootOf, 0, 0, 0, 0⟩ a e
    | .ok t s1 => match s1.seg i a with
      | some ea =>
        let len := if ea.fmt = t.fmt then t.tb else fmtBytes ea.fmt (fmtCount t.fmt t.tb)
        if ea.fmt = .e2m1b ∧ t.fmt ≠ .e2m1b ∧ fmtCount t.fmt t.tb % 2048 ≠ 0 then .bad .badLen s1
        else close (c.settle ea.fmt t.fmt len) (some (128 * ea.size)) off (fun c => c.len) s1
      | none => .bad .noSeg s1
  | _, _ => .ok { c with known := true } s

/-! ### One destination unit -/

/-- Units per row and in all. -/
def Copy.rowUnits (c : Copy) : Nat := c.drow / 64
def Copy.total (c : Copy) : Nat := c.nrow * c.rowUnits
/-- The destination bytes of a copy; a warm counts none (R126). -/
def Copy.bytes (c : Copy) : Nat := if c.kind = .warm then 0 else c.nrow * c.drow

/-- Offset of unit `n` from the destination's start. -/
def Copy.dstOff (c : Copy) (n : Nat) : Int := (n / c.rowUnits : Nat) * c.dstr + (64 * (n % c.rowUnits) : Nat)

/-- The job a copy belongs to. -/
def Copy.job (c : Copy) : JobDesc := (c.task.map (·.job)).getD Task.zeroJob

/-- Reads source unit `k` of a row. -/
def State.readSrc (s : State) (c : Copy) (row k : Nat) : UnitRes (Vec × Bool) :=
  let rel : Int := row * c.sstr + (64 * k : Nat)
  match c.src with
  | .own i name off => s.readSegUnit i name (off + rel).toNat true
  | .glob va => s.readGlobUnit (.copy c.id) c.job (va + BitVec.ofInt 64 rel) c.hint
  | .tile h co => s.readTileUnit (.copy c.id) h co k c.hint c.job.ten
  | .pat w => .ok (splat64 w, false) s
  | .none | .peer _ _ _ => .ok (0, false) s

/-- The first and last element of a destination unit of a converting row. -/
def unitElems (df : ElemFmt) (u : Nat) : Nat × Nat :=
  if df = .e2m1b then
    let g := 2048 * (u / 18)
    match u % 18 with
    | 16 => (g, 1024)
    | 17 => (g + 1024, 1024)
    | w => (g + 128 * w, 128)
  else (u * (512 / fmtBits df), 512 / fmtBits df)

/-- The source units that hold `n` elements from `e` on. -/
def elemUnits (sf : ElemFmt) (e n : Nat) : List Nat :=
  let span (a b : Nat) : List Nat := (List.range ((b + 63) / 64 - a / 64)).map (fun i => a / 64 + i)
  if sf = .e2m1b then
    let g := 1152 * (e / 2048)
    let r := e % 2048
    firstOfEach (span (g + r / 2) (g + (r + n + 1) / 2) ++ span (g + 1024 + 2 * (r / 32)) (g + 1024 + 2 * ((r + n + 31) / 32)))
  else span (e * fmtBits sf / 8) ((e + n) * fmtBits sf / 8)

/-- Reads a list of source units; stops at the first that is not there. -/
def State.readUnits (s : State) (c : Copy) (row : Nat) : List Nat → UnitRes (List (Nat × Vec) × Bool)
  | [] => .ok ([], false) s
  | k :: r => match s.readSrc c row k with
    | .ok (v, p) s1 => match s1.readUnits c row r with
      | .ok (l, q) s2 => .ok ((k, v) :: l, p || q) s2
      | .later s2 => .later s2
      | .bad e s2 => .bad e s2
    | .later s1 => .later s1
    | .bad e s1 => .bad e s1

/-- `n` bytes at offset `b` of the units read. -/
def unitsNat (l : List (Nat × Vec)) (b n : Nat) : Nat :=
  (Store.get 0 l (b / 64)).toNat / 2 ^ (8 * (b % 64)) % 2 ^ (8 * n)

/-- Element `e` of a source row. -/
def elemAt (sf : ElemFmt) (l : List (Nat × Vec)) (e : Nat) : Elem :=
  if sf = .e2m1b then
    let g := 1152 * (e / 2048)
    let r := e % 2048
    let code := unitsNat l (g + r / 2) 1 / 16 ^ (r % 2) % 16
    .flt (dequant code (unitsNat l (g + 1024 + 2 * (r / 32)) 2))
  else elemOf sf (unitsNat l (e * fmtBits sf / 8) (fmtBits sf / 8))

/-- A block of 32 elements quantised: its codes, its header, and whether a decode failed (R123, R228). -/
def Copy.block (c : Copy) (l : List (Nat × Vec)) (sf : ElemFmt) (row e : Nat) : (List Nat × Nat) × Bool :=
  let p := primeOf (ufield c.psel 0 4)
  let per := fmtCount sf c.len
  let x := (List.range 32).map (fun i => (elemAt sf l (e + i)).frac p)
  let draw (i : Nat) : Nat := drawOf c.rseed (2 ^ 63 + row * per + e + i)
  let drawS : Nat := drawOf c.rseed (2 ^ 63 + 2 ^ 62 + (row * per + e) / 32)
  (quantise c.pfx.rm draw drawS (x.map (·.1)), x.any (·.2))

/-- The content of a destination unit of a converting copy, and whether a decode failed. -/
def Copy.convert (c : Copy) (sf df : ElemFmt) (l : List (Nat × Vec)) (row u : Nat) : Vec × Bool :=
  let (e, n) := unitElems df u
  if df = .e2m1b then
    let blocks := (List.range (n / 32)).map (fun b => c.block l sf row (e + 32 * b))
    let bad := blocks.any (·.2)
    if u % 18 < 16 then
      (BitVec.ofNat 512 ((List.range 128).foldl (fun a i =>
        a + ((blocks.getD (i / 32) (([], 0), false)).1.1.getD (i % 32) 0) * 16 ^ i) 0), bad)
    else
      (BitVec.ofNat 512 ((List.range 32).foldl (fun a i =>
        a + ((blocks.getD i (([], 0), false)).1.2) * 65536 ^ i) 0), bad)
  else
    let p := primeOf (ufield c.psel 0 4)
    let per := fmtCount sf c.len
    let w := fmtBits df
    let xs := (List.range n).map (fun i =>
      (elemAt sf l (e + i)).to df c.pfx (drawOf c.rseed (2 ^ 63 + row * per + e + i)) p)
    (BitVec.ofNat 512 (((xs.zipIdx).map (fun x => x.1.1 * 2 ^ (w * x.2))).sum), xs.any (·.2))

/-- A destination unit's content: value, poison, and whether a decode failed. -/
def State.unitValue (s : State) (c : Copy) (n : Nat) : UnitRes (Vec × Bool × Bool) :=
  let row := n / c.rowUnits
  let u := n % c.rowUnits
  match c.result with
  | some bs => .ok (bytesVec ((bs.drop (64 * n)).take 64), c.rpoison.getD n false, false) s
  | none => if c.kind = .reduce ∨ c.kind = .bcast then
      (match c.got.find? (fun x => x.no == n) with
      | some x => .ok (x.val, x.poison, false) s
      | none => .later s)
    else match c.conv with
    | none => match s.readSrc c row u with
      | .ok (v, p) s1 => .ok (v, p, false) s1
      | .later s1 => .later s1
      | .bad e s1 => .bad e s1
    | some (sf, df) =>
      let (e, k) := unitElems df u
      match s.readUnits c row (elemUnits sf e k) with
      | .ok (l, p) s1 =>
        let (v, bad) := c.convert sf df l row u
        .ok (v, p, bad) s1
      | .later s1 => .later s1
      | .bad e s1 => .bad e s1

/-- Whether unit `n` has been written, once the units below `done` are but for those parked. -/
def Copy.written (c : Copy) (n : Nat) : Bool := decide (n < c.done) && !c.parked.contains n

/-- Every unit of the copy in the line of unit `n`, but `n` itself, has been written (R120). -/
def Copy.lineDone (c : Copy) (off : Nat) (n : Nat) : Bool :=
  let line (m : Nat) : Int := ((off : Int) + c.dstOff m) / 128
  let near : List Nat := if c.nrow = 1 then [n - 1, n + 1] else List.range c.total
  near.all (fun m => m == n || decide (c.total ≤ m) || line m != line n || c.written m)

/-- Writes a segment unit and, where the copy's part of its line is complete, sets the full bit (R120). -/
def SegEntry.put (e : SegEntry) (off : Nat) (v : Vec) (p full : Bool) : SegEntry :=
  let e := e.write off (vecBytes v) p
  if full then e.setFull (off / 128) true else e

/-- Writes a destination unit. -/
def State.writeDst (s : State) (c : Copy) (n : Nat) (v : Vec) (p : Bool) : UnitRes Unit :=
  match c.dst with
  | .own i name off =>
    let o := ((off : Int) + c.dstOff n).toNat
    -- a frozen core is written after its move (R382)
    if s.frozen then .later s
    else s.unitSeg i name (fun e =>
      if c.entry.isSome && !e.isEmpty (o / 128) then .ok () s
      else .ok () ((s.modSeg i name (fun e => e.put o v p (c.lineDone off n))).touchSeg i name))
  | .peer core name off =>
    let o := ((off.toNat : Int) + c.dstOff n).toNat
    let jd := c.jobVa
    if s.coreMoving core then .later s
    else match s.peerSeg core name jd with
      | some _ => .ok () (s.modPeerSeg core name jd (fun e => e.put o v p (c.lineDone off.toNat n)))
      | none => .bad .segBound s
  | .glob va => if s.cmpHeld then .later s
    else s.writeGlobUnit (.copy c.id) c.job (va + BitVec.ofInt 64 (c.dstOff n)) v p c.hint (some ⟨c.ctx, c.seqNo, n⟩)
  | .tile h co => if s.cmpHeld then .later s
    else s.writeTileUnit (.copy c.id) h co n v p c.hint c.job.ten (some ⟨c.ctx, c.seqNo, n⟩)
  | .none | .pat _ => .ok () s

/-- QRO in a write of QCTL that is still to take effect. -/
def XWrite.setQro : Nat × XWrite → Nat × XWrite
  | (n, .qctl v) => (n, .qctl (qctlSet v false true))
  | w => w
/-- Sets QRO of a context, as the writes of QCTL that it has issued leave it. -/
def Ctx.setQro (c : Ctx) : Ctx :=
  { c with qctl := qctlSet c.qctl false true, xpend := c.xpend.map XWrite.setQro
           aside := c.aside.map (fun a => { a with xpend := a.xpend.map XWrite.setQro }) }
/-- Sets QRO of the issuing context where a decode failed (R123, R207); staging has none (R132). -/
def State.noteQro (s : State) (c : Copy) (bad : Bool) : State :=
  if bad && c.cid.isSome then s.modAt c.ctx Ctx.setQro else s

/-- The address that a warm's unit `n` reads. -/
def Copy.warmAt (c : Copy) (n : Nat) (va : Word) : Word :=
  va + BitVec.ofInt 64 ((n / c.rowUnits : Nat) * c.sstr + (64 * (n % c.rowUnits) : Nat))
def State.isStaging (s : State) (c : Copy) : Bool := s.staging.any (fun d => d.id == c.id)
/-- The miss of a warm's unit, and whether a walker serves it (R75). -/
def State.warmMiss (s : State) (c : Copy) (n : Nat) : State :=
  match c.src with
  | .glob va => s.noteMiss c.job.asid (c.warmAt n va) (s.isStaging c)
  | _ => s
def State.warmServed (s : State) (c : Copy) (n : Nat) : Bool :=
  match c.src with
  | .glob va => s.walkServed c.job.asid (c.warmAt n va) (s.isStaging c)
  | _ => true

/-- Warms the line of unit `n`; a page that faults is skipped (R126), and an entry's warm skips a layer that is off without
a report (R341). -/
def State.warmUnit (s : State) (c : Copy) (n : Nat) : State :=
  match c.src with
  | .glob va => match s.translate c.job.asid c.job.root (c.warmAt n va) .read with
    | (.ok pa t, s1) =>
      if s1.layerOff pa then (if c.cid.isSome || s1.flitLost then s1.dropAccess pa else s1)
      else (s1.noteAccess pa).l2Access pa c.hint c.job.ten (t.kind == 2) false
    | (.fault _, s1) => s1
  | _ => s

/-- Unit `n` of a staging copy or a refill lies in a line that is full: it is neither read nor written (R341). -/
def State.unitFull (s : State) (c : Copy) (n : Nat) : Bool :=
  match c.dst with
  | .own i name off => c.entry.isSome && (s.seg i name).any (fun e => !e.isEmpty (((off : Int) + c.dstOff n).toNat / 128))
  | _ => false

/-- Performs destination unit `n`. -/
def State.unit (s : State) (c : Copy) (n : Nat) : UnitRes Unit :=
  if c.kind = .warm then (if s.warmServed c n then .ok () (s.warmUnit c n) else .later (s.warmMiss c n))
  else if s.unitFull c n then .ok () s
  else match s.unitValue c n with
    | .ok (v, p, bad) s1 => match s1.writeDst c n v p with
      | .ok _ s2 => .ok () (s2.noteQro c bad)
      | .later s2 => .later s2
      | .bad e s2 => .bad e s2
    | .later s1 => .later s1
    | .bad e s1 => .bad e s1

/-! ### The lists of copies -/

/-- Copies of the engine by number: program copies first, then staging copies. -/
def State.copyNo (s : State) (i : Nat) : Option Copy := (s.copies ++ s.staging)[i]?
def State.putCopy (s : State) (c : Copy) : State :=
  let f (d : Copy) : Copy := if d.id = c.id then c else d
  { s with copies := s.copies.map f, staging := s.staging.map f }
def State.dropCopy (s : State) (c : Copy) : State :=
  { s with copies := s.copies.filter (fun d => d.id != c.id), staging := s.staging.filter (fun d => d.id != c.id)
           parked := s.parked.filter (fun p => p.by_ != .copy c.id) }

/-- A staging copy parks nothing: a fault abandons its entry (R132, R341). -/
def State.settleParked (s s0 : State) (c : Copy) : State × Option Cause :=
  match s.parked.find? (fun p => p.by_ == .copy c.id) with
  | some p => if s0.staging.any (fun d => d.id == c.id) then ({ s with parked := s0.parked }, some p.cause) else (s, none)
  | none => (s, none)

/-- The unit a copy does next: the lowest not tried, else the first parked whose destination no earlier parked
unit writes. -/
def Copy.nextUnit (c : Copy) (skip : List Nat) : Option Nat :=
  if c.done < c.total then some c.done
  else c.parked.find? (fun n => !skip.contains n && !c.parked.any (fun m => decide (m < n) && c.dstOff m == c.dstOff n))

/-- A unit written is a grant of the engine: staging that waits is owed one in eight, and the program copies of the contexts
take turns (R131, R340). -/
def State.granted (s : State) (c : Copy) : State :=
  let staging := s.staging.any (fun d => d.id == c.id)
  { s with grants := if s.staging.isEmpty || staging then 0 else Nat.min 7 (s.grants + 1)
           copyTurn := if staging then s.copyTurn else c.ctx }

/-- A unit tried: written, set aside, or the end of the copy. -/
def State.tryUnit (s : State) (c : Copy) (n : Nat) : State :=
  let fresh := decide (c.done ≤ n)
  let held := fresh && c.parked.any (fun m => c.dstOff m == c.dstOff n)
  let aside : Copy := if fresh then { c with done := n + 1, parked := c.parked ++ [n] } else c
  if held then s.putCopy aside
  -- the absent segments of a copy are asked for in one request (R165)
  else match (s.requestRecall c.ctx c.names).unit c n with
    | .ok _ s1 =>
      (s1.putCopy (if fresh then { c with done := n + 1 } else { c with parked := c.parked.filter (· != n) })).granted c
    | .later s1 => match s1.settleParked s c with
      | (s2, some e) => s2.putCopy { c with fault := some e }
      | (s2, none) => s2.putCopy aside
    | .bad e s1 => s1.putCopy { c with fault := some e }

/-- Retries parked units until one is written. -/
def State.retry (s : State) (id : Nat) : List Nat → State
  | [] => s
  | n :: r => match (s.copies ++ s.staging).find? (fun c => c.id == id) with
    | none => s
    | some c =>
      if c.parked.any (fun m => decide (m < n) && c.dstOff m == c.dstOff n) then s.retry id r
      else
        let t := s.tryUnit c n
        match (t.copies ++ t.staging).find? (fun c => c.id == id) with
        | some c' => if c'.parked = c.parked ∧ c'.fault = none then t.retry id r else t
        | none => t

/-- The copy may start: earlier memory-slot accesses of its context are performed (R116). -/
def State.mayStart (s : State) (c : Copy) : Bool := !s.reqs.any (fun q => q.ctx == c.ctx && decide (q.id < c.after))

/-- COPY_UNIT_WRITE: the copy numbered `i` does its next unit (R120 to R124). -/
def State.copyStep (s : State) (i : Nat) : State :=
  match s.copyNo i with
  | none => s
  | some c =>
    if c.fault.isSome || !s.mayStart c || c.kind == .enq || ((c.kind == .reduce || c.kind == .bcast) && c.result.isNone && c.got.isEmpty)
    then s
    else if !c.known then match s.resolve c with
      | .ok c' s1 => s1.putCopy c'
      | .later s1 => match s1.settleParked s c with
        | (s2, some e) => s2.putCopy { s2.sized c with fault := some e }
        | (s2, none) => s2
      | .bad e s1 => s1.putCopy { s1.sized c with fault := some e }
    else if c.done < c.total then s.tryUnit c c.done
    else s.retry c.id c.parked

/-- The anchored segment of this core that a peer's copy names (R148). -/
def State.inPeer (s : State) (u : PeerUnit) : Option SegEntry := s.peerSeg s.core.toNat u.name u.job
/-- A unit that a group peer's copy writes into an anchored segment of this core (R122, R148); held while the core is
frozen (R382). Its first unit takes the copy's pin. -/
def State.peerWrite (s : State) (u : PeerUnit) : State :=
  match s.inPeer u with
  | none => s
  | some e =>
    if s.frozen || !e.here || u.off % 64 != 0 || decide (128 * e.size < u.off + 64) then s
    else { s.modPeerSeg s.core.toNat u.name u.job (fun e =>
             { e.put u.off u.val u.poison u.full with cpins := e.cpins + (if u.first then 1 else 0), touched := s.fresh }) with
           fresh := s.fresh + 1 }
def execCopyUnitWrite (c : CopyFrom) (s : State) : Out :=
  .next (match c with
    | .own i => s.copyStep i
    | .peer u => s.peerWrite u)

/-! ### The end of a copy (R120, R128, R129) -/

/-- The context's record of its first faulted copy (R128). -/
def State.recordFault (s : State) (c : Copy) (e : Cause) : State :=
  let id := match c.cid, c.entry with
    | some i, _ => i.toNat
    | none, some n => n + 16
    | none, none => 0
  (s.modAt c.ctx (fun x => if x.regs.cpcause = 0 then
    { x with regs := { x.regs with cpcause := BitVec.ofNat 64 (id + 256 * e.code) } } else x)).traceOf c.ctx 9 (s.ctxAt c.ctx).pc
      (BitVec.ofNat 64 (id + 256 * e.code))

/-- The end of a copy with a status: pins released, arrival posted unless cancelled, CID free. -/
def State.endCopy (s : State) (c : Copy) (status : Nat) : State :=
  let s := (s.unpinCopy c).dropCopy c
  let s := match c.cid with
    | some i => s.modAt c.ctx (fun x => { x with cidStat := x.cidStat.set 0 i.toNat status })
    | none => s
  -- where no format gave the copy's size, the spec states no byte count: a free value (log entry 4)
  if c.be && status != 1 then
    s.bump.arriveAt (groupOf s.core.toNat) c.bar (if c.known then BitVec.ofNat 64 c.bytes else s.freeWord)
  else s

/-- Poison in every destination segment byte not yet written, and those lines full (R128). A copy from a tile that no
descriptor gives a size poisons nothing and fills no line (DESIGN CHOICE: R128 does not say how many bytes it names; log
entry 79). Where rows overlap, a place that a lower row has written is poisoned as long as a higher row's unit there is not
written (DESIGN CHOICE: R128 does not name overlapping rows; log entry 79). -/
def State.poisonRest (s : State) (c : Copy) : State :=
  let per := (c.drow + 63) / 64
  let rest := (List.range (c.nrow * per)).filter (fun n => !c.written n)
  let put (off : Int) (e0 : SegEntry) : SegEntry :=
    rest.foldl (fun (e : SegEntry) n =>
      let at_ : Int := off + (n / per : Nat) * c.dstr + (64 * (n % per) : Nat)
      let o := at_.toNat
      if 0 ≤ at_ && o / 128 < e.size && !(c.entry.isSome && !e0.isEmpty (o / 128)) then
        { e.setFull (o / 128) true with poison := e.poison.set false (o / 64) true } else e) e0
  match c.dst with
  | .own i name off => (s.modSeg i name (put off)).touchSeg i name
  | .peer core name off => s.modPeerSeg core name c.jobVa (put off.toNat)
  | _ => s

/-- A faulted copy writes its poison where the destination is here: an absent segment is recalled first (R158, R166), and a
core that moves is written after its move (R382). -/
def State.poisonLater (s : State) (c : Copy) : Option State :=
  match c.dst with
  | .own i name _ =>
    if s.frozen then some s
    else if (s.seg i name).any (fun e => !e.here) then some (s.requestRecall i [name]) else none
  | .peer core _ _ => if s.coreMoving core then some s else none
  | _ => none

/-- A malformed table entry that an engine met is a machine check, and the task that issued the operation is stopped
(R72). -/
def State.engineCheck (s : State) (i : BitVec 2) (c : Cause) (va : Word) : State :=
  if c ≠ .pteBad then s
  else if (s.ctxAt i).phase = .running then s.asCtx i (fun s => s.stopTask c none va) else s.report c va

/-- COPY_COMPLETION: the copy numbered `i` ends, once its writes are performed or a fault has stopped it. -/
def State.completeCopy (s : State) (i : Nat) : State :=
  match s.copyNo i with
  | none => s
  | some c =>
    -- an ENQ ends with its completion word (R363)
    if c.kind = .enq then s
    else if s.staging.any (fun d => d.id == c.id) then
      if c.fault.isNone ∧ c.known ∧ c.done = c.total ∧ c.parked = [] then s.endCopy c 0 else s
    else match c.fault with
      | some e => match s.poisonLater c with
        | some t => t
        | none => (((s.poisonRest c).recordFault c e).endCopy c 2).engineCheck c.ctx e 0
      | none => if c.known ∧ c.done = c.total ∧ c.parked = [] ∧
            ((c.kind = .reduce ∨ c.kind = .bcast) → c.result.isSome) then s.endCopy c 0 else s

/-- A group peer's copy ends: its pin here is released, and its arrival is posted to a barrier of the group (R120, R122). -/
def State.peerEnd (s : State) (e : PeerEnd) : State :=
  let s := if e.pinned then s.modPeerSeg s.core.toNat e.name e.job (fun x => { x with cpins := x.cpins - 1 }) else s
  match e.bar with
  | some h => s.arriveAt (groupOf s.core.toNat) h e.count
  | none => s
def execCopyCompletion (c : EndFrom) (s : State) : Out :=
  .next (match c with
    | .own i => s.completeCopy i
    | .peer e => s.peerEnd e)

/-- The word of CPWAIT (R128). -/
def Ctx.cidWord (c : Ctx) (mask : BitVec 16) : Word :=
  BitVec.ofNat 64 ((List.range 16).foldl (fun n i =>
    if mask.getLsbD i then n + c.cidStat.get 0 i * 4 ^ i else n) 0)

/-- CPWAIT (R128). -/
def execCpwait (da : AReg) (mask : BitVec 16) (s : State) : Out := fin (do
  s.until (!(List.range 16).any (fun i => mask.getLsbD i && s.cidBusy s.cur (BitVec.ofNat 4 i))) .barrier
  pure (s.setA da (s.ctx.cidWord mask)))

/-- CPCAN (R129). -/
def execCpcan (mask : BitVec 16) (s : State) : Out :=
  .next ((s.copies.filter (fun c => c.ctx == s.cur && (match c.cid with | some i => mask.getLsbD i.toNat | none => false))).foldl
    (fun s c => s.endCopy c 1) s)

/-! ### Parked accesses released (R80, R81, R91) -/

/-- The physical address of the entry where a walk ends: the first that is not valid, or the leaf. -/
def State.lastEntry (s : State) (va : Nat) : List (Nat × Nat × Nat × Nat) → Nat → Option Nat
  | [], _ => none
  | (sh, bits, _, _) :: rest, base =>
    let ent := base + 8 * (va / 2 ^ sh % 2 ^ bits)
    let e := s.memWord ent
    if e.getLsbD 0 && e.getLsbD 1 then s.lastEntry va rest (e.toNat / 256 % 2 ^ 44 * 256) else some ent

/-- Every translation that came from an entry is dropped (R79). -/
def State.dropLeaf (s : State) (ent : Nat) : State :=
  { s with tlb := s.tlb.filter (fun t => t.ent != ent), tcache := s.tcache.filter (fun t => t.ent != ent) }

/-- PARKED_ACCESS_RELEASE: with an entry, the control core writes it where the walk ended, and invalidates where that
changes a valid one (an entry of zero: it has made the mapping otherwise), and the access translates again; with none,
the fault is turned into PGPERM (R79, R81). -/
def execParkedAccessRelease (i : Nat) (leaf : Option Word) (s : State) : Out :=
  .next (match s.parked[i]? with
    | none => s
    | some p => match leaf with
      | none => { s with parked := s.parked.set i { p with denied := true } }
      | some w =>
        let s1 : State := { s with parked := s.parked.eraseIdx i }
        if w = 0 ∨ p.cause = .tileAbsent then s1
        else match s1.lastEntry (p.va.toNat % 2 ^ 56) walkLevels p.root with
          | some ent =>
            let s2 := s1.feltWrite ent (natBytes 8 w.toNat) 0 false
            if (s1.memWord ent).getLsbD 0 then s2.dropLeaf ent else s2
          | none => s1)

end Sys2Proof.Machine
end

