-- ==== Sys2Proof/Machine/Special.lean ====
section
/-! DEFINITION. The special functions of R247 and R248 as exact values, each computed to about 1,000 binary
places (log entry 10). Algebraic cases and the arguments whose result is exact are exact. -/

namespace Sys2Proof.Machine

/-- Fractional bits of the fixed-point values of this file. -/
def specP : Nat := 1024
/-- 1.0 in fixed point. -/
def specOne : Nat := 2 ^ specP

/-- A fixed-point product, rounded toward minus infinity. -/
def fxMul (a b : Int) : Int := (a * b).fdiv (2 ^ specP : Nat)

/-- Σ t_k for t_0 = t and t_(k+1) = t_k · x / (n + k): `fuel` terms of an exponential series. -/
def expSeries (x : Int) : Nat → Nat → Int → Int
  | 0, _, _ => 0
  | fuel + 1, n, t => t + expSeries x fuel (n + 1) ((fxMul t x).fdiv (n : Int))

/-- e^x for |x| ≤ 1 in fixed point. -/
def fxExp (x : Int) : Int := expSeries x 240 1 specOne

/-- Σ (−1)^k t² terms: t − … for sine and cosine: t_(k+1) = −t_k · x² / ((n)(n+1)). -/
def trigSeries (x2 : Int) : Nat → Nat → Int → Int
  | 0, _, _ => 0
  | fuel + 1, n, t => t + trigSeries x2 fuel (n + 2) ((-(fxMul t x2)).fdiv ((n * (n + 1) : Nat) : Int))

/-- sin x for |x| ≤ 1. -/
def fxSin (x : Int) : Int := trigSeries (fxMul x x) 120 2 x
/-- cos x for |x| ≤ 1. -/
def fxCos (x : Int) : Int := trigSeries (fxMul x x) 120 1 specOne

/-- Σ t·z^(2k)/(2k+1) with sign s: the atanh (s = 1) or atan (s = −1) series of z, t = z. -/
def arcSeries (s : Int) (z2 : Int) : Nat → Nat → Int → Int
  | 0, _, _ => 0
  | fuel + 1, n, t => t.fdiv (n : Int) + arcSeries s z2 fuel (n + 2) (s * fxMul t z2)

/-- atanh z for |z| ≤ 1/3. -/
def fxAtanh (z : Int) : Int := arcSeries 1 (fxMul z z) 360 1 z

/-- ln 2 = 2 atanh(1/3). -/
def fxLn2 : Int := 2 * fxAtanh ((specOne / 3 : Nat) : Int)

/-- atan(1/n). -/
def fxAtanInv (n : Nat) : Int :=
  let z : Int := (specOne / n : Nat)
  arcSeries (-1) (fxMul z z) 240 1 z

/-- π by Machin's formula. -/
def fxPi : Int := 16 * fxAtanInv 5 - 4 * fxAtanInv 239

/-- x · 2^specP of a finite value (exact for FP32, BF16 and FP16 arguments). -/
def fxOf (n : Bool) (m : Nat) (e : Int) : Int := signedDyadic n m * (2 ^ (e + specP).toNat : Nat)

/-- A fixed-point value as an irrational exact value. -/
def fxResult (v : Int) : XVal :=
  if v = 0 then .zero false else .mag (decide (v < 0)) (.approx v.natAbs specOne)

/-- e^x as an exact value for a fixed-point x ≤ 0 of moderate size. -/
def fxExpNeg (x : Int) : Int :=
  let n := x.fdiv fxLn2
  let r := x - n * fxLn2
  (fxExp r).fdiv ((2 ^ (-n).toNat : Nat) : Int)

/-- 2^x (R247). -/
def specExp2 (n : Bool) (m : Nat) (e : Int) : XVal :=
  let x := fxOf n m e
  let k := x.fdiv (specOne : Int)
  let r := x - k * specOne
  if k < -2000 then .mag false (.approx 1 (2 ^ 2000))
  else if 2000 < k then .mag false (.approx (2 ^ 2000) 1)
  else if r = 0 then .mag false (.dyadic 1 k)
  else
    let v := (fxExp (fxMul r fxLn2)).toNat
    if 0 ≤ k then .mag false (.approx (v * 2 ^ k.toNat) specOne)
    else .mag false (.approx v (specOne * 2 ^ (-k).toNat))

/-- log2 x of a positive finite x = m · 2^e (R247). -/
def specLog2 (m : Nat) (e : Int) : XVal :=
  let k := m.log2
  let whole : Int := e + k
  if m = 2 ^ k then XVal.ofInt whole
  else
    let y : Int := (m * specOne / 2 ^ k : Nat)
    let z := ((y - specOne) * specOne).fdiv (y + specOne)
    let ln := 2 * fxAtanh z
    fxResult (whole * specOne + (ln * specOne).fdiv fxLn2)

/-- sin x or cos x, the argument reduced by multiples of π/2 (R247). -/
def specTrig (cos : Bool) (n : Bool) (m : Nat) (e : Int) : XVal :=
  let x := fxOf n m e
  let h := fxPi.fdiv 2
  let k := (x + h.fdiv 2).fdiv h
  let r := x - k * h
  let q := (k + (if cos then 1 else 0)).emod 4
  fxResult (if q = 0 then fxSin r else if q = 1 then fxCos r else if q = 2 then -(fxSin r) else -(fxCos r))

/-- 1 − 2^(−specP): just below one. -/
def justBelowOne (n : Bool) : XVal := .mag n (.approx (specOne - 1) specOne)

/-- tanh x for a non-zero finite x (R247). -/
def specTanh (n : Bool) (m : Nat) (e : Int) : XVal :=
  let x := fxOf false m e
  if (300 * specOne : Nat) ≤ x then justBelowOne n
  else
    let ex := fxExpNeg (-2 * x)
    let v := ((specOne - ex) * specOne).fdiv (specOne + ex)
    fxResult (if n then -v else v)

/-- 1 / (1 + e^−x) for a non-zero finite x (R247). -/
def specSigm (n : Bool) (m : Nat) (e : Int) : XVal :=
  let x := fxOf false m e
  if (600 * specOne : Nat) ≤ x then
    (if n then .mag false (.approx 1 (2 ^ 800)) else justBelowOne false)
  else
    let ex := fxExpNeg (-x)
    let num : Int := if n then ex else specOne
    fxResult ((num * specOne).fdiv (specOne + ex))

/-- f(x) of R247, with its special arguments. -/
def specFn (f : SpecFn) (x : FVal) : XVal :=
  match f, x with
  | _, .nan => .nan
  | .rcp, .inf n => .zero n
  | .rcp, .fin n m e =>
    if m = 0 then .inf n
    else .mag n (if 0 ≤ e then .rat 1 (m * 2 ^ e.toNat) else .rat (2 ^ (-e).toNat) m)
  | .rsq, .inf n => if n then .nan else .zero false
  | .rsq, .fin n m e =>
    if m = 0 then .inf n else if n then .nan
    else .mag false (if 0 ≤ e then .root 1 (m * 2 ^ e.toNat) else .root (2 ^ (-e).toNat) m)
  | .exp2, .inf n => if n then .zero false else .inf false
  | .exp2, .fin n m e => specExp2 n m e
  | .log2, .inf n => if n then .nan else .inf false
  | .log2, .fin n m e => if m = 0 then .inf true else if n then .nan else specLog2 m e
  | .sin, .inf _ => .nan
  | .sin, .fin n m e => if m = 0 then .zero n else specTrig false n m e
  | .cos, .inf _ => .nan
  | .cos, .fin n m e => if m = 0 then .mag false (.rat 1 1) else specTrig true n m e
  | .tanh, .inf n => .mag n (.rat 1 1)
  | .tanh, .fin n m e => if m = 0 then .zero n else specTanh n m e
  | .sigm, .inf n => if n then .zero false else .mag false (.rat 1 1)
  | .sigm, .fin n m e => if m = 0 then .mag false (.rat 1 2) else specSigm n m e

/-- An FP32 special function: always to nearest; SAT and NZ of the prefix act (R239, R247). -/
def specLane (f : SpecFn) (p : Prefix) (a : Lane) : Lane :=
  toF32 ⟨.rne, p.sat, p.nz⟩ 0 (specFn f (f32 a))

end Sys2Proof.Machine
end

