-- ==== Sys2Proof/Machine/Float.lean ====
section
/-! DEFINITION. Floating-point and special-function slots (R238 to R248). -/

namespace Sys2Proof.Machine

/-- Two FP32 sources, one rounding (R240). -/
def State.float2 (s : State) (u : VUnit) (lat : Nat) (o : V2) (f : FVal → FVal → XVal) : State :=
  s.lane2 u lat .fp o (fun l a b => toF32 s.xp (s.laneDraw o.h l) (f (f32 a) (f32 b)))

/-- FADD (R240). -/
def execFadd (o : V2) (s : State) : Out := .next (s.float2 .fm 4 o (xadd s.xp.rm))
/-- FSUB (R240). -/
def execFsub (o : V2) (s : State) : Out := .next (s.float2 .fm 4 o (fun a b => xadd s.xp.rm a b.neg))
/-- FMUL (R240). -/
def execFmul (o : V2) (s : State) : Out := .next (s.float2 .fm 4 o xmul)

/-- Three FP32 sources, one rounding (R241). -/
def State.float3 (s : State) (o : V3) (f : FVal → FVal → FVal → XVal) : State :=
  s.lane3 .fm 4 .fp o (fun l a b c => toF32 s.xp (s.laneDraw o.h l) (f (f32 a) (f32 b) (f32 c)))

/-- FFMA: a × b + c (R241). -/
def execFfma (o : V3) (s : State) : Out := .next (s.float3 o (fun a b c => xadd s.xp.rm (fvmul a b) c))
/-- FFMS: a × b − c (R241). -/
def execFfms (o : V3) (s : State) : Out := .next (s.float3 o (fun a b c => xadd s.xp.rm (fvmul a b) c.neg))
/-- FNMA: c − a × b (R241). -/
def execFnma (o : V3) (s : State) : Out := .next (s.float3 o (fun a b c => xadd s.xp.rm (fvmul a b).neg c))

/-- FDIV (R242). -/
def execFdiv (o : V2) (s : State) : Out := .next (s.float2 .sf 14 o xdiv)
/-- FSQRT (R242). -/
def execFsqrt (o : V1) (s : State) : Out :=
  .next (s.lane1 .sf 14 .fp o (fun l a => toF32 s.xp (s.laneDraw o.h l) (xsqrt (f32 a))))

/-- FMIN (R243). -/
def execFmin (o : V2) (s : State) : Out := .next (s.lane2 .ia 1 .fp o (fun _ a b => fminmax false a b))
/-- FMAX (R243). -/
def execFmax (o : V2) (s : State) : Out := .next (s.lane2 .ia 1 .fp o (fun _ a b => fminmax true a b))
/-- FABS (R244). -/
def execFabs (o : V1) (s : State) : Out :=
  .next (s.lane1 .ia 1 .fp o (fun _ a => if f32 a = .nan then 0x7FC00000 else a &&& 0x7FFFFFFF))
/-- FNEG (R244). -/
def execFneg (o : V1) (s : State) : Out :=
  .next (s.lane1 .ia 1 .fp o (fun _ a => if f32 a = .nan then 0x7FC00000 else a ^^^ 0x80000000))
/-- FCPS (R244). -/
def execFcps (o : V2) (s : State) : Out :=
  .next (s.lane2 .ia 1 .fp o (fun _ a b => if f32 a = .nan then 0x7FC00000 else (a &&& 0x7FFFFFFF) ||| (b &&& 0x80000000)))
/-- FCLASS (R245). -/
def execFclass (o : V1) (s : State) : Out := .next (s.lane1 .ia 1 .fp o (fun _ a => fclassLane a))

/-- One level of the reduction tree: pairs combined (R246). -/
def pairUp {α : Type} (f : α → α → α) : List α → List α
  | a :: b :: r => f a b :: pairUp f r
  | l => l
/-- The tree over sixteen values (R246). -/
def tree16 {α : Type} (f : α → α → α) (l : List α) : List α := pairUp f (pairUp f (pairUp f (pairUp f l)))

/-- FADD of one node: RM of the bundle with RSR as RNE, IEEE overflow, no flush (R246). -/
def redFadd (p : Prefix) (a b : Lane) : Lane :=
  let q : Prefix := ⟨p.noRsr.rm, .ieee, false⟩
  toF32 q 0 (xadd q.rm (f32 a) (f32 b))

/-- The reduced lane (R246). -/
def reduce (r : RedOp) (p : Prefix) (l : List Lane) : Lane :=
  match r with
  | .fadd =>
    let v := (tree16 (redFadd p) l).headD 0
    toF32 ⟨p.noRsr.rm, p.sat, p.nz⟩ 0 (f32 v).toX
  | .fmax => (tree16 (fminmax true) l).headD 0
  | .fmin => (tree16 (fminmax false) l).headD 0
  | .iadd => satInt .ieee i32Min i32Max 32 ((l.map (·.toInt)).sum)
  | .imax => (tree16 (fun a b => if a.slt b then b else a) l).headD 0
  | .imin => (tree16 (fun a b => if b.slt a then b else a) l).headD 0

/-- VRED (R246): all sixteen lanes take part whatever the guard. An immediate of the integer forms is an integer, as R30 and
R224 have it (DEDUCED: R238 says that immediates of its chapter are FP32; log entry 86). -/
def execVred (r : RedOp) (o : V1) (s : State) : Out :=
  let ty : OpTy := match r with | .fadd | .fmax | .fmin => .fp | _ => .int
  let a := s.src o.h.cl ty o.a
  let x := reduce r s.xp ((List.range 16).map (lane a))
  .next (s.vslot o.h (.vec o.d) [o.a] .xm 6 (s.guard o.h) (.plain (splat x)))

/-- An FP32 special function (R247). -/
def State.special (s : State) (f : SpecFn) (lat : Nat) (o : V1) : State :=
  s.lane1 .sf lat .fp o (fun _ a => specLane f s.xp a)

/-- FRCP (R247). -/
def execFrcp (o : V1) (s : State) : Out := .next (s.special .rcp 8 o)
/-- FRSQ (R247). -/
def execFrsq (o : V1) (s : State) : Out := .next (s.special .rsq 8 o)
/-- FEXP2 (R247). -/
def execFexp2 (o : V1) (s : State) : Out := .next (s.special .exp2 10 o)
/-- FLOG2 (R247). -/
def execFlog2 (o : V1) (s : State) : Out := .next (s.special .log2 10 o)
/-- FSIN (R247). -/
def execFsin (o : V1) (s : State) : Out := .next (s.special .sin 10 o)
/-- FCOS (R247). -/
def execFcos (o : V1) (s : State) : Out := .next (s.special .cos 10 o)
/-- FTANH (R247). -/
def execFtanh (o : V1) (s : State) : Out := .next (s.special .tanh 10 o)
/-- FSIGM (R247). -/
def execFsigm (o : V1) (s : State) : Out := .next (s.special .sigm 10 o)

/-- The 16-bit special functions: 32 elements, each rounded under the prefix with RSR as RNE (R248). -/
def execSpecialFunction16 (f : SpecFn) (half : Bool) (o : V1) (s : State) : Out :=
  let fmt := if half then fp16 else bf16
  let a := s.src o.h.cl .fp o.a
  .next (s.vslot o.h (.vec o.d) [o.a] .sf 6 (s.guard o.h)
    (.plain (mkElems 16 (fun n => fmt.encode s.xp.noRsr 0 (specFn f (fmt.decode (elem a 16 n)))))))

end Sys2Proof.Machine
end

