-- ==== Sys2Proof/Machine/Collectives.lean ====
section
/-! DEFINITION. Collective groups and their operations (R141 to R146). -/

namespace Sys2Proof.Machine

/-! ### Groups (R141) -/

/-- A group of this core's partition. -/
def State.group (s : State) (gid : BitVec 8) : Option Group := s.groups.find? (fun g => g.part == s.part && g.gid == gid)
def State.modGroup (s : State) (gid : BitVec 8) (f : Group → Group) : State :=
  { s with groups := s.groups.map (fun g => if g.part = s.part ∧ g.gid = gid then f g else g) }

/-- A member that is a context of this core. -/
def State.isMine (s : State) (i : BitVec 2) (m : Member) : Bool := m.core == s.core.toNat && m.ctx == i.toNat
/-- The membership of the running context in a group. -/
def State.myMember (s : State) (g : Group) : Option Member := g.members.find? (s.isMine s.cur)
/-- Groups that the running context belongs to. -/
def State.memberships (s : State) : Nat := s.groups.countP (fun g => (s.myMember g).isSome)

/-- Collectives of a context on a group that have not completed. -/
def State.collectives (s : State) (i : BitVec 2) (gid : BitVec 8) : List Copy :=
  s.copies.filter (fun c => c.ctx == i && c.gid == gid && (c.kind == .reduce || c.kind == .bcast))

/-- Sets something on every copy of this core that is collective `k` of a group. -/
def State.onCollective (s : State) (gid : BitVec 8) (k : Nat) (f : Copy → Copy) : State :=
  { s with copies := s.copies.map (fun c =>
      if c.gid = gid ∧ c.ord = k ∧ (c.kind = .reduce ∨ c.kind = .bcast) then f c else c) }

/-- Collective `k` ends at every member with COLLMISMATCH. -/
def State.mismatch (s : State) (gid : BitVec 8) (k : Nat) : State :=
  (s.onCollective gid k (fun c => { c with fault := some .collMismatch })).modGroup gid (fun g => { g with started := k + 1 })

/-! ### CGJOIN, CGLEAVE (R142, R145) -/

/-- The status of a join: the first row of R142's table that applies, in its order. N = 0 on a free identifier is LIMIT
(DESIGN CHOICE: the row of MISMATCH, a rank not below N, would hold of every rank there; log entry 26). -/
def State.joinStatus (s : State) (gid : BitVec 8) (rank n : Nat) : Nat :=
  let span := s.bar (0x10700 + 8 * gid.toNat)
  let far : Bool := span.getLsbD 20 && decide (rank < ufield span 0 10 ∨ ufield span 10 10 < rank)
  let lim : Bool := decide (4 ≤ s.memberships ∨ n = 0 ∨ 512 < n)
  match s.group gid with
  | some g =>
    if g.draining then 1
    else if g.members.any (fun m => m.rank == rank) then 2
    else if n ≠ g.n ∨ g.n ≤ rank ∨ far then 3
    else if lim then 4 else 0
  | none => if (n ≤ rank ∧ n ≠ 0) ∨ far then 3 else if lim then 4 else 0

/-- Collective `k` waits for a member that has left, or has given up its own before it left (R145). -/
def Group.gone (g : Group) : Bool := (List.range g.n).any g.left.contains
/-- The collectives of the members that wait for one that has left end, the next first. -/
def State.failGone (s : State) (gid : BitVec 8) : Nat → State
  | 0 => s
  | n + 1 => match s.group gid with
    | none => s
    | some g =>
      if g.gone && s.copies.any (fun c => c.gid == gid && c.ord == g.started && (c.kind == .reduce || c.kind == .bcast))
      then (s.mismatch gid g.started).failGone gid n else s

/-- CGJOIN. A context that joins once collectives have run counts its own from the group's next one (DESIGN CHOICE: R143
does not say; log entry 79). Collectives that wait for a member who has left end before another joins under its rank. -/
def execCgjoin (gid : BitVec 8) (sa len da : AReg) (s : State) : Out := fin (do
  s.live 4 [sa, len]
  let rank := (s.rd.ra sa).toNat
  let n := (s.rd.ra len).toNat
  let st := s.joinStatus gid rank n
  let m (k : Nat) : Member := ⟨rank, s.core.toNat, s.cur.toNat, false, k⟩
  let s1 : State :=
    if st ≠ 0 then s
    else match s.group gid with
      | some _ => (s.failGone gid s.copies.length).modGroup gid (fun g =>
          { g with members := g.members ++ [m g.started], left := g.left.filter (· != rank) })
      | none => { s with groups := s.groups ++ [⟨s.part, gid, n, [m 0], false, [], [], 0⟩] }
  pure (s1.setA da (BitVec.ofNat 64 st)))

/-- The leaves of members of this core whose collectives have completed take effect; the last one turns the
identifier draining (R145). -/
def State.settleLeaves (s : State) (gid : BitVec 8) : State :=
  s.modGroup gid (fun g =>
    let out (m : Member) : Bool := m.leaving && m.core == s.core.toNat &&
      (decide (4 ≤ m.ctx) || (s.collectives (BitVec.ofNat 2 m.ctx) gid).isEmpty)
    let gone := g.members.filter out
    let stay := g.members.filter (fun m => !out m)
    { g with members := stay, left := g.left ++ gone.map (·.rank)
             draining := g.draining || (!gone.isEmpty && stay.isEmpty) })

/-- A context marks its membership as leaving. -/
def State.leaveGroup (s : State) (i : BitVec 2) (gid : BitVec 8) : State :=
  (s.modGroup gid (fun g => { g with
    members := g.members.map (fun m => if s.isMine i m then { m with leaving := true } else m) })).settleLeaves gid

/-- CGLEAVE. -/
def execCgleave (gid : BitVec 8) (s : State) : Out := .next (s.leaveGroup s.cur gid)

/-! ### CGRED, CGBC (R143, R144, R146, R427) -/

/-- A collective of the running context, accepted by the engine. A context whose leave has not yet taken effect is no
member any more: NOGROUP (DESIGN CHOICE: R146 does not say; log entry 79). -/
def State.collective (s : State) (kind : CopyKind) (op : CgOp) (gid : BitVec 8) (sg dg : GReg) (sa da len : AReg)
    (cid : BitVec 4) (be : Bool) (bar : BitVec 6) : Except State State := do
  s.live 4 [sa, da, len]
  match (s.group gid).bind (fun g => if g.draining then none else s.myMember g) with
  | none => .error (s.aFault 4 .noGroup 0)
  | some m =>
    s.need (!m.leaving) 4 .noGroup 0
    s.copyLen (s.rd.ra len)
    let n := (s.rd.ra len).toNat
    let a ← s.copySeg sg (s.rd.ra sa) 1 0 (fun _ => n)
    let b ← s.copySeg dg (s.rd.ra da) 1 0 (fun _ => n)
    s.copyAdmit [a.name, b.name] cid
    let c := s.newCopy cid kind (.own s.cur a.name (s.rd.ra sa).toNat) (.own s.cur b.name (s.rd.ra da).toNat) ⟨1, 0, 0⟩ n be bar
      0 none n true
    -- one that the group has already given up waiting for ends with COLLMISMATCH (R145)
    let late := decide (m.issued < ((s.group gid).map (·.started)).getD 0)
    let mine := { c with gid := gid, op := op, ord := m.issued, fault := if late then some .collMismatch else none }
    pure ((s.accept mine).modGroup gid (fun g => { g with
      members := g.members.map (fun x => if x = m then { x with issued := x.issued + 1 } else x) }))

/-- CGRED. -/
def execCgred (op : CgOp) (gid : BitVec 8) (sg dg : GReg) (sa da len : AReg) (cid : BitVec 4) (be : Bool) (bar : BitVec 6)
    (s : State) : Out := fin (s.collective .reduce op gid sg dg sa da len cid be bar)
/-- CGBC. -/
def execCgbc (gid : BitVec 8) (sg dg : GReg) (sa da len : AReg) (cid : BitVec 4) (be : Bool) (bar : BitVec 6)
    (s : State) : Out := fin (s.collective .bcast .fadd gid sg dg sa da len cid be bar)

/-! ### The result (R143) -/

/-- One element operation, on a 64-byte unit. -/
def cgUnit (op : CgOp) (p : Nat) (a b : Vec) : Vec :=
  let lanes (f : Lane → Lane → Lane) : Vec := mkVec (fun l => f (lane a l) (lane b l))
  match op with
  | .fadd => lanes atomFaddLane
  | .iadd => lanes (fun x y => x + y)
  | .imax => lanes (fun x y => if x.slt y then y else x)
  | .imin => lanes (fun x y => if y.slt x then y else x)
  | .fmax => lanes (fminmax true)
  | .fmin => lanes (fminmax false)
  | .qadd => mkWords (fun i => qaddWord p (word64 a i) (word64 b i))

/-- The fixed tree over ranks. -/
def treeOf {α : Type} (f : α → α → α) : Nat → List α → List α
  | 0, l => l
  | n + 1, l => treeOf f n (pairUp f l)

/-- Units and poisons, combined unit by unit. -/
def combine (op : CgOp) (p : Nat) (a b : List (Vec × Bool)) : List (Vec × Bool) :=
  List.zipWith (fun x y => (cgUnit op p x.1 y.1, x.2 || y.2)) a b

/-- The contribution of a member: what it issued, and its source units where they are read. -/
structure Given where
  bcast : Bool
  op : CgOp
  psel : Word
  len : Nat
  units : List (Vec × Bool)
  deriving DecidableEq, Repr

/-- The source units of a copy of this core, all resident and full, or what must be waited for. -/
def State.readAll (s : State) (c : Copy) (n : Nat) : Nat → UnitRes (List (Vec × Bool))
  | 0 => .ok [] s
  | k + 1 => match s.readSrc c 0 (n - (k + 1)) with
    | .ok u s1 => match s1.readAll c n k with
      | .ok l s2 => .ok (u :: l) s2
      | .later s2 => .later s2
      | .bad e s2 => .bad e s2
    | .later s1 => .later s1
    | .bad e s1 => .bad e s1

/-- The copy of this core that is collective `k` of a member. -/
def State.copyOf (s : State) (gid : BitVec 8) (k : Nat) (m : Member) : Option Copy :=
  if m.core = s.core.toNat ∧ m.ctx < 4 then (s.collectives (BitVec.ofNat 2 m.ctx) gid).find? (fun c => c.ord == k) else none

/-- The contributions of ranks `r` on, in order: none where one has not issued. One that has cancelled its own before the
start has not: the others wait until it leaves (DESIGN CHOICE: R143 does not say; log entry 79). -/
def State.gather (s : State) (g : Group) (k : Nat) (all : Bool) : List Nat → UnitRes (Option (List Given))
  | [] => .ok (some []) s
  | r :: rest =>
    let here : UnitRes (Option Given) :=
      match g.members.find? (fun m => m.rank == r) with
      | none => .ok none s
      | some m =>
        if m.core = s.core.toNat then match s.copyOf g.gid k m with
          | none => .ok none s
          | some c =>
            if !s.mayStart c then .later s
            -- absent segments of a member are asked for in one request (R165)
            else if all || r == 0 then match (s.requestRecall c.ctx c.names).readAll c (c.len / 64) (c.len / 64) with
              | .ok l s1 => .ok (some ⟨c.kind == .bcast, c.op, c.psel, c.len, l⟩) s1
              | .later s1 => .later s1
              | .bad e s1 => .bad e s1
            else .ok (some ⟨c.kind == .bcast, c.op, c.psel, c.len, []⟩) s
        else .ok ((g.others.find? (fun o => o.rank == r && o.ord == k)).map (fun o =>
          ⟨o.bcast, o.op, o.psel, o.bytes.length, (List.range (o.bytes.length / 64)).map (fun i =>
            (bytesVec ((o.bytes.drop (64 * i)).take 64), o.poison.getD i false))⟩)) s
    match here with
    | .ok none s1 => .ok none s1
    | .ok (some x) s1 => match s1.gather g k all rest with
      | .ok (some l) s2 => .ok (some (x :: l)) s2
      | .ok none s2 => .ok none s2
      | .later s2 => .later s2
      | .bad e s2 => .bad e s2
    | .later s1 => .later s1
    | .bad e s1 => .bad e s1

/-- The result of matching contributions. -/
def resultOf (l : List Given) : List (Vec × Bool) :=
  match l with
  | [] => []
  | g :: _ =>
    if g.bcast then g.units
    else ((treeOf (combine g.op (primeOf (ufield g.psel 0 4))) l.length (l.map (·.units))).head?).getD []

/-- What rank `r` has issued as collective `k`, its units aside. -/
def State.said (s : State) (g : Group) (k r : Nat) : Option Given :=
  match g.members.find? (fun m => m.rank == r) with
  | none => none
  | some m =>
    if m.core = s.core.toNat then (s.copyOf g.gid k m).map (fun c => ⟨c.kind == .bcast, c.op, c.psel, c.len, []⟩)
    else (g.others.find? (fun o => o.rank == r && o.ord == k)).map (fun o => ⟨o.bcast, o.op, o.psel, o.bytes.length, []⟩)
/-- Unit `n` of what rank `r` gives. -/
def State.givenUnit (s : State) (g : Group) (k n r : Nat) : UnitRes (Vec × Bool) :=
  match (g.members.find? (fun m => m.rank == r)).bind (s.copyOf g.gid k) with
  | some c => if s.mayStart c then (s.requestRecall c.ctx c.names).readSrc c 0 n else .later s
  | none => match g.others.find? (fun o => o.rank == r && o.ord == k) with
    | some o => .ok (bytesVec ((o.bytes.drop (64 * n)).take 64), o.poison.getD n false) s
    | none => .later s
/-- Unit `n` of the contributions of some ranks. -/
def State.givenUnits (s : State) (g : Group) (k n : Nat) : List Nat → UnitRes (List (Vec × Bool))
  | [] => .ok [] s
  | r :: rest => match s.givenUnit g k n r with
    | .ok u s1 => match s1.givenUnits g k n rest with
      | .ok l s2 => .ok (u :: l) s2
      | x => x
    | .later s1 => .later s1
    | .bad e s1 => .bad e s1

/-- While some source line is not there, the units of the result whose lines are there go on (R116). -/
def State.goOn (s : State) (g : Group) (k : Nat) (h : Given) : State :=
  let ranks := if h.bcast then [0] else List.range g.n
  (List.range (h.len / 64)).foldl (fun (s : State) n =>
    if s.copies.any (fun c => c.gid == g.gid && c.ord == k && c.got.any (fun u => u.no == n)) then s
    else match s.givenUnits g k n ranks with
      | .ok l s1 => match (resultOf (l.map (fun u => { h with units := [u] }))).head? with
        | some r => s1.onCollective g.gid k (fun c => { c with got := c.got ++ [⟨n, r.1, r.2⟩] })
        | none => s1
      | .later s1 => s1
      | .bad _ s1 => s1) s
/-- The whole of the collective is not to be had now: it ends where members differ, or goes on with what is there. One of which
some units are combined already waits for a member that has given up its own since, until that member leaves (DESIGN CHOICE:
R129 and R143 do not say; log entry 79). -/
def State.partly (s : State) (g : Group) (k : Nat) : State :=
  let l := (List.range g.n).map (s.said g k)
  match l with
  | some h :: _ =>
    if l.any (·.isNone) then s
    else if l.any (fun x => x.any (fun x => x.bcast != h.bcast || x.op != h.op || x.psel != h.psel || x.len != h.len))
    then s.mismatch g.gid k
    else s.goOn g k h
  | _ => s

/-- A collective whose units have all been combined has its result. -/
def State.finishGot (s : State) (g : Group) (k : Nat) : State :=
  match s.copies.find? (fun c => c.gid == g.gid && c.ord == k && (c.kind == .reduce || c.kind == .bcast)) with
  | none => s
  | some c =>
    let n := c.len / 64
    if c.got.length < n then s
    else
      let u (i : Nat) : Vec × Bool := ((c.got.find? (fun x => x.no == i)).map (fun x => (x.val, x.poison))).getD (0, false)
      (s.onCollective g.gid k (fun c => { c with
        result := some ((List.range n).map (fun i => vecBytes (u i).1)).flatten
        rpoison := (List.range n).map (fun i => (u i).2) })).modGroup g.gid
          (fun g => { g with started := k + 1, others := g.others.filter (fun o => o.ord != k) })
/-- Some units of a collective are combined already. -/
def State.begun (s : State) (gid : BitVec 8) (k : Nat) : Bool :=
  s.copies.any (fun c => c.gid == gid && c.ord == k && !c.got.isEmpty)

/-- COLLECTIVE_START: the next collective of the group, once every member has joined and issued it (R143); one
that waits for a member who has left ends with COLLMISMATCH (R145). -/
def State.startCollective (s : State) (gid : BitVec 8) : State :=
  match s.group gid with
  | none => s
  | some g =>
    let k := g.started
    if g.gone then s.failGone gid 1
    else if s.begun gid k then (s.partly g k).finishGot g k
    else
      let all := !s.copies.any (fun c => c.gid == gid && c.ord == k && c.kind == .bcast)
      match s.gather g k all (List.range g.n) with
      | .later s1 => s1.partly g k
      | .bad _ s1 => s1
      | .ok none s1 => s1
      | .ok (some l) s1 => match l with
        | [] => s1
        | g0 :: _ =>
          if l.any (fun x => x.bcast != g0.bcast || x.op != g0.op || x.psel != g0.psel || x.len != g0.len)
          then s1.mismatch gid k
          else
            let r := resultOf l
            (s1.onCollective gid k (fun c => { c with result := some (r.map (fun x => vecBytes x.1)).flatten,
                                                      rpoison := r.map (·.2) })).modGroup gid
              (fun g => { g with started := k + 1, others := g.others.filter (fun o => o.ord != k) })
def execCollectiveStart (gid : BitVec 8) (s : State) : Out := .next (s.startCollective gid)

/-- GROUP_DRAINED: pending leaves take effect; a draining identifier whose collectives have all completed is free
(R141, R145). -/
def State.drainGroup (s : State) (gid : BitVec 8) : State :=
  let s1 := s.settleLeaves gid
  match s1.group gid with
  | some g =>
    if g.draining ∧ g.members = [] ∧ !s1.copies.any (fun c => c.gid == gid && (c.kind == .reduce || c.kind == .bcast)) then
      { s1 with groups := s1.groups.filter (fun x => !(x.part == g.part && x.gid == gid)) }
    else s1
  | none => s1
def execGroupDrained (gid : BitVec 8) (s : State) : Out := .next (s.drainGroup gid)

end Sys2Proof.Machine
end

