-- ==== Sys2Proof/Machine/Control.lean ====
section
/-! DEFINITION. The control slot: branches, calls, loops, jump tables, traps and returns, and the end of a task
(R292 to R299, R370 to R373). -/

namespace Sys2Proof.Machine

/-- A jump: the target is checked, and is where the next A-half issues (R56, R292). -/
def State.jump (s : State) (target : Word) : Except State State :=
  if !s.targetServed target then .error (s.awaitPage (frameOf target))
  else match s.targetFault target with
  | some c => .error ((s.targetReport target c).aFault 0 c (if c = .codeFault then target else 0))
  | none => .ok (s.modCtx (fun c => { c with npc := target }))

/-- A PC-relative target. -/
def State.rel (s : State) (disp : BitVec 24) : Word := s.ctx.pc + disp.signExtend 64 * 2

/-- A jump where a condition holds. -/
def State.jumpIf (s : State) (taken : Bool) (target : Word) : Except State State :=
  if taken then s.jump target else .ok s

/-- The all-zero slot (R20). -/
def execNop (s : State) : Out := .next s
/-- BRA (R293). -/
def execBra (disp : BitVec 24) (s : State) : Out := fin (s.jump (s.rel disp))
/-- BRF (R293). -/
def execBrf (k : KReg) (neg : Bool) (disp : BitVec 24) (s : State) : Out := fin (s.jumpIf (s.rd.rk k != neg) (s.rel disp))

/-- BRQ: pops bq and branches on it (R294). -/
def execBrq (neg : Bool) (disp : BitVec 24) (s : State) : Out := fin (do
  s.ready 0 (s.aHead qIdBq)
  let v := (s.headOf qIdBq).1 != 0
  let t ← s.jumpIf (v != neg) (s.rel disp)
  pure (t.modCtx (fun c => c.pop qIdBq)))

/-- BRP: realigns, and branches on a predicate that must be uniform (R295). Results that land at its bundle are
seen. -/
def execBrp (p : BitVec 4) (neg : Bool) (disp : BitVec 24) (s : State) : Out := fin (do
  s.until s.realigned .realign
  let v := (s.landAt s.ctx.an).ctx.pred128 p.toNat
  s.need (v == 0 || v == 2 ^ 128 - 1) 0 .nonUniform (BitVec.ofNat 64 (firstDiffering v))
  s.jumpIf (decide (v ≠ 0) != neg) (s.rel disp))

/-- JMPR (R293). -/
def execJmpr (k : KReg) (neg : Bool) (a : AReg) (disp : BitVec 24) (s : State) : Out := fin (do
  s.live 0 [a]
  s.jumpIf (s.rd.rk k != neg) (s.rd.ra a + disp.signExtend 64 * 2))

/-- The link of a CALL: the next bundle in sequence, or 0 at the end of the last quire (R293). -/
def State.link (s : State) : Word :=
  let frame := frameOf s.ctx.pc
  match s.quireAt frame with
  | .ok (q, _) => if s.ctx.npc = frame + BitVec.ofNat 64 (64 + 2 * q.cnt) then 0 else s.ctx.npc
  | .error _ => s.ctx.npc

/-- CALL (R293). -/
def execCall (a : AReg) (disp : BitVec 24) (s : State) : Out := fin (do
  let t ← s.jump (s.rel disp)
  pure (t.setA a s.link))

/-- RET (R293). -/
def execRet (k : KReg) (neg : Bool) (a : AReg) (s : State) : Out := fin (do
  s.live 0 [a]
  s.jumpIf (s.rd.rk k != neg) (s.rd.ra a))

/-- Writes a loop counter. -/
def State.setLc (s : State) (i : BitVec 2) (v : BitVec 32) : State :=
  s.modRegs (fun r => { r with lc := r.lc.set 0 i.toNat v })

/-- LOOP (R296). -/
def execLoop (lc : BitVec 2) (a : AReg) (disp : BitVec 24) (s : State) : Out := fin (do
  s.live 0 [a]
  let v : BitVec 32 := (s.rd.ra a).setWidth 32
  let t ← s.jumpIf (v == 0) (s.rel disp)
  pure (t.setLc lc v))

/-- LEND (R296). -/
def execLend (lc : BitVec 2) (disp : BitVec 24) (s : State) : Out := fin (do
  let old := s.rd.rlc lc
  let v : BitVec 32 := if old = 0 then 0 else old - 1
  let t ← s.jumpIf (v != 0) (s.rel disp)
  pure (t.setLc lc v))

/-! ### JTAB (R297) -/

/-- A plain read that bypasses the L1, ordered before the bundle's M slot; poison is consumed (R380). -/
def State.tableRead (s : State) (va : Word) (n : Nat) : Except State (Nat × State) := do
  let (pa, t, s1) ← s.gCheck 0 va n .read
  s1.budget
  s1.inOrder pa n t.kind .plain
  let (bs, p, s2) := s1.physRead pa n 0 s.ctx.job.ten (t.kind == kindUN)
  if p then .error (s2.aFault 0 .poison va) else .ok (bytesNat bs, s2)

/-- A read of a table held in a segment. -/
def State.tableReadSeg (s : State) (g : GReg) (off : Word) (n : Nat) : Except State (Nat × State) := do
  let e ← s.segCheck 0 g off n
  s.mustBeFull e off
  s.localOrder
  s.need (!e.poisoned off.toNat n) 0 .poison off
  pure (bytesNat (e.read off.toNat n), s.touchSeg s.cur e.name)

/-- JTAB. -/
def execJtab (a idx : AReg) (g : GReg) (loc : Bool) (s : State) : Out := fin (do
  s.live 0 [a, idx]
  let base := s.rd.ra a
  let i := s.rd.ra idx
  let read (s : State) (at_ : Word) (n : Nat) := if loc then s.tableReadSeg g at_ n else s.tableRead at_ n
  let (hdr, s1) ← read s base 8
  let w : Word := BitVec.ofNat 64 hdr
  if ufield w 0 32 ≤ i.toNat then s1.jump (s.ctx.pc + 2 * BitVec.ofInt 64 (sfield w 32 32))
  else
    let (d, s2) ← read s1 (base + 8 + 4 * i) 4
    s2.jump (s.ctx.pc + 2 * (BitVec.ofNat 32 d).signExtend 64))

/-! ### TRAP (R372) -/

/-- The A-half of the bundle commits: the next A-half is the one after it, or a branch's target. -/
def State.commitA (s : State) : State :=
  s.modCtx (fun c => { c with pc := c.npc, an := c.an + 1, aview := none })

/-- TRAP, raise form: taken after its A-half commits (R371, R372). -/
def execTrap (k : KReg) (neg : Bool) (code : BitVec 16) (s : State) : Out :=
  .next (if s.rd.rk k = neg then s
    else if s.entryBusy then s.wait .interlock
    else s.commitA.raise ⟨.swTrap, false, 0, code, 0⟩)

/-- TRAP.set (R372). -/
def execTrapSet (a : AReg) (mask : BitVec 5) (disp : BitVec 17) (s : State) : Out := fin (do
  s.live 0 [a]
  let f := s.rd.ra a
  s.need (ufield f 56 8 == 0) 0 .badAddr f
  s.need (f.toNat % 256 == 0) 0 .misalign f
  pure (s.modCtx (fun c => { c with hframe := f, hmask := mask, hpc := c.pc + disp.signExtend 64 * 2 })))

/-- TRAP.clr (R372). -/
def execTrapClr (s : State) : Out := .next (s.modCtx (fun c => { c with hmask := 0 }))

/-- RETIRE (R298). -/
def execRetire (s : State) : Out := .next (s.endTask .ok false)

/-! ### ERET (R373) -/

/-- The handler's results land, at their own bundles, while the core issues all-zero X-halves on its behalf. -/
def State.landAll (s : State) : State :=
  (List.range 64).foldl (fun s i => s.landAt (s.ctx.xn + i)) s

/-- The frame that entry has written (R373). -/
def State.enteredFrame (s : State) : Word := (s.ctx.aside.map (·.frame)).getD s.ctx.hframe

/-- Both forms: the earlier bundles' X-halves have issued, their results land, and a60 to a63 come back from the frame
that entry wrote, behind the handler's own stores to it. A fault of the frame that no control core serves is DOUBLE. A handler's SHLD is
performed first: X-halves of the lag record may swap its shadows in. -/
def State.leaveHandler (s : State) (finish : Aside → State → State) : Except State State := do
  s.until s.realigned .realign
  if !s.pageServed s.enteredFrame then .error (s.awaitPage s.enteredFrame)
  else match s.frameAt s.enteredFrame .read with
  | (.fault c, s1) => .error (s1.aFault 0 (if c.kind = .served then c else .double) s.enteredFrame)
  | (.ok pa tl, s1) =>
    s1.until (!s1.frameBusy pa && !s1.shadowBusy .msh) .engine
    let t := s1.landAll.restoreA pa (tl.kind == kindUN)
    match t.ctx.aside with
    | some a => .ok (finish a (t.modCtx (fun c => { c with aview := none })))
    | none => .ok (t.modCtx (fun c => { c with active := false }))

/-- ERET with GO = 0. -/
def execEret (s : State) : Out := fin (do
  s.need s.ctx.active 0 .badEret 0
  s.leaveHandler (fun a t => t.resumeAside a))

/-- ERET with GO = 1. -/
def execEretGo (disp : BitVec 23) (s : State) : Out := fin (do
  s.need s.ctx.active 0 .badEret 0
  let target := s.ctx.pc + disp.signExtend 64 * 2
  let _ ← s.jump target
  s.leaveHandler (fun a t => t.dropAside a target))

end Sys2Proof.Machine
end

