-- ==== Sys2Proof/Machine/Jobs.lean ====
section
/-! DEFINITION. Job and launch descriptors, working sets and their checks; job control blocks and posts; TRIG,
WVIS and GROW (R325 to R330, R335, R347 to R353, R357 to R360, R428). -/

namespace Sys2Proof.Machine

/-! ### Reading what software wrote -/

/-- The words of a run that lie on the page of its address, and the address of the rest (R70). -/
def onPage (va : Word) (n : Nat) : Nat := Nat.min n ((65536 - va.toNat % 65536) / 8)
def pastPage (va : Word) (n : Nat) : Word := va + BitVec.ofNat 64 (8 * onPage va n)

/-- Words that lie on one page, read by the Felt through the slices; a malformed table entry is a machine check (R72). -/
def State.pageWords (s : State) (asid : BitVec 12) (root : Nat) (va : Word) (n : Nat) (acc : Access) (cls : BitVec 4) :
    Except Cause (List Word) × State :=
  match s.translate asid root va acc with
  | (.ok pa t, s1) => match s1.feltRead pa n cls (t.kind == 2) with
    | (some l, s2) => (.ok l, s2)
    | (none, s2) => (.error .layerOff, s2)
  | (.fault c, s1) => (.error c, if c = .pteBad then s1.report c va else s1)
/-- `n` words, at most a page of them, at a virtual address of an address space, in a tenant class; the cause where a page
cannot be read or is not served (R86, R101). -/
def State.wordsAt (s : State) (asid : BitVec 12) (root : Nat) (va : Word) (n : Nat) (acc : Access) (cls : BitVec 4) :
    Except Cause (List Word) × State :=
  match s.pageWords asid root va (onPage va n) acc cls with
  | (.error c, s1) => (.error c, s1)
  | (.ok a, s1) =>
    if onPage va n = n then (.ok a, s1)
    else match s1.pageWords asid root (pastPage va n) (n - onPage va n) acc cls with
      | (.error c, s2) => (.error c, s2)
      | (.ok b, s2) => (.ok (a ++ b), s2)

/-- What a read by the dispatcher finds in words that lie on one page: one whose flit is lost is made again (log entry 76). -/
def State.peekWords (s : State) (asid : BitVec 12) (root : Nat) (va : Word) (n : Nat) (acc : Access) : Option (List Word) :=
  match s.translate asid root va acc with
  | (.ok pa _, s1) => if s1.layerGone pa then none else some ((List.range n).map (fun i => s1.memWord (pa + 8 * i)))
  | (.fault _, _) => none

/-- A record with cause NOJCB, which is a machine check (R353, R365, R401, R428). -/
def State.noJcb (s : State) (part : BitVec 3) (va : Word) : State :=
  s.felReport part .noJcb va

/-- Word `i` of a descriptor. -/
def wd (l : List Word) (i : Nat) : Word := l.getD i 0

/-- A job descriptor (R326). -/
def jobOf (d : List Word) : JobDesc :=
  ⟨(wd d 0).toNat / 2048 % 2 ^ 41 * 2048, BitVec.ofNat 12 (ufield (wd d 1) 0 12), BitVec.ofNat 4 (ufield (wd d 1) 12 4),
    ufield (wd d 1) 16 4, wd d 2⟩
/-- A job descriptor that fails row 2 of R328. -/
def badJob (d : List Word) : Bool :=
  ufield (wd d 0) 0 11 != 0 || ufield (wd d 0) 52 12 != 0 || ufield (wd d 1) 0 12 == 0 || ufield (wd d 1) 12 4 == 0 ||
  ufield (wd d 1) 20 44 != 0 || ufield (wd d 2) 0 6 != 0 || ufield (wd d 2) 56 8 != 0 ||
  [3, 4, 5, 6, 7].any (fun i => wd d i != 0)

/-- Pair `i` of a stencil mask (R327). -/
def stencilPair (w : Word) (i : Nat) : Int × Int := (sfield w (8 * i) 4, sfield w (8 * i + 4) 4)
/-- The pairs in use. -/
def stencilPairs (w : Word) : List (Int × Int) := ((List.range 8).map (stencilPair w)).filter (fun p => p != (0, 0))

/-- A working-set entry (R329). -/
def wsOf (d : List Word) : WsEntry :=
  let w := wd d 0
  { kind := ufield w 0 4, dep := w.getLsbD 4, hint := BitVec.ofNat 2 (ufield w 8 2), init := ufield w 10 2,
    fmt := (decodeFmt (BitVec.ofNat 4 (ufield w 12 4))).getD .f32, greg := BitVec.ofNat 5 (ufield w 16 5),
    name := BitVec.ofNat 16 (ufield w 24 16), size := ufield w 40 13, src := wd d 1, sx := wd d 2, sy := wd d 3 }
/-- A working-set entry that by itself fails R329 or R330. -/
def badWs (d : List Word) : Bool :=
  let w := wd d 0
  let e := wsOf d
  let seg := e.kind == 1
  e.kind == 0 || decide (3 < e.kind) || ufield w 5 3 != 0 || ufield w 21 3 != 0 || ufield w 53 11 != 0 ||
  e.size == 0 || decide (4096 < e.size) || (decodeFmt (BitVec.ofNat 4 (ufield w 12 4))).isNone ||
  (!seg && (e.init != 0 || ufield w 12 4 != 0 || e.greg != 0 || e.name != 0)) || (seg && e.name == 0) ||
  (seg && decide (e.init < 2) && (e.src != 0 || e.sx != 0 || e.sy != 0)) ||
  (seg && e.fmt == .e2m1b && e.size % 9 != 0) ||
  ((e.kind == 3 || (seg && e.init == 3)) && ufield e.sy 32 32 != 0)

/-- A launch descriptor (R327). -/
def launchOf (d : List Word) (ws : List WsEntry) : LaunchDesc :=
  let w2 := wd d 2
  { code := wd d 0, dict := wd d 1, dcnt := ufield w2 0 11, did := BitVec.ofNat 16 (ufield w2 16 16), vcnt := ufield w2 32 10,
    mcnt := ufield w2 44 4, swlo := ufield w2 48 5, swhi := ufield w2 56 5, barm := wd d 3, nx := ufield (wd d 4) 0 17,
    ny := ufield (wd d 4) 32 17, dim2 := (wd d 5).getLsbD 0, sten := (wd d 5).getLsbD 1, skp := (wd d 5).getLsbD 2,
    cmpw := (wd d 5).getLsbD 3, prio := ufield (wd d 5) 8 4, h := ufield (wd d 6) 0 14, rl := ufield (wd d 6) 16 14,
    rseed := wd d 7, ws := ws, phase := BitVec.ofNat 16 (ufield (wd d 9) 8 16), graph := BitVec.ofNat 16 (ufield (wd d 9) 24 16),
    stmsk := if (wd d 5).getLsbD 1 then stencilPairs (wd d 10) else [],
    preds := ((List.range 4).map (fun i => wd d (11 + i))).filterMap (fun w =>
      if w.getLsbD 0 then some ⟨w.getLsbD 1, w &&& 0x00FFFFFFFFFFFFC0⟩ else none),
    ljcb := wd d 15, args := (List.range 8).map (fun i => wd d (16 + i)), gmask := wd d 24, plc := ufield (wd d 25) 0 2 }

/-- Lines of the segments a working set creates (R161). -/
def LaunchDesc.anchored (d : LaunchDesc) : Nat := ((d.ws.filter (fun e => e.kind == 1)).map (·.size)).sum
/-- F of R161. -/
def LaunchDesc.floor (d : LaunchDesc) : Nat := d.anchored + d.h
/-- The SEG entries with their numbers. -/
def LaunchDesc.segs (d : LaunchDesc) : List (WsEntry × Nat) := d.ws.zipIdx.filter (fun p => p.1.kind == 1)

/-- Row 2 of R328. -/
def badLaunch (d : List Word) : Bool :=
  let l := launchOf d []
  let w2 := wd d 2
  let w4 := wd d 4
  let w5 := wd d 5
  let w6 := wd d 6
  let w9 := wd d 9
  let va (w : Word) (align : Nat) : Bool := w.toNat % align != 0 || ufield w 56 8 != 0
  va l.code 512 || va l.dict 128 || l.dcnt == 0 || decide (1024 < l.dcnt) || ufield w2 11 5 != 0 || ufield w2 42 2 != 0 ||
  ufield w2 53 3 != 0 || ufield w2 61 3 != 0 || decide (l.vcnt < 32 ∨ 640 < l.vcnt) || l.vcnt % 32 != 0 || decide (8 < l.mcnt) ||
  decide (l.swlo = 0 ∨ 16 < l.swlo ∨ l.swhi < l.swlo ∨ 16 < l.swhi) || decide (l.nx = 0 ∨ 65536 < l.nx) ||
  decide (l.ny = 0 ∨ 65536 < l.ny) || (!l.dim2 && l.ny != 1) || ufield w4 17 15 != 0 || ufield w4 49 15 != 0 ||
  (l.sten && !l.dim2) || ufield w5 4 4 != 0 || ufield w5 12 52 != 0 || decide (8192 < l.h ∨ 8192 < l.rl) ||
  ufield w6 14 2 != 0 || ufield w6 30 34 != 0 || ufield w9 5 3 != 0 || ufield w9 40 24 != 0 || decide (16 < ufield w9 0 5) ||
  ufield (wd d 8) 56 8 != 0 || (wd d 8 == 0 && ufield w9 0 5 != 0) ||
  (stencilPairs (wd d 10)).any (fun p => !decide (p.2 < 0 ∨ (p.2 = 0 ∧ p.1 < 0))) ||
  [11, 12, 13, 14].any (fun i => ufield (wd d i) 2 4 != 0 || ufield (wd d i) 56 8 != 0) ||
  va l.ljcb 64 || decide (2 ≤ l.plc) || ufield (wd d 25) 2 62 != 0 || [26, 27, 28, 29, 30, 31].any (fun i => wd d i != 0)

/-- RL below F (R328 row 2), once the working set is known. -/
def LaunchDesc.badRl (l : LaunchDesc) : Bool := l.rl != 0 && decide (l.rl < l.floor)

/-! ### Launch records -/

def State.launchBy (s : State) (id : Nat) : Option Launch := s.launches.find? (fun l => l.id == id)
def State.modLaunch (s : State) (id : Nat) (f : Launch → Launch) : State :=
  { s with launches := s.launches.map (fun l => if l.id = id then f l else l) }

/-- Current number of tasks. -/
def Launch.count (l : Launch) : Nat := l.nx * (l.desc.map (·.ny)).getD 1
/-- The index (x, y) of task `n` (R335). -/
def Launch.xy (l : Launch) (n : Nat) : Nat × Nat :=
  if (l.desc.map (·.dim2)).getD false then (n % l.nx, n / l.nx) else (n, 0)

/-- A record enters the launch table (R325): false where it is full. -/
def State.takeLaunch (s : State) (part : BitVec 3) (jd ld : Word) : Bool × State :=
  if 4096 ≤ s.launches.countP (fun l => l.part == part && !l.done) then (false, s)
  else
    let l : Launch := { id := s.fresh, part := part, jd := jd, ld := ld, job := none, desc := none, nx := 0, next := 0, again := [],
                        retired := [], trigd := [], weights := [], trigSt := .ok, cancelled := false, failed := false,
                        done := false, barGroups := [], started := false, eligAt := none, shut := false, away := [] }
    (true, { s.bump with launches := s.launches ++ [l] })

/-! ### Job control blocks (R347) -/

def statusCode : Status → Nat
  | .ok => 0
  | .cancelled => 1
  | .poisoned => 2
def codeStatus (n : Nat) : Status := match n with | 0 => .ok | 1 => .cancelled | _ => .poisoned

/-- A JCB the dispatcher keeps itself (R428). -/
def State.keptAt (s : State) (asid : BitVec 12) (va : Word) : Option KeptJcb :=
  s.kept.find? (fun k => k.asid == asid && k.va == va)

/-- The words of a JCB in memory, as the dispatcher finds them. -/
def State.jcbWords (s : State) (j : JobDesc) (va : Word) : Option (List Word) := s.peekWords j.asid j.root va 8 .system
/-- A JCB whose page is absent for now: what needs it is held (R428). -/
def State.jcbAway (s : State) (j : JobDesc) (va : Word) : Bool :=
  (s.keptAt j.asid va).isNone && (match s.translate j.asid j.root va .system with
    | (.fault c, _) => c.kind == .served
    | _ => false)
/-- The reads by which the dispatcher finds them: through the slices in the class of the job, each lost or reported as any
other (R72, R86, R101, R112). -/
def State.pollJcb (s : State) (j : JobDesc) (va : Word) : State :=
  if (s.keptAt j.asid va).isSome then s else (s.wordsAt j.asid j.root va 8 .system j.ten).2
def State.pollAll (s : State) (j : JobDesc) (l : List Word) : State := l.foldl (fun s va => s.pollJcb j va) s
/-- A JCB that a new launch opens is in memory again. -/
def State.dropKept (s : State) (j : JobDesc) (va : Word) : State :=
  { s with kept := s.kept.filter (fun k => !(k.asid == j.asid && k.va == va)) }
/-- DONE, ST and TRG as the dispatcher has them. -/
def State.jcbDone (s : State) (j : JobDesc) (va : Word) : Bool :=
  match s.keptAt j.asid va with
  | some k => k.done
  | none => ((s.jcbWords j va).map (fun d => (wd d 0).getLsbD 2)).getD false
def State.jcbStatus (s : State) (j : JobDesc) (va : Word) : Status :=
  match s.keptAt j.asid va with
  | some _ => .poisoned
  | none => ((s.jcbWords j va).map (fun d => codeStatus (ufield (wd d 0) 0 2))).getD .ok
def State.jcbTrg (s : State) (j : JobDesc) (va : Word) : Nat :=
  match s.keptAt j.asid va with
  | some k => k.trg.toNat
  | none => ((s.jcbWords j va).map (fun d => (wd d 3).toNat)).getD 0

/-- Writes the words of a JCB, in the class of its job (R101, R326). -/
def State.putJcb (s : State) (j : JobDesc) (pa : Nat) (un : Bool) (d : List Word) : State :=
  s.feltWrite pa ((List.range 8).map (fun i => natBytes 8 (wd d i).toNat)).flatten j.ten un

/-! ### Completion of predecessors (R335, R352, R358) -/

/-- The launch of a JCB, as the dispatcher holds it: the last one read, where the JCB has been used again. -/
def State.launchOfJcb (s : State) (part : BitVec 3) (j : JobDesc) (va : Word) : Option Launch :=
  (s.launches.filter (fun l => l.part == part && (l.job.any (fun k => k.asid == j.asid)) &&
    (l.desc.any (fun d => d.ljcb == va)))).getLast?
/-- Every task of the launch of a JCB has been counted as triggered. -/
def State.allTriggered (s : State) (part : BitVec 3) (j : JobDesc) (va : Word) : Bool :=
  s.jcbDone j va || (match s.launchOfJcb part j va with
    | some l => decide (s.jcbTrg j va = l.count)
    | none => false)
/-- A predecessor link is satisfied. -/
def State.linkMet (s : State) (part : BitVec 3) (j : JobDesc) (p : Pred) : Bool :=
  if p.erl then s.allTriggered part j p.pjcb else s.jcbDone j p.pjcb
/-- The status that triggers of a launch carried. -/
def State.triggerStatus (s : State) (part : BitVec 3) (j : JobDesc) (va : Word) : Status :=
  match s.launchOfJcb part j va with
  | some l => if l.failed then s.jcbStatus j va else l.trigSt
  | none => s.jcbStatus j va
/-- Input status of a launch: the greatest status of its ERL = 0 predecessors (R352). -/
def State.inputStatus (s : State) (j : JobDesc) (d : LaunchDesc) : Status :=
  (d.preds.filter (fun p => !p.erl)).foldl (fun st p => st.max (s.jcbStatus j p.pjcb)) .ok

/-- A launch is eligible: its links are met, and every launch of a lower phase submitted earlier has completed. -/
def State.eligible (s : State) (l : Launch) : Bool :=
  match l.job, l.desc with
  | some j, some d =>
    d.preds.all (s.linkMet l.part j) &&
    (s.launches.takeWhile (fun x => x.id != l.id)).all (fun x => x.done || x.jd != l.jd || x.part != l.part ||
      (match x.desc with | some e => decide (d.phase.toNat ≤ e.phase.toNat) | none => false))
  | _, _ => false
/-- The L1 is invalidated before the first task of a launch is dispatched on this die, but for an early dependant's; the
loop buffer goes with it (R58, R319, R342). -/
def State.freshL1 (s : State) (l : Launch) (d : LaunchDesc) : State :=
  if l.started ∨ d.preds.any (·.erl) then s else { s with l1 := [], loopBuf := [] }
/-- The first task of a launch is dispatched on this die. -/
def State.firstTask (s : State) (l : Launch) (d : LaunchDesc) : State :=
  (s.freshL1 l d).modLaunch l.id (fun x => { x with started := true })
/-- A launch has just become eligible. -/
def State.newlyEligible (s : State) (l : Launch) : Bool := l.eligAt.isNone && !l.done && s.eligible l
/-- What a launch that becomes eligible brings: the reads of its predecessors' JCBs, and the first dispatch of the tasks
that members of other cores have taken. -/
def State.meetLinks (s : State) (l : Launch) : State :=
  match l.job, l.desc with
  | some j, some d =>
    let t := s.pollAll j (d.preds.map (·.pjcb))
    if l.away = [] then t else t.firstTask l d
  | _, _ => s
/-- Launches that have just become eligible note it: EP counts from then (R336). -/
def State.noteEligible (s : State) : State :=
  if s.launches.any s.newlyEligible then
    let t := (s.launches.filter s.newlyEligible).foldl State.meetLinks s
    { t.bump with launches := t.launches.map (fun l =>
        if s.launches.any (fun x => x.id == l.id && s.newlyEligible x) then { l with eligAt := some t.fresh } else l) }
  else s

/-! ### Posts (R349, R353, R428) -/

/-- What one post does to the words of a JCB (R349, R353, R357, R360): final once DONE; a launch that failed at its
first read finds what another left there. -/
def postWords (p : Post) (d : List Word) : List Word :=
  let w0 := wd d 0
  if w0.getLsbD 2 && !p.whole then d
  else if p.lvl = 5 then d.set 3 (wd d 3 + 1)
  else
    let st0 := if p.whole then 0 else ufield w0 0 2
    let st := Nat.max st0 (statusCode p.status)
    let first := st0 == 0 && st != 0
    let exp := if p.whole then 1 else wd d 1
    let cmpw := w0.getLsbD 7 && !p.whole
    let cnt := if p.whole then 1 else if p.raiseOnly || cmpw then wd d 2 else wd d 2 + 1
    let wt := if cmpw && !p.raiseOnly then wd d 6 - BitVec.ofNat 64 p.weight else wd d 6
    let done := !p.raiseOnly && (if cmpw then wt == 0 else decide (exp.toNat ≤ cnt.toNat))
    let head : Nat := st + (if done then 4 else 0) + ufield w0 3 13 * 8 +
      (if first then p.cause * 65536 + p.ent.toNat * 2 ^ 32 else ufield w0 16 48 * 65536)
    let d1 := ((d.set 0 (BitVec.ofNat 64 head)).set 1 exp).set 2 cnt
    let d2 := d1.set 6 wt
    if p.whole then (d2.set 3 0).set 4 0 else d2

/-- The posts that a completed launch makes to its graph, phase and job, in that order (R349). The one to the job bears the
launch's own cause where its JCB could not be written: `p` is then its one post (R353). -/
def State.postsUp (s : State) (p : Post) (st : Status) : List Post :=
  let up (lvl : Nat) (va : Word) : Post :=
    let q : Post := { p with jcb := va, lvl := lvl, status := st, cause := (if st = .ok then 0 else 10), ent := 0, weight := 0,
                             whole := false, raiseOnly := false }
    if lvl = 4 ∧ p.whole then { q with cause := p.cause, ent := 0xFFFFFFFF } else q
  let d := (s.jcbWords p.job p.job.jjcb).getD []
  match s.launchBy p.launch with
  | some l => match l.desc with
    | some x =>
      let g := if wd d 4 = 0 then [] else [up 2 (wd d 4 + 64 * x.graph.setWidth 64)]
      let h := if wd d 5 = 0 then [] else [up 3 (wd d 5 + 64 * x.phase.setWidth 64)]
      g ++ h ++ [up 4 p.job.jjcb]
    | none => [up 4 p.job.jjcb]
  | none => [up 4 p.job.jjcb]

/-- A launch of a job that a cancel of level 0 or 1 names, or that is not read yet and may be it: (R354, R355). -/
def Launch.named (l : Launch) (c : Nat × Word × Word × Nat) : Bool :=
  l.jd == c.2.1 && !l.done && (match l.desc with
    | none => l.job.isNone
    | some d => d.ljcb == c.2.2.1 && (c.1 == 1 || (decide (c.2.2.2 % 65536 < l.nx) && decide (c.2.2.2 / 65536 < d.ny))))
/-- Cancels of launches and tasks that no longer name any go (R355). -/
def State.pruneCancels (s : State) : State :=
  { s with cancels := s.cancels.filter (fun c => decide (2 ≤ c.1) || s.launches.any (fun l => l.named c)) }
/-- Cancels of an instance that is DONE go: a later one of the same JCB is another instance. -/
def State.endCancels (s : State) (jd va : Word) (lvl : Nat) : State :=
  { s with cancels := s.cancels.filter (fun c => !(c.2.1 == jd && c.2.2.1 == va && (c.1 == lvl || (lvl == 1 && c.1 == 0)))) }

/-- A launch completes: its record is done, what it holds is free, and its own posts follow. Where the job JCB cannot
be read just then, they wait for it: level 6 (R428). -/
def State.launchDone (s : State) (p : Post) (st : Status) : State :=
  let s := s.pollJcb p.job p.job.jjcb
  let ups := if (s.jcbWords p.job p.job.jjcb).isSome then s.postsUp p st
    else [{ p with jcb := p.job.jjcb, lvl := 6, status := st, weight := 0, raiseOnly := false }]
  let s1 := (s.modLaunch p.launch (fun l => { l with done := true })).endCancels p.jd p.jcb 1
  { s1 with posts := ups ++ s1.posts, barHeld := s1.barHeld.filter (fun b => b.2.2 != p.launch)
            reserved := if s1.reserved = some p.launch then none else s1.reserved }

/-- A level-6 post becomes the posts it stands for, once the job JCB can be read; where it never can, the one to the
job, which its tables do not reach. -/
def State.expandPost (s : State) (p : Post) : State :=
  match s.translate p.job.asid p.job.root p.job.jjcb .system with
  | (.fault c, s1) =>
    if c.kind = .served then { s1.park .post p.job.jjcb c p.job with posts := p :: s.posts }
    else { s1 with posts := s1.postsUp p p.status ++ s.posts }
  | (.ok _ _, s1) =>
    let s2 : State := { s1 with parked := s1.parked.filter (fun q => q.by_ != .post) }
    { s2 with posts := s2.postsUp p p.status ++ s2.posts }

/-- EXP of a JCB that the dispatcher keeps: that of a graph, phase or job JCB follows what software raises, as long as it
can be read (R350, R428). -/
def State.keptExp (s : State) (p : Post) (k : KeptJcb) : Word :=
  if p.lvl = 1 ∨ p.lvl = 5 then k.exp else ((s.jcbWords p.job p.jcb).map (fun d => wd d 1)).getD k.exp
/-- A post the dispatcher performs on a JCB it keeps (R428). -/
def State.postKept (s : State) (p : Post) (k : KeptJcb) : State :=
  let one : Word := if p.lvl = 5 ∨ p.raiseOnly then 0 else if p.weight = 0 then 1 else BitVec.ofNat 64 p.weight
  let k1 : KeptJcb := { k with exp := s.keptExp p k, cnt := k.cnt + one, trg := if p.lvl = 5 then k.trg + 1 else k.trg }
  let fin := !k.done && !p.raiseOnly && p.lvl != 5 && (p.whole || decide (k1.exp.toNat ≤ k1.cnt.toNat))
  let s1 : State := { s with kept := s.kept.map (fun x => if x = k then { k1 with done := k.done || fin } else x) }
  if fin && p.lvl == 1 then s1.launchDone p .poisoned else if fin then s1.endCancels p.jd p.jcb p.lvl else s1

/-- Posts still to be made that a test holds of. -/
def State.owing (s : State) (f : Post → Bool) : Nat := s.posts.countP f
/-- The tasks that contexts and images hold. -/
def State.tasksHeld (s : State) : List Task :=
  s.ctx.task.toList ++ (s.others.map (fun c => c.2.task.toList)).flatten ++ s.images.filterMap (·.ctx.task)
/-- The weight of a launch that no performed post has given back (R360): of its posts to come and of its tasks that have
not retired. -/
def State.weightLeft (s : State) (l : Launch) : Nat :=
  let of_ (n : Nat) : Nat := match s.tasksHeld.find? (fun t => t.launch == l.id && t.x + l.nx * t.y == n) with
    | some t => t.weight
    | none => l.weights.get (2 ^ 31) n
  (((List.range l.count).filter (fun n => !l.retired.contains n)).map of_).sum +
    ((s.posts.filter (fun p => p.launch == l.id && p.lvl == 1)).map (·.weight)).sum
/-- Posts counted so far in a graph, phase or job JCB that is not DONE. -/
def State.postedAt (s : State) (asid : BitVec 12) (va : Word) : Nat :=
  ((s.posted.find? (fun x => x.1 == asid && x.2.1 == va)).map (·.2.2)).getD 0
/-- A post to such a JCB is counted; the count ends with the instance. -/
def State.countPost (s : State) (p : Post) (was done : Bool) : State :=
  if p.lvl < 2 ∨ 4 < p.lvl ∨ p.raiseOnly ∨ was then s
  else
    let rest := s.posted.filter (fun x => !(x.1 == p.job.asid && x.2.1 == p.jcb))
    { s with posted := if done then rest else rest ++ [(p.job.asid, p.jcb, s.postedAt p.job.asid p.jcb + 1)] }
/-- The JCB as the dispatcher takes it over (R428): what its own records say was posted, and the EXP that software wrote
where the JCB can still be read. -/
def State.takeOver (s : State) (p : Post) : KeptJcb :=
  let l := s.launchBy p.launch
  let mine (q : Post) : Bool := q.launch == p.launch && !q.raiseOnly
  let cmpw := (l.bind (·.desc)).any (·.cmpw)
  if 2 ≤ p.lvl ∧ p.lvl ≤ 4 then
    ⟨p.job.asid, p.jcb, ((s.jcbWords p.job p.jcb).map (fun d => wd d 1)).getD (Config.freeWord s.fresh),
      BitVec.ofNat 64 (s.postedAt p.job.asid p.jcb), 0, false⟩
  else
    let one := if p.lvl = 5 ∨ p.raiseOnly then 0 else 1
    let cnt := (l.map (·.retired.length)).getD 0 - s.owing (fun q => mine q && q.lvl == 1) - one
    let trg := (l.map (·.trigd.length)).getD 0 - s.owing (fun q => mine q && q.lvl == 5) - (if p.lvl = 5 then 1 else 0)
    if cmpw then ⟨p.job.asid, p.jcb, BitVec.ofNat 64 ((l.map s.weightLeft).getD 0 + p.weight), 0, BitVec.ofNat 64 trg, false⟩
    else ⟨p.job.asid, p.jcb, BitVec.ofNat 64 ((l.map (·.count)).getD 0), BitVec.ofNat 64 cnt, BitVec.ofNat 64 trg, false⟩

/-- A post that cannot be performed: the dispatcher keeps the JCB from here on, and the job learns of it, from JCBLOST or
from the one post of a launch that failed at its first read (R353, R428). -/
def State.loseJcb (s : State) (p : Post) : State :=
  let s1 := s.noJcb p.part p.jcb
  let k := s.takeOver p
  let s2 : State := { s1.bump with kept := s1.kept ++ [k]
                                   posted := s1.posted.filter (fun x => !(x.1 == p.job.asid && x.2.1 == p.jcb)) }
  let s3 := s2.postKept p k
  if p.lvl = 4 ∨ p.jcb = p.job.jjcb ∨ p.whole then s3
  else
    let q : Post := { p with jcb := p.job.jjcb, lvl := 4, status := .poisoned, cause := 11, ent := 0xFFFFFFFF, weight := 0,
                             raiseOnly := true }
    { s3 with posts := q :: s3.posts }

/-- JCB_POST (R349, R428): the oldest post is performed, held on a page that is absent, or lost. -/
def State.postNext (s : State) : State :=
  match s.posts with
  | [] => s
  | p :: rest =>
    let s0 : State := { s with posts := rest }
    if p.lvl = 6 then s0.expandPost p
    else match s.keptAt p.job.asid p.jcb with
    | some k => s0.postKept p k
    | none =>
      if p.jcb.toNat % 64 ≠ 0 then s0.loseJcb p
      else match s.translate p.job.asid p.job.root p.jcb .write with
        | (.fault c, s1) =>
          if c.kind = .served then s1.park .post p.jcb c p.job
          else ({ (if c = Cause.pteBad then s1.report c p.jcb else s1) with posts := rest }).loseJcb p
        | (.ok pa tl, s1) =>
          let s2 : State := { s1 with posts := rest, parked := s1.parked.filter (fun q => q.by_ != .post) }
          if s2.layerOff pa then (s2.dropAccess pa).loseJcb p
          else
            let d := (List.range 8).map (fun i => s2.memWord (pa + 8 * i))
            let d1 := postWords p d
            let s3 := (s2.putJcb p.job pa (tl.kind == kindUN) d1).countPost p ((wd d 0).getLsbD 2) ((wd d1 0).getLsbD 2)
            let done := (wd d1 0).getLsbD 2 && (p.whole || !(wd d 0).getLsbD 2)
            if p.lvl = 1 ∧ done then s3.launchDone { p with whole := false } (codeStatus (ufield (wd d1 0) 0 2))
            else if done then s3.endCancels p.jd p.jcb p.lvl else s3
def execJcbPost (s : State) : Out := .next s.postNext.noteEligible

/-! ### TRIG, WVIS, GROW (R357 to R360) -/

/-- TRIG: a release at scope part, counted once it is performed. A second one makes the same release, of a task that is
counted already (R357). -/
def execTrig (s : State) : Out :=
  .next (match s.ctx.task with
    | none => s
    | some t =>
      let q : Req := { id := s.fresh, ctx := s.cur, act := .trig, pa := 2 ^ 60, width := 0, kind := kindRC, hint := 0, w := false,
                       ord := .release, scope := .part, ten := 0, key := 0 }
      { s.bump.modCtx (fun c => { c with task := some { t with trig := true } }) with reqs := s.reqs ++ [q] })

/-- WVIS: waits for every early predecessor's triggers, then acquires. -/
def execWvis (s : State) : Out := fin (do
  match s.ctx.task with
  | none => pure { s with l1 := [] }
  | some t =>
    s.until (t.erl.all (fun va => s.allTriggered t.part t.job va)) .barrier
    let st : Status := t.erl.foldl (fun (x : Status) va => x.max (s.triggerStatus t.part t.job va)) Status.ok
    pure (({ s with l1 := [] }.pollAll t.job t.erl).modCtx (fun c => { c with task := some { t with inp := t.inp || decide (st ≠ Status.ok) } })))

/-- The JCB of a launch takes a new task count (R359): done, held on an absent page, or kept by the dispatcher. -/
def State.growJcb (s : State) (t : Task) (k nx : Nat) : Option State :=
  match s.keptAt t.job.asid t.ljcb with
  | some x =>
    some { s with kept := s.kept.map (fun y => if y = x ∧ !t.cmpw then { y with exp := y.exp + BitVec.ofNat 64 k } else y) }
  | none => match s.translate t.job.asid t.job.root t.ljcb .write with
    | (.fault c, s1) => if c.kind = .served then none else some s1
    | (.ok pa tl, s1) =>
      let d := (List.range 8).map (fun i => s1.memWord (pa + 8 * i))
      let d1 := if t.cmpw then d else d.set 1 (wd d 1 + BitVec.ofNat 64 k)
      some (if s1.layerOff pa then s1.dropAccess pa else s1.putJcb t.job pa (tl.kind == kindUN) (d1.set 4 (BitVec.ofNat 64 (nx + k))))

/-- GROW. -/
def execGrow (a : AReg) (s : State) : Out := fin (do
  s.live 0 [a]
  match s.ctx.task with
  | none => pure s
  | some t =>
    s.need (!t.dim2) 0 .badGrow 0
    s.need (!t.trig) 0 .growLate 0
    let k := (s.rd.ra a).toNat
    let nx := ((s.launchBy t.launch).map (·.nx)).getD 0
    let q := t.weight / (k + 1)
    if k = 0 then pure (s.setA a (BitVec.ofNat 64 nx))
    else if 65536 - nx < k ∨ (t.cmpw ∧ q = 0) then pure (s.setA a 0xFFFFFFFFFFFFFFFF)
    else match s.growJcb t k nx with
      | none => .error ((s.park .post t.ljcb .pgAbsent t.job).wait .engine)
      | some s1 =>
        let ws (l : Launch) : Store Nat :=
          if t.cmpw then (List.range k).foldl (fun m i => m.set (2 ^ 31) (nx + i) q) l.weights else l.weights
        let s2 := s1.modLaunch t.launch (fun l => { l with nx := nx + k, weights := ws l })
        let t1 : Task := if t.cmpw then { t with weight := t.weight - k * q } else t
        pure ((s2.modCtx (fun c => { c with task := some t1 })).setA a (BitVec.ofNat 64 nx)))

end Sys2Proof.Machine
end

