-- ==== Sys2Proof/Machine/Layers.lean ====
section
/-! DEFINITION. What happens below a core: translation caches and their invalidation, the near stores, the
slices' registers, compression and the vertical links (R75 to R86, R91, R102, R103, R112 to R114). -/

namespace Sys2Proof.Machine

/-! ### Writing registers of this core's partition (R7) -/

/-- Writes a register of this core's partition, reserved bits dropped. -/
def State.putBar (s : State) (off : Nat) (mask v : Word) : State := s.setBar s.part.toNat off (v &&& mask)

def regXIVA : Nat := 0x10000
def regXIVN : Nat := 0x10008
def regXIVC : Nat := 0x10010
def regXIVS : Nat := 0x10018
def regL2WM (c : Nat) : Nat := 0x10100 + 8 * c
def regL2CMD : Nat := 0x10210
def regCMPCTL : Nat := 0x10300
def regNSPT (die : Nat) : Nat := 0x20000 + 0x1000 * die
def regNSEP (die : Nat) : Nat := 0x20008 + 0x1000 * die
def regNSRSV (die : Nat) : Nat := 0x20010 + 0x1000 * die

/-! ### Misses and walks (R75, R76) -/

/-- A staging copy waits for a unit on a page of an address space: its miss is one of staging (R75). -/
def State.stagingMiss (s : State) (asid : BitVec 12) (va : Word) : Bool :=
  let on (a : Word) : Bool := a.toNat / 65536 == va.toNat / 65536
  s.staging.any (fun c => match c.src with
    | .glob b => c.task.any (·.job.asid == asid) && on (b + BitVec.ofNat 64 (64 * c.done))
    | .tile h co => asid == 0 && (match s.tileOf h co true with
      | .ok t _ => !t.far && on (BitVec.ofNat 64 (t.at_ + 64 * c.done))
      | .waits _ | .fault _ _ _ => false)
    | _ => false)
/-- TLB_MISS: a miss of the core's TLB becomes one of the Felt's misses (R75). -/
def execTlbMiss (asid : BitVec 12) (va : Word) (s : State) : Out :=
  .next (if s.tlb.any (·.covers asid va) || ufield va 56 8 != 0 then s else s.noteMiss asid va (s.stagingMiss asid va))

/-- PAGE_WALK: a walker reads the tables and installs the leaf it finds, for every miss that it serves; a walk that finds
none is met again by the access that needs it. A miss without an entry waits; one of an address space that no job has
any more is dropped. -/
def execPageWalk (asid : BitVec 12) (va : Word) (s : State) : Out :=
  let mine (m : Miss) : Bool := s.missOn asid va m
  .next (if s.tlb.any (·.covers asid va) || s.tcache.any (·.covers asid va) || ufield va 56 8 != 0 then s
    else if s.misses.any mine && !(missesServed (missHeld [] s.misses)).any mine then s
    else match s.rootOf asid with
      | none => { s with misses := s.misses.filter (fun m => !mine m) }
      | some root => match s.walk asid root va with
        | .leaf t => (s.walkAccess root va).install t
        | .absent | .bad => { s.walkAccess root va with misses := s.misses.filter (fun m => !mine m) })

/-! ### Invalidation (R78, R79) -/

/-- XIVC_GO: a write of XIVC; with GO = 1 an invalidation starts or is refused. -/
def State.xivcGo (s : State) (w : Word) : State :=
  if !w.getLsbD 31 then s.putBar regXIVC 0x3FFF w
  else
    let busy := (s.bar regXIVS).getLsbD 0
    let scope := ufield w 12 2
    if busy || scope == 3 || (scope == 0 && s.bar regXIVN == 0) then s.putBar regXIVS 3 (s.bar regXIVS ||| 2)
    else
      let s1 := s.putBar regXIVC 0x3FFF w
      ({ s1 with inval := some (s1.bar regXIVA, s1.bar regXIVN, s1.bar regXIVC) }).putBar regXIVS 3 1
def execXivcGo (w : Word) (s : State) : Out := .next (s.xivcGo w)

/-- The registers that govern the invalidation in progress: as they stood at GO. -/
def State.invalRegs (s : State) : Word × Word × Word :=
  s.inval.getD (s.bar regXIVA, s.bar regXIVN, s.bar regXIVC)
/-- Whether an invalidation drops an address space's translation of `size` bytes at `va`. -/
def State.invalidates (s : State) (asid : BitVec 12) (va size : Nat) : Bool :=
  let (a, n, c) := s.invalRegs
  match ufield c 12 2 with
  | 0 => asid.toNat == ufield c 0 12 && decide (va < a.toNat + 65536 * n.toNat ∧ a.toNat < va + size)
  | 1 => asid.toNat == ufield c 0 12
  | _ => true

/-- What a leaf that the Felt knows says now, where it still maps its page (R83). -/
def State.reread (s : State) (t : Tlb) : Option Tlb :=
  let e := s.memWord t.ent
  if e.getLsbD 0 && !e.getLsbD 1 && e.toNat / 65536 % 2 ^ 36 * 65536 == t.pa then some { t with nsh := BitVec.ofNat 2 (ufield e 10 2) }
  else none
/-- Drops every matching translation, and quires fetched through one; the hints of pages that are still mapped are read
again. -/
def State.dropTranslations (s : State) (hit : BitVec 12 → Nat → Nat → Bool) : State :=
  { s with tlb := s.tlb.filter (fun t => !hit t.asid t.va t.size)
           tcache := s.tcache.filter (fun t => !hit t.asid t.va t.size)
           pages := s.pages.filterMap (fun t => if hit t.asid t.va t.size then s.reread t else some t)
           loopBuf := s.loopBuf.filter (fun q => !hit q.asid q.frame.toNat 512) }

/-- A staged write of a context waits for its commit. -/
def State.anyStaged (s : State) : Bool := !s.ctx.watch.staged.isEmpty || s.others.any (fun c => !c.2.watch.staged.isEmpty)

/-- INVALIDATION_COMPLETE: every matching entry is dropped; BUSY returns to 0 once the accesses that used one
have been performed. -/
def execInvalidationComplete (s : State) : Out :=
  .next (if !(s.bar regXIVS).getLsbD 0 then s
    else
      let s1 := s.dropTranslations s.invalidates
      if s1.reqs.isEmpty && s1.zstores.isEmpty && !s1.anyStaged then
        { s1.putBar regXIVS 2 (s1.bar regXIVS) with inval := none } else s1)

/-! ### The near stores (R82 to R86) -/

/-- Managed frames of a die: 4,096 in each bank group that is neither reserved nor off. -/
def State.frames (s : State) (die : Nat) : Nat :=
  4096 * ((List.range 32).countP (fun g => !(s.barAt 0 (regNSRSV die)).getLsbD g && !s.nsOff.get false (32 * die + g)))
/-- NSOCC: managed frames in use. A promoted tile takes a whole frame, as a block does (DESIGN CHOICE: R84 counts
64 KiB units and gives a smaller tile no rule; log entry 59). -/
def State.framesUsed (s : State) (die : BitVec 2) : Nat := s.ns.countP (fun b => b.die == die)
/-- The count of a block or tile at a die. -/
def State.countAt (s : State) (die : BitVec 2) (b : Nat) : Nat :=
  s.nsCount.get 0 (if b < 8388608 then 8388608 * die.toNat + b else b + die.toNat)

/-- Where the tile of a tile number lies (`tileBlock`), as its descriptor stands; none for a host or peer tile. -/
def State.tileVa (s : State) (b : Nat) : Option Nat :=
  let k := (b - 2 ^ 26) / 4
  if k % 8 ≠ s.part.toNat then none
  else match s.descriptor (k / 8 % 4096) with
    | .ok d _ => match s.tileOf (BitVec.ofNat 64 (k / 8 % 4096 + 4096 * ufield (d.1.getD 0 0) 8 8)) (BitVec.ofNat 64 (k / 32768)) false with
      | .ok t _ => if t.far then none else some t.at_
      | .waits _ | .fault _ _ _ => none
    | .waits _ | .fault _ _ _ => none
/-- NSH of a block or tile, from the last leaf installed that maps it; a host or peer tile is automatic. -/
def State.nshOf (s : State) (b : Nat) : BitVec 2 :=
  let leaf (f : Tlb → Bool) : BitVec 2 := ((s.pages.find? f).map (·.nsh)).getD 0
  if b < 8388608 then leaf (fun t => decide (t.pa ≤ 65536 * b ∧ 65536 * b < t.pa + t.size))
  else match s.tileVa b with
    | some va => leaf (·.covers 0 (BitVec.ofNat 64 va))
    | none => 0

/-- The automatic block to demote first: lowest count, then longest resident. -/
def State.nsVictim (s : State) (die : BitVec 2) : Option NsBlock :=
  (s.ns.filter (fun b => b.die == die && !b.keep)).foldl (fun o b => match o with
    | none => some b
    | some a => if s.countAt die b.block < s.countAt die a.block ∨
        (s.countAt die b.block = s.countAt die a.block ∧ b.since < a.since) then some b else some a) none
/-- A block leaves the near store. -/
def State.demote (s : State) (b : NsBlock) : State := { s with ns := s.ns.filter (fun c => c != b) }

/-- NS_EPOCH_END: a die's counts are halved. -/
def execNsEpochEnd (die : BitVec 2) (s : State) : Out :=
  let mine (k : Nat) : Bool := if k < 2 ^ 26 then k / 8388608 == die.toNat else (k - 2 ^ 26) % 4 == die.toNat
  .next { s with nsCount := (s.nsCount.map (fun p => if mine p.1 then (p.1, p.2 / 2) else p)).filter (fun p => p.2 != 0) }

/-- A block or tile is kept near: by its hint, and within half of the die's frames (R83). -/
def State.keepsNear (s : State) (die : BitVec 2) (b : Nat) : Bool :=
  s.nshOf b == 1 && decide (2 * (s.ns.countP (fun x => x.die == die && x.keep) + 1) ≤ s.frames die.toNat)
/-- A block or tile enters a free frame, or that of a block with a lower count; one that is kept near takes any automatic
block's. -/
def State.enterNear (s : State) (die : BitVec 2) (b : Nat) : State :=
  let keep := s.keepsNear die b
  let put (s : State) : State := { s.bump with ns := s.ns ++ [⟨die, b, keep, decide (8388608 ≤ b), s.fresh⟩] }
  if s.ns.any (fun x => x.block == b) then s
  else if s.framesUsed die < s.frames die.toNat then put s
  else match s.nsVictim die with
    | some v => if keep ∨ s.countAt die v.block < s.countAt die b then put (s.demote v) else s
    | none => s
/-- NS_PROMOTION: once its hint and count ask for it. -/
def State.promote (s : State) (die : BitVec 2) (b : Nat) : State :=
  let due := if s.keepsNear die b then decide (1 ≤ s.countAt die b)
    else s.nshOf b != 2 && decide ((s.barAt 0 (regNSPT die.toNat)).toNat ≤ s.countAt die b)
  if due then s.enterNear die b else s
def execNsPromotion (die : BitVec 2) (block : Nat) (s : State) : Out := .next (s.promote die block)

/-- NS_DEMOTION: an automatic block that is first in the order of R83, or a keep-near block that is no longer
mapped so or stands beyond half of the frames. -/
def execNsDemotion (die : BitVec 2) (block : Nat) (s : State) : Out :=
  .next (match s.ns.find? (fun b => b.die == die && b.block == block) with
    | none => s
    | some b =>
      if b.keep then
        (if s.nshOf block ≠ 1 ∨ s.frames die.toNat < 2 * s.ns.countP (fun x => x.die == die && x.keep) then s.demote b else s)
      else if s.nsVictim die = some b then s.demote b else s)

/-- Demotes until the die's blocks fit its frames. -/
def State.trimNs (s : State) (die : BitVec 2) : Nat → State
  | 0 => s
  | n + 1 =>
    if s.framesUsed die ≤ s.frames die.toNat then s
    else match s.nsVictim die with
      | some v => (s.demote v).trimNs die n
      | none => match s.ns.find? (fun b => b.die == die) with
        | some b => (s.demote b).trimNs die n
        | none => s

/-- Whether a job runs on a die: a launch of a partition with groups there is not done. -/
def State.jobOn (s : State) (die : Nat) : Bool :=
  s.launches.any (fun l => !l.done && (List.range 16).any (fun g => s.partOf (16 * die + g) == some l.part))

/-- NSRSV_WRITE (R84): ignored while a job runs on the die. -/
def State.writeNsrsv (s : State) (die : BitVec 2) (v : Word) : State :=
  if s.jobOn die.toNat then s
  else (s.setBar 0 (regNSRSV die.toNat) (v &&& 0xFFFFFFFF)).trimNs die s.ns.length
def execNsrsvWrite (die : BitVec 2) (v : Word) (s : State) : Out := .next (s.writeNsrsv die v)

/-- LAYER_POWER_DOWN (R86): a managed bank group is emptied first. -/
def execLayerPowerDown (l : Layer) (s : State) : Out :=
  .next (match l with
    | .bank die g => ({ s with nsOff := s.nsOff.set false (32 * die.toNat + g.toNat) true }).trimNs die s.ns.length
    | .stack n sleep =>
      if sleep then { s with hbmSleep := s.hbmSleep.set false n.toNat true }
      else { s with hbmOff := s.hbmOff.set false n.toNat true })

/-- HBM_WAKE (R86): a stack in self-refresh wakes. -/
def execHbmWake (stack : BitVec 3) (s : State) : Out :=
  .next { s with hbmSleep := s.hbmSleep.set false stack.toNat false }

/-- TMINV_WRITE (R91): the tensor's map cache is dropped. -/
def State.dropMap (s : State) (h : Word) : State :=
  { s with mapCache := s.mapCache.filter (fun m => !(m.part == s.part && m.handle == h)) }
def execTminvWrite (h : Word) (s : State) : Out := .next (s.dropMap h)

/-! ### The slices' registers (R101 to R103) -/

/-- L2WM_WRITE: governs the fills that begin afterwards. -/
def execL2wmWrite (c : BitVec 4) (v : Word) (s : State) : Out := .next (s.putBar (regL2WM c.toNat) 0xFFFF v)

/-- L2_WRITE_BACK: no line of the partition is dirty any more. -/
def State.writeBack (s : State) : State :=
  let t : State := { s with l2 := s.l2.map (fun l => { l with dirty := false }) }
  if s.l2.any (·.dirty) then t.writtenBack else t
/-- BUSY of L2CMD falls once every slice has finished the operation it names. -/
def State.l2Done (s : State) (op : Nat) : State :=
  if (s.bar regL2CMD).getLsbD 31 ∧ ufield (s.bar regL2CMD) 0 2 = op then s.putBar regL2CMD 3 (s.bar regL2CMD) else s
def execL2WriteBack (s : State) : Out := .next (s.writeBack.l2Done 1)

/-- Tile fetches forget the L2 lines that are gone: they are fetched again. -/
def State.dropHeld (s : State) (gone : Nat → Bool) : State :=
  let keep (e : LagEntry) : LagEntry :=
    { e with fetch := e.fetch.map (fun f => { f with held := f.held.filter (fun l => !gone l) }) }
  let f (c : Ctx) : Ctx := { c with lag := c.lag.map keep }
  { s with ctx := f s.ctx, others := s.others.map (fun p => (p.1, f p.2)) }

/-- L2_WRITE_BACK_INVALIDATE: the partition's slices hold nothing. -/
def State.writeBackInvalidate (s : State) : State := ({ s.writeBack with l2 := [] }).dropHeld (fun _ => true)
def execL2WriteBackInvalidate (s : State) : Out := .next (s.writeBackInvalidate.l2Done 2)

/-- CMPCTL_WRITE (R114): compression never changes a value. -/
def execCmpctlWrite (v : Word) (s : State) : Out := .next (s.putBar regCMPCTL 1 v)

/-! ### Vertical links (R112, R113) -/

/-- LINK_REPLAY: a flit is resent and nothing changes; past the replay limit the access it carried is lost, as
one to a powered-off layer: an outstanding load or store by its number, or, under a number that no request has, the
next access that an atomic, a copy, a stream, a fetch or another unit makes. -/
def execLinkReplay (lost : Option Nat) (s : State) : Out :=
  .next (match lost with
    | none => s
    | some i => if s.reqs.length ≤ i then { s with flitLost := true } else match s.mayPerform i with
      | none => s
      | some r =>
        let s1 := s.report .linkFail (BitVec.ofNat 64 r.pa)
        match r.act with
        | .arrive _ _ | .trig => s
        | .store _ _ => s1.dropReq i
        | .areg _ _ | .queue _ _ | .shadow _ =>
          ((s1.arrive r (s.memBytes r.pa r.width) true).acquireL1 r.ord r.scope).dropReq i)

end Sys2Proof.Machine
end

