-- ==== Sys2Proof/Machine/Dispatcher.lean ====
section
/-! DEFINITION. The dispatcher: first read and checks of a launch, admission, staging, dispatch, release,
cancellation (R328 to R346, R351 to R356). Only this core is considered for placement. -/

namespace Sys2Proof.Machine

/-! ### First read of a launch (R328, R348) -/

/-- The words of a working-set table, entry by entry; none where a page cannot be read. -/
def State.wsWords (s : State) (j : JobDesc) (wst : Word) (n : Nat) : Option (List (List Word)) × State :=
  (List.range n).foldl (fun acc e => match acc with
    | (some l, s) => match s.wordsAt j.asid j.root (wst + BitVec.ofNat 64 (32 * e)) 4 .read j.ten with
      | (.ok d, s1) => (some (l ++ [d]), s1)
      | (.error _, s1) => (none, s1)
    | (none, s) => (none, s)) (some [], s)

/-- Row 3 for entry `e`: alone, against earlier entries, and the size of a tile it is filled from. -/
def State.wsFails (s : State) (l : List (List Word)) (e : Nat) : Bool :=
  let d := l.getD e []
  let x := wsOf d
  badWs d ||
  (x.kind == 1 && (l.take e).any (fun f => let y := wsOf f; y.kind == 1 && (y.name == x.name || y.greg == x.greg))) ||
  (x.kind == 1 && x.init == 3 && (match s.descriptor (ufield x.src 0 12) with
    | .ok t _ =>
      let w := wd t.1 0
      w.getLsbD 1 && ufield w 8 8 == ufield x.src 12 8 &&
        128 * x.size != fmtBytes x.fmt (2 ^ (ufield w 16 4 + ufield w 20 4))
    | .waits _ | .fault _ _ _ => false))

/-- Groups in which a launch may run: those of GMASK, or every one, of its partition. -/
def State.launchGroups (s : State) (part : BitVec 3) (gmask : Word) : List Nat :=
  (List.range 64).filter (fun g => (gmask == 0 || gmask.getLsbD g) && s.partOf g == some part)
def State.coreOnline (s : State) (c : Nat) : Bool := if c = s.core.toNat then s.online else !s.coreOut.get false c
/-- The cores of a group. -/
def groupCores (g : Nat) : List Nat := (List.range 8).map (coreAt g)

/-- Row 5 of R328. -/
def State.offline (s : State) (part : BitVec 3) (d : LaunchDesc) : Bool :=
  let gs := s.launchGroups part d.gmask
  (d.plc == 1 && gs.any (fun g => (groupCores g).any (fun c => !s.coreOnline c))) ||
  !gs.any (fun g => (groupCores g).any s.coreOnline)

/-- Reads one word of each of some pages, in the class of a job: whether all are there. -/
def State.readPages (s : State) (j : JobDesc) (l : List Word) : Bool × State :=
  l.foldl (fun acc va => match acc.2.wordsAt j.asid j.root va 1 .read j.ten with
    | (.ok _, s1) => (acc.1, s1)
    | (.error _, s1) => (false, s1)) (true, s)
/-- Pages a launch names that row 1 needs: its predecessors' JCBs and its dictionary image (log entry 32). -/
def LaunchDesc.pages (d : LaunchDesc) : List Word :=
  let first := d.dict.toNat / 65536
  d.preds.map (·.pjcb) ++
  (List.range ((d.dict.toNat + 96 * d.dcnt + 65535) / 65536 - first)).map (fun i => BitVec.ofNat 64 (65536 * (first + i)))

/-- Rows 2 to 5 of R328, for a launch whose pages are there: cause and detail of the first that fails. -/
def State.rowsFault (s : State) (part : BitVec 3) (jw : List Word) (d : LaunchDesc) (lw : List Word) (l : List (List Word)) :
    Option (Nat × Nat) :=
  if badJob jw || badLaunch lw || d.badRl then some (2, 0)
  else match (List.range l.length).find? (s.wsFails l) with
    | some e => some (3, e)
    | none =>
      if 512 * d.swhi < d.floor ∨ 256 < d.segs.length ∨ 32768 < d.anchored then some (4, 0)
      else if s.offline part d then some (5, 0) else none
/-- The first check of R328 that fails: cause and detail; and the state after what it has read. The table is as it was
read. -/
def State.launchFault (s : State) (part : BitVec 3) (jw : List Word) (j : JobDesc) (ld : Word) (lw : List Word)
    (table : Option (List (List Word))) : Option (Nat × Nat) × State :=
  let wst := wd lw 8
  if ld.toNat % 256 ≠ 0 ∨ (wst ≠ 0 ∧ wst.toNat % 32 ≠ 0) then (some (1, 0), s)
  else match table with
    | none => (some (1, 0), s)
    | some l =>
      let d := launchOf lw (l.map wsOf)
      match s.readPages j d.pages with
      | (false, s1) => (some (1, 0), s1)
      | (true, s1) => (s1.rowsFault part jw d lw l, s1)

/-- Whether every used stencil neighbour of a task lies outside or has retired (R356). -/
def Launch.released (l : Launch) (d : LaunchDesc) (n : Nat) : Bool :=
  d.stmsk.all (fun p =>
    let x : Int := (n % l.nx : Nat) + p.1
    let y : Int := (n / l.nx : Nat) + p.2
    !decide (0 ≤ x ∧ x < l.nx ∧ 0 ≤ y ∧ y < d.ny) || l.retired.contains (y.toNat * l.nx + x.toNat))

/-- A cancel already recorded that names a launch, its graph, its phase or its job (R354). -/
def State.cancelledBy (s : State) (j : JobDesc) (jd : Word) (d : LaunchDesc) : Bool :=
  let w := (s.jcbWords j j.jjcb).getD []
  s.cancels.any (fun c => c.2.1 == jd && (match c.1 with
    | 1 => c.2.2.1 == d.ljcb
    | 2 => wd w 4 != 0 && c.2.2.1 == wd w 4 + 64 * d.graph.setWidth 64
    | 3 => wd w 5 != 0 && c.2.2.1 == wd w 5 + 64 * d.phase.setWidth 64
    | 4 => c.2.2.1 == j.jjcb
    | _ => false))

/-- A post of a launch as a whole. -/
def launchPost (l : Launch) (j : JobDesc) (jcb : Word) (cause : Nat) (ent : Nat) : Post :=
  { part := l.part, job := j, jd := l.jd, jcb := jcb, lvl := 1, status := .poisoned, cause := cause, ent := BitVec.ofNat 32 ent,
    weight := 0, launch := l.id, whole := true, raiseOnly := false }

/-- Sets up the launch JCB at first read (R348). -/
def State.openJcb (s : State) (j : JobDesc) (pa : Nat) (un : Bool) (d : LaunchDesc) : State :=
  let w0 := s.memWord pa &&& 0x70 ||| (if d.cmpw then 0x80 else 0)
  s.putJcb j pa un [w0, BitVec.ofNat 64 (d.nx * d.ny), 0, 0, BitVec.ofNat 64 d.nx, s.memWord (pa + 40),
    if d.cmpw then BitVec.ofNat 64 (d.nx * d.ny * 2 ^ 31) else 0, s.memWord (pa + 56)]

/-- A launch that fails rows 1 to 5 retires with its one post (R353). -/
def State.failLaunch (s : State) (l : Launch) (j : JobDesc) (d : Option LaunchDesc) (cause ent : Nat) : State :=
  let s1 := s.modLaunch l.id (fun x => { x with job := some j, desc := d, nx := 0, failed := true })
  match d with
  | some d => { s1.dropKept j d.ljcb with posts := s1.posts ++ [launchPost l j d.ljcb cause ent] }
  | none =>
    { (s1.modLaunch l.id (fun x => { x with done := true })) with
      posts := s1.posts ++ [{ launchPost l j j.jjcb cause 0xFFFFFFFF with lvl := 4, whole := false }] }

/-- The job descriptor at an address, read in ASID 0 (R326, R362). -/
def State.jobWords (s : State) (jd : Word) : Except Cause (List Word) × State :=
  if jd.toNat % 64 = 0 then s.wordsAt 0 s.sysRootOf jd 8 .read 0 else (.error .misalign, s)

/-- The JCB a cancel names is marked CXL, in the class of its job; a JCB that is DONE, or cannot be written, is left
alone. -/
def State.markCxl (s : State) (j : JobDesc) (va : Word) : State :=
  match s.translate j.asid j.root va .write with
  | (.fault _, _) => s
  | (.ok pa tl, s1) =>
    let w := s1.memWord pa
    if w.getLsbD 2 || (s.keptAt j.asid va).isSome then s else s1.feltWrite pa (natBytes 8 (w ||| 8).toNat) j.ten (tl.kind == kindUN)
/-- A cancel of the launch itself has been recorded. -/
def State.cancelOf (s : State) (jd ljcb : Word) : Bool := s.cancels.any (fun c => c.1 == 1 && c.2.1 == jd && c.2.2.1 == ljcb)
/-- Cancels of graphs or phases of the job are recorded, and the tables in its JCB are not to be had just now. -/
def State.tablesAway (s : State) (j : JobDesc) (jd : Word) : Bool :=
  s.cancels.any (fun c => c.2.1 == jd && (c.1 == 2 || c.1 == 3)) && s.jcbAway j j.jjcb
/-- Where such cancels are recorded, the tables are read. -/
def State.pollTables (s : State) (j : JobDesc) (jd : Word) : State :=
  if s.cancels.any (fun c => c.2.1 == jd && (c.1 == 2 || c.1 == 3)) then s.pollJcb j j.jjcb else s

/-- The first read of a launch that passes: its JCB is set up, and what is recorded against it is applied (R348, R354,
R356). -/
def State.openLaunch (s : State) (l : Launch) (j : JobDesc) (d : LaunchDesc) (pa : Nat) (un : Bool) : State :=
  let s1 := (s.dropKept j d.ljcb).openJcb j pa un d
  let s2 := if s1.cancelOf l.jd d.ljcb then s1.markCxl j d.ljcb else s1
  let l1 : Launch := { l with nx := d.nx }
  s2.modLaunch l.id (fun x => { x with job := some j, desc := some d, nx := d.nx
                                       next := if d.sten then d.nx * d.ny else 0
                                       again := if d.sten then (List.range (d.nx * d.ny)).filter (l1.released d) else []
                                       cancelled := s1.cancelledBy j l.jd d })

/-- LAUNCH_CHECK: the first read of a launch. One whose JCB cannot be written fails as one whose descriptor cannot be
read (R353). DEDUCED, log entry 56. -/
def State.checkLaunch (s : State) (id : Nat) : State :=
  match s.launchBy id with
  | none => s
  | some l =>
    -- a launch of another partition is read by that partition's dispatcher (log entry 81)
    if l.job.isSome ∨ l.done ∨ l.part ≠ s.part then s
    else
      match s.jobWords l.jd with
      | (.error _, s1) =>
        let s2 := s1.noJcb l.part l.jd
        { s2 with launches := s2.launches.filter (fun x => x.id != id) }
      | (.ok jw, s1) =>
        let j := jobOf jw
        match s1.wordsAt j.asid j.root l.ld 32 .read j.ten with
        | (.error _, s2) => s2.failLaunch l j none 1 0
        | (.ok lw, s2) =>
          let (table, s3) := s2.wsWords j (wd lw 8) (if wd lw 8 = 0 then 0 else ufield (wd lw 9) 0 5)
          let d := launchOf lw ((table.getD []).map wsOf)
          match s3.launchFault l.part jw j l.ld lw table with
          | (some (c, e), s4) => s4.failLaunch l j (some d) c e
          | (none, s4) =>
            if s4.tablesAway j l.jd then s.park .post j.jjcb .pgAbsent j
            else match (s4.pollTables j l.jd).translate j.asid j.root d.ljcb .write with
            | (.fault c, s5) =>
              if c.kind = .served then s.park .post d.ljcb .pgAbsent j
              else (if c = Cause.pteBad then s5.report c d.ljcb else s5).failLaunch l j (some d) 1 0
            | (.ok pa tl, s5) =>
              if s5.layerOff pa then (s5.dropAccess pa).failLaunch l j (some d) 1 0
              else s5.openLaunch l j d pa (tl.kind == kindUN)
def execLaunchCheck (l : Nat) (s : State) : Out := .next (s.checkLaunch l).pruneCancels.noteEligible

/-! ### Readiness (R335, R352, R354) -/

/-- EP (R336), with w = 0 for a launch that is not eligible. The model keeps no time: the counter of fresh numbers, which
what happens on the machine moves on, stands for microseconds (DESIGN CHOICE, log entry 69). -/
def State.epOf (s : State) (l : Launch) : Nat := match l.job, l.desc with
  | some j, some d =>
    Nat.min 15 (Nat.min d.prio j.jpri + (s.fresh - l.eligAt.getD s.fresh) / (s.barAt l.part.toNat 0x10408).toNat)
  | _, _ => 0
/-- Puts a launch behind those that have been eligible as long as it. -/
def insertLaunch (l : Launch) : List Launch → List Launch
  | [] => [l]
  | x :: r => if decide (l.eligAt.getD 0 < x.eligAt.getD 0) then l :: x :: r else x :: insertLaunch l r
/-- The launches in the order in which they are served (R336). -/
def State.byPriority (s : State) : List Launch :=
  ((List.range 16).map (fun p =>
    let mine := s.launches.filter (fun l => !l.done && l.desc.isSome && s.epOf l == 15 - p)
    (mine.filter s.eligible).foldl (fun acc l => insertLaunch l acc) [] ++ mine.filter (fun l => !s.eligible l))).flatten

/-- The lowest number of a list. -/
def least : List Nat → Option Nat
  | [] => none
  | n :: r => some (r.foldl Nat.min n)
/-- The next index that is ready (R335). -/
def Launch.ready (l : Launch) : Option Nat :=
  match least l.again with
  | some n => some n
  | none => if l.next < l.count then some l.next else none
/-- Takes an index that was ready. -/
def Launch.take (l : Launch) (n : Nat) : Launch :=
  if l.again.contains n then { l with again := l.again.filter (· != n) } else { l with next := l.next + 1 }

/-- A cancel that names one task of a launch. -/
def State.taskCancelled (s : State) (l : Launch) (x y : Nat) : Bool :=
  s.cancels.any (fun c => c.1 == 0 && c.2.1 == l.jd && l.desc.any (fun d => d.ljcb == c.2.2.1) && c.2.2.2 == x + 65536 * y)

/-- A task of a launch that ends (R349, R356, R357, R360, R404): held to the comparator's keys, counted as triggered, retired,
its stencil dependants released, and posted. -/
def State.retireIndex (s : State) (l : Launch) (n : Nat) (st : Status) (cause : Nat) (ent : Lane) (trig : Bool) (weight : Nat) : State :=
  let j := l.job.getD Task.zeroJob
  let jcb := (l.desc.map (·.ljcb)).getD 0
  let cmpw := (l.desc.map (·.cmpw)).getD false
  let p : Post := { part := l.part, job := j, jd := l.jd, jcb := jcb, lvl := 1, status := st, cause := cause, ent := ent,
                    weight := if cmpw then weight else 0, launch := l.id, whole := false, raiseOnly := false }
  let trg : List Post := if trig then [] else [{ p with lvl := 5, status := .ok, cause := 0, ent := 0, weight := 0 }]
  let upd (x : Launch) : Launch :=
    let x1 : Launch := { x with retired := x.retired ++ [n]
                                trigd := if trig then x.trigd else x.trigd ++ [n]
                                trigSt := if trig then x.trigSt else x.trigSt.max st }
    match x.desc with
    | some d =>
      if d.sten then
        let fresh := d.stmsk.filterMap (fun q =>
          let a : Int := (n % x.nx : Nat) - q.1
          let b : Int := (n / x.nx : Nat) - q.2
          if 0 ≤ a ∧ a < x.nx ∧ 0 ≤ b ∧ b < d.ny then some (b.toNat * x.nx + a.toNat) else none)
        { x1 with again := x1.again ++ firstOfEach (fresh.filter (fun m => x1.released d m && !x.released d m)) }
      else x1
    | none => x1
  let s1 := (s.compareRetire l.part jcb (l.xy n).1 (l.xy n).2).modLaunch l.id upd
  { s1 with posts := s1.posts ++ trg ++ [p] }

/-- Why a ready task never runs: its status, cause and detail. -/
def State.unrun (s : State) (l : Launch) (d : LaunchDesc) (n : Nat) : Option (Status × Nat × Lane) :=
  let (x, y) := l.xy n
  let j := l.job.getD Task.zeroJob
  if l.failed then some (.poisoned, 6, 0)
  else if s.taskCancelled l x y then some (.cancelled, 7, BitVec.ofNat 32 (x + 65536 * y))
  else if l.cancelled || l.shut then some (.cancelled, 7, 0)
  else if d.skp && s.eligible l && s.inputStatus j d == .poisoned then some (.poisoned, 9, 0)
  else none

/-! ### Fitting a task on this core (R337) -/

/-- Contexts that hold a task, with it. -/
def State.held (s : State) : List (BitVec 2 × Task × Ctx) :=
  (([0, 1, 2, 3] : List (BitVec 2)).filterMap (fun i => match (s.ctxAt i).task with
    | some t => if (s.ctxAt i).phase = .free then none else some (i, t, s.ctxAt i)
    | none => none))
/-- Whether [a, a + n) meets [b, b + m). -/
def meets (a n b m : Nat) : Bool := decide (a < b + m ∧ b < a + n)

/-- The lowest run of `n` units in `size`, at multiples of `step`, that meets none of the runs in use. -/
def freeSlot (size step n : Nat) (used : List (Nat × Nat)) : Option Nat :=
  ((List.range (size / step)).map (· * step)).find? (fun a => decide (a + n ≤ size) && !used.any (fun u => meets a n u.1 u.2))

/-- Runs of vector registers, latches and dictionary entries in use. -/
def State.usedV (s : State) : List (Nat × Nat) := s.held.map (fun h => (h.2.2.vbase, h.2.2.vcnt))
def State.usedM (s : State) : List (Nat × Nat) := s.held.map (fun h => (h.2.2.mbase, h.2.2.mcnt))
def State.usedD (s : State) : List (Nat × Nat) := s.held.map (fun h => (h.2.2.dbase, h.2.2.dlim))

/-- Where a launch's dictionary is loaded, or a run it may be loaded into; and whether it must be loaded. An image that no
task uses stays as long as there are other entries (R343). -/
def State.dictSlot (s : State) (d : LaunchDesc) : Option (Nat × Bool) :=
  match s.dictRuns.find? (fun r => r.2.2.1 == d.dict && r.2.2.2 == d.did && decide (d.dcnt ≤ r.2.1)) with
  | some r => some (r.1, false)
  | none => (match freeSlot 1024 1 d.dcnt (s.usedD ++ s.dictRuns.map (fun (r : Nat × Nat × Word × BitVec 16) => (r.1, r.2.1))) with
    | some b => some b
    | none => freeSlot 1024 1 d.dcnt s.usedD).map (fun b => (b, true))

/-- Push-out runs for the SEG entries, one after another (R150). -/
def State.spoffs (s : State) : List Nat → Option (List Nat)
  | [] => some []
  | n :: r => match s.freeRun n with
    | none => none
    | some a =>
      let mark : SegEntry := SegEntry.fresh 0 0 0 .f32 n a 0 true
      (State.spoffs { s with segs := s.segs ++ [mark] } r).map (a :: ·)

/-- The online groups that a launch may use. -/
def State.onlineGroups (s : State) (l : Launch) (d : LaunchDesc) : List Nat :=
  (s.launchGroups l.part d.gmask).filter (fun g => (groupCores g).any s.coreOnline)
/-- The group that PLC = 0b01 gives task `n`. -/
def State.groupOfTask (s : State) (l : Launch) (d : LaunchDesc) (n : Nat) : Nat :=
  let gs := s.onlineGroups l d
  gs.getD (n / 8 % gs.length) 64
/-- Under PLC = 0b01 this core is the task's member. -/
def State.mine (s : State) (l : Launch) (d : LaunchDesc) (n : Nat) : Bool :=
  d.plc != 1 || (n % 8 == memberOf s.core.toNat && s.groupOfTask l d n == groupOf s.core.toNat)
/-- Placement: this core is in an allowed group, and is the task's member (R337). -/
def State.placed (s : State) (l : Launch) (d : LaunchDesc) (n : Nat) : Bool :=
  s.online && (s.onlineGroups l d).contains (groupOf s.core.toNat) && s.mine l d n

/-- The windows a task would get: context, vector base, latch base, dictionary base and load. -/
structure Windows where
  ctx : BitVec 2
  vbase : Nat
  mbase : Nat
  dbase : Nat
  load : Bool
  spoff : List Nat
  deriving DecidableEq, Repr

/-- Barriers of BARM in this core's group that another launch holds. -/
def State.barrierTaken (s : State) (l : Launch) (d : LaunchDesc) : Bool :=
  s.barHeld.any (fun b => b.1 == groupOf s.core.toNat && d.barm.getLsbD b.2.1 && b.2.2 != l.id)

/-- Every row of R337. -/
def State.fits (s : State) (l : Launch) (d : LaunchDesc) (n : Nat) : Option Windows :=
  let admitted := s.held.countP (fun h => h.2.2.phase == .admitted)
  let free := ([0, 1, 2, 3] : List (BitVec 2)).find? (fun i => (s.ctxAt i).phase == .free)
  let names := d.segs.map (·.1.name)
  let jd := l.jd
  let deckle := decide (d.swlo ≤ s.sw ∧ s.sw ≤ d.swhi) && s.held.all (fun h => decide (h.2.1.swlo ≤ s.sw ∧ s.sw ≤ h.2.1.swhi))
  if !s.placed l d n || decide ((s.bar 0x10400).toNat ≤ admitted) ||
    decide (512 * s.sw < s.floors + d.floor) || !deckle || decide (256 < s.segs.length + d.segs.length) ||
    s.segs.any (fun e => e.anc && e.job == jd && names.contains e.name) || s.barrierTaken l d ||
    (s.reserved.isSome && s.reserved != some l.id) then none
  else match free, freeSlot 640 32 d.vcnt s.usedV, freeSlot 8 1 d.mcnt s.usedM, s.dictSlot d, s.spoffs (d.segs.map (·.1.size)) with
    | some c, some v, some m, some (b, load), some sp => some ⟨c, v, if d.mcnt = 0 then 0 else m, b, load, sp⟩
    | _, _, _, _, _ => none

/-- A core that holds nothing would take the task (R336). -/
def State.emptyCore (s : State) : State :=
  { s with ctx := Ctx.zero, others := [0, 1, 2, 3].filterMap (fun i => if i = s.cur.toNat then none else some (i, Ctx.zero)), segs := [],
           dictRuns := [], reserved := none, barHeld := [] }

/-! ### The dictionary (R51, R53) -/

/-- Entry `i` of an image: 96 bytes, which may lie on two pages. -/
def State.dictEntry (s : State) (j : JobDesc) (d : LaunchDesc) (i : Nat) : Except Cause Bundle768 × State :=
  match s.wordsAt j.asid j.root (d.dict + BitVec.ofNat 64 (96 * i)) 12 .read j.ten with
  | (.ok l, s1) => (.ok (BitVec.ofNat 768 (l.foldr (fun w n => w.toNat + 2 ^ 64 * n) 0)), s1)
  | (.error c, s1) => (.error c, s1)

/-- A bundle that is not malformed (R50). -/
def bundleOk (w : Bundle768) : Bool :=
  match decodeBundle w with
  | .ok b => b.wf
  | .error _ => false

/-- What loading a dictionary finds. -/
inductive DictRead where
  /-- A page is absent: the load waits. -/
  | away
  /-- The entry that is malformed, or that cannot be read though its page is there (DESIGN CHOICE, log entry 32). -/
  | bad (entry : Nat)
  | entries (l : List Bundle768)
  deriving DecidableEq, Repr

/-- Loads `n` entries from number `i` on, after those of `got`. -/
def State.readDictFrom (s : State) (j : JobDesc) (d : LaunchDesc) (got : List Bundle768) (i : Nat) : Nat → DictRead × State
  | 0 => (.entries got, s)
  | n + 1 => match s.dictEntry j d i with
    | (.error c, s1) => if c.kind = .served then (.away, s) else (.bad i, s1)
    | (.ok b, s1) => if bundleOk b then s1.readDictFrom j d (got ++ [b]) (i + 1) n else (.bad i, s1)
def State.readDict (s : State) (j : JobDesc) (d : LaunchDesc) : DictRead × State := s.readDictFrom j d [] 0 d.dcnt

/-- Places an image at a base, over images that no task uses. -/
def State.loadDict (s : State) (d : LaunchDesc) (base : Nat) (ws : List Bundle768) : State :=
  { s with
    dict := s.dict.setRun 0 base ws
    dictRuns := s.dictRuns.filter (fun r => !meets base d.dcnt r.1 r.2.1) ++ [(base, d.dcnt, d.dict, d.did)] }

/-! ### Admission (R338, R339) -/

/-- The segment of a SEG entry, anchored and resident (R330, R340). -/
def segOf (e : WsEntry) (i : Nat) (ctx : BitVec 2) (jd : Word) (spoff : Nat) (touched : Nat) (place : List Nat) : SegEntry :=
  { SegEntry.fresh e.name ctx jd e.fmt e.size spoff touched (e.init == 0) with
    anc := true, st := .resident, place := place, wsEntry := some i, zimg := false }

/-- Creates the segments of a task, making room in its floor. -/
def State.makeSegs (s : State) (ctx : BitVec 2) (jd : Word) : List ((WsEntry × Nat) × Nat) → State
  | [] => s
  | ((e, i), sp) :: r =>
    let s1 := s.makeRoom none (fun s => decide (s.usedLines.length + e.size ≤ 512 * s.sw)) s.segs.length
    let s2 : State := { s1.bump with segs := s1.segs ++ [segOf e i ctx jd sp s1.fresh (s1.freeLines.take e.size)] }
    s2.makeSegs ctx jd r

/-- The task of index `n`. -/
def Launch.task (l : Launch) (d : LaunchDesc) (j : JobDesc) (n adm : Nat) : Task :=
  let (x, y) := l.xy n
  { launch := l.id, x := x, y := y, part := l.part, jd := l.jd, job := j, h := d.h, rl := d.rl, anchored := d.anchored,
    swlo := d.swlo, swhi := d.swhi, did := d.did, dict := d.dict, trig := false, inp := false, dim2 := d.dim2,
    weight := l.weights.get (2 ^ 31) n, erl := (d.preds.filter (·.erl)).map (·.pjcb), ws := d.ws, refills := [], staged := [],
    ljcb := d.ljcb, cmpw := d.cmpw, st := .ok, seq := 0, adm := adm }

/-- The barriers of BARM in this core's group that a launch does not hold yet. -/
def State.newBars (s : State) (l : Launch) (d : LaunchDesc) : List (Nat × Nat × Nat) :=
  let g := groupOf s.core.toNat
  ((List.range 64).filter (fun h => d.barm.getLsbD h && !s.barHeld.contains (g, h, l.id))).map (fun h => (g, h, l.id))

/-- Reserves everything for a task, together (R337). -/
def State.admitTask (s : State) (l : Launch) (d : LaunchDesc) (j : JobDesc) (n : Nat) (w : Windows) : State :=
  let t := l.task d j n s.fresh
  let c : Ctx := { Ctx.zero with phase := .admitted, task := some t, vbase := w.vbase, vcnt := d.vcnt, mbase := w.mbase,
                                 mcnt := d.mcnt, dbase := w.dbase, dlim := d.dcnt }
  let bars := s.newBars l d
  let s1 := (s.bump.setCtxAt w.ctx c).modLaunch l.id (fun x => x.take n)
  let s2 : State := { s1 with barHeld := s1.barHeld ++ bars, reserved := if s1.reserved = some l.id then none else s1.reserved }
  s2.makeSegs w.ctx l.jd (d.segs.zip w.spoff)

/-- What admission answers: the state with the task admitted, where every anchored segment has found all its lines; else
the task waits (R161). -/
def State.seated (s t : State) (c : BitVec 2) : State :=
  if t.segs.all (fun e => e.ctx != c || !e.anc || e.place.length == e.size) then t else s

/-- A task fits nowhere: at EP 15 its launch reserves the core where it would fit if that were empty (R336). -/
def State.fitsNowhere (s : State) (l : Launch) (d : LaunchDesc) (n : Nat) : State :=
  if s.epOf l = 15 ∧ s.reserved = none ∧ (s.emptyCore.fits l d n).isSome then { s with reserved := some l.id } else s

/-- A launch has a task that has not been dispatched. -/
def State.undispatched (s : State) (l : Launch) : Bool :=
  (List.range l.count).any (fun n => !l.retired.contains n && !l.away.contains n &&
    !s.tasksHeld.any (fun t => t.launch == l.id && t.x + l.nx * t.y == n))
/-- A PLC = 0b01 launch fails OFFLINE: its tasks that have not been dispatched are cancelled (R14, R345). -/
def State.shutLaunch (s : State) (l : Launch) (j : JobDesc) (d : LaunchDesc) : State :=
  let p : Post := { launchPost l j d.ljcb 5 0 with whole := false, raiseOnly := true }
  let s1 := s.modLaunch l.id (fun x => { x with shut := true })
  { s1 with posts := s1.posts ++ [p] }

/-- A segment that a task of a group peer holds, as this core's peer resolution finds it. -/
def peerSegOf (e : WsEntry) (i : Nat) (jd : Word) : SegEntry := segOf e i 0 jd 0 0 []
/-- Adds anchored segments to the table of a group peer. -/
def State.addPeerSegs (s : State) (core : Nat) (l : List SegEntry) : State :=
  if s.peers.any (fun p => p.core == core) then
    { s with peers := s.peers.map (fun p => if p.core = core then { p with segs := p.segs ++ l } else p) }
  else { s with peers := s.peers ++ [⟨core, l, false⟩] }
/-- Names of its SEG entries are held on a group peer (R337). -/
def State.namesOn (s : State) (core : Nat) (jd : Word) (d : LaunchDesc) : Bool :=
  s.peers.any (fun p => p.core == core && p.segs.any (fun e => e.anc && e.job == jd && (d.segs.map (·.1.name)).contains e.name))
/-- Barriers that a launch holds for the first time in this group start at zero (R342). -/
def State.openBarriers (s : State) (l : Launch) (d : LaunchDesc) : State :=
  let g := groupOf s.core.toNat
  if l.barGroups.contains g then s
  else
    let s1 := s.modLaunch l.id (fun x => { x with barGroups := x.barGroups ++ [g] })
    { s1 with bars := (List.range 64).foldl (fun m h => if d.barm.getLsbD h then m.set 0 (64 * g + h) 0 else m) s1.bars }
/-- The member of another core takes task `n` of a PLC = 0b01 launch. In this core's group its names and the barriers
are tested as R337 says, its segments are there for this core's copies, and its barriers are held; of that core's other
resources the model knows nothing (log entry 70). The launch's first dispatch invalidates the L1 of this core too (R342). -/
def State.takeAway (s : State) (l : Launch) (d : LaunchDesc) (n : Nat) : State :=
  let away (s : State) : State :=
    let t := s.modLaunch l.id (fun x => { x.take n with away := x.away ++ [n] })
    if s.eligible l then t.firstTask l d else t
  let core := coreAt (groupOf s.core.toNat) (n % 8)
  if s.groupOfTask l d n ≠ groupOf s.core.toNat then away s
  else if s.namesOn core l.jd d || s.barrierTaken l d then s
  else
    let s1 := s.openBarriers l d
    let s2 : State := { s1 with barHeld := s1.barHeld ++ s1.newBars l d }
    away (s2.addPeerSegs core (d.segs.map (fun p => peerSegOf p.1 p.2 l.jd)))

/-- A launch that fails row 6 of R328: its JCB's status is raised, and its tasks that have not been dispatched do not run
(R353). -/
def State.badDict (s : State) (l : Launch) (j : JobDesc) (d : LaunchDesc) (e : Nat) : State :=
  let p : Post := { launchPost l j d.ljcb 6 e with whole := false, raiseOnly := true }
  let s1 := s.modLaunch l.id (fun x => { x with failed := true })
  { s1 with posts := s1.posts ++ [p] }

/-- ADMISSION of launch `id`: its next ready task is retired unrun, taken by the member of another core, admitted, or fits
nowhere; a launch that needs a core that is offline fails. -/
def State.admission (s : State) (id : Nat) : State :=
  match s.launchBy id with
  | none => s
  | some l => match l.job, l.desc, l.ready with
    | some j, some d, some n =>
      match s.unrun l d n with
      | some (st, cause, ent) =>
        (s.modLaunch id (fun x => x.take n)).retireIndex l n st cause ent false (l.weights.get (2 ^ 31) n)
      | none =>
        if s.preempted.contains l.jd then s
        else if d.plc = 1 ∧ s.offline l.part d then s.shutLaunch l j d
        else if !s.mine l d n then s.takeAway l d n
        else match s.fits l d n with
          | none => s.fitsNowhere l d n
          | some w =>
            if w.load then match s.readDict j d with
              | (.away, _) => s
              | (.bad e, s1) => s1.badDict l j d e
              | (.entries ws, s1) => s.seated ((s1.loadDict d w.dbase ws).admitTask l d j n w) w.ctx
            else s.seated (s.admitTask l d j n w) w.ctx
    | _, _, _ => s
def execAdmission (l : Nat) (s : State) : Out := .next (s.admission l)

/-! ### Returning an admitted task (R344) -/

/-- A barrier of this core's group that a launch holds though it has dispatched no task there and has none admitted: only
a task that is gone held it. -/
def State.heldFor (s : State) (id : Nat) (b : Nat × Nat × Nat) : Bool :=
  b.1 == groupOf s.core.toNat && b.2.2 == id && !s.held.any (fun h => h.2.1.launch == id) &&
  !(s.launchBy id).any (fun l => l.barGroups.contains b.1)

/-- The sequence of R344 for the admitted task of a context; it becomes ready again where `back` holds. -/
def State.unadmit (s : State) (i : BitVec 2) (back : Bool) : State :=
  match (s.ctxAt i).task with
  | none => s
  | some t =>
    if (s.ctxAt i).phase ≠ .admitted then s
    else
      let s1 := s.setCtxAt i Ctx.zero
      let s2 : State := { s1 with staging := s1.staging.filter (fun c => !(c.ctx == i && c.task.any (·.adm == t.adm)))
                                  segs := s1.segs.filter (fun e => e.ctx != i)
                                  barHeld := s1.barHeld.filter (fun b => !s1.heldFor t.launch b) }
      if back then s2.modLaunch t.launch (fun l => { l with again := l.again ++ [t.x + l.nx * t.y] }) else s2

/-- The youngest admitted task among some. -/
def youngest (l : List (BitVec 2 × Task × Ctx)) : Option (BitVec 2 × Task × Ctx) :=
  l.foldl (fun b h => match b with
    | none => some h
    | some o => if o.2.1.adm < h.2.1.adm then some h else some o) none
/-- Look-ahead tasks: admitted tasks of launches that are not eligible. -/
def State.lookaheads (s : State) : List (BitVec 2 × Task × Ctx) :=
  s.held.filter (fun h => h.2.2.phase == .admitted && (match s.launchBy h.2.1.launch with
    | some l => !s.eligible l
    | none => false))
/-- Without its look-ahead tasks. -/
def State.revokeAll (s : State) : List (BitVec 2 × Task × Ctx) → State
  | [] => s
  | h :: r => (s.unadmit h.1 true).revokeAll r

/-- Look-ahead tasks go, youngest first, until a task fits. -/
def State.revokeFor (s : State) (l : Launch) (d : LaunchDesc) (n : Nat) : Nat → State
  | 0 => s
  | k + 1 => if (s.fits l d n).isSome then s else match youngest s.lookaheads with
    | some h => (s.unadmit h.1 true).revokeFor l d n k
    | none => s
/-- The next task of an eligible launch that does not fit, and would fit without the look-ahead tasks. -/
def State.wantsRoom (s : State) (l : Launch) (d : LaunchDesc) (n : Nat) : Bool :=
  s.eligible l && !s.preempted.contains l.jd && (s.unrun l d n).isNone && (s.fits l d n).isNone &&
  ((s.revokeAll s.lookaheads).fits l d n).isSome
/-- Look-ahead tasks give way to the next task of a launch, and it is admitted in their place; nothing where it cannot be. -/
def State.revokeOne (s : State) (l : Launch) : Option State :=
  match l.desc, l.ready with
  | some d, some n =>
    let t := s.revokeFor l d n 4
    let u := t.admission l.id
    if s.wantsRoom l d n ∧ u ≠ t then some u else none
  | _, _ => none
/-- LOOKAHEAD_REVOKE (R339), for the first launch in the order of R336 that gains by it. -/
def State.revoke (s : State) : State := (s.byPriority.findSome? s.revokeOne).getD s
def execLookaheadRevoke (s : State) : Out := .next s.revoke

/-! ### Staging (R329 to R331, R340, R341) -/

/-- The source of an entry is ready. -/
def State.sourceReady (s : State) (t : Task) (e : WsEntry) : Bool :=
  !e.dep || (match (s.launchBy t.launch).bind (·.desc) with
    | some d => d.preds.all (s.linkMet t.part t.job)
    | none => false)

/-- The global source of an entry for a task. -/
def WsEntry.globalSrc (e : WsEntry) (x y : Nat) : Word := e.src + BitVec.ofNat 64 x * e.sx + BitVec.ofNat 64 y * e.sy
/-- The packed coordinates of its tile source: a coordinate beyond its field is beyond every tensor. -/
def WsEntry.tileSrc (e : WsEntry) (x y : Nat) : Word :=
  let tx := ufield e.sx 0 20 + x * ufield e.sy 0 16
  let ty := ufield e.sx 20 20 + y * ufield e.sy 16 16
  let beyond := decide (2 ^ 20 ≤ tx ∨ 2 ^ 20 ≤ ty) || ufield e.sx 60 4 != 0
  BitVec.ofNat 64 (tx % 2 ^ 20 + ty % 2 ^ 20 * 2 ^ 20 + ufield e.sx 40 20 * 2 ^ 40 + (if beyond then 2 ^ 60 else 0))

/-- A copy that the dispatcher makes for entry `n` of a task: formats convert under the fixed defaults (R330). -/
def stageCopy (id : Nat) (ctx : BitVec 2) (t : Task) (e : WsEntry) (n : Nat) : Copy :=
  let dst : CopyEnd := if e.kind = 1 then .own ctx e.name 0 else .none
  let len := 128 * e.size
  let tile := e.kind = 1 ∧ e.init = 3
  { id := id, ctx := ctx, cid := none, kind := (if tile then .tileIn else if e.kind = 1 then .load else .warm),
    src := (if tile then .tile e.src (e.tileSrc t.x t.y) else .glob (e.globalSrc t.x t.y)), dst := dst, nrow := 1,
    len := if tile then 0 else len, sstr := 0, dstr := 0, be := false, bar := 0, pfx := Prefix.default, psel := 0, rseed := 0,
    hint := e.hint, task := some t, done := 0, parked := [], fault := none, peerPin := false, after := 0, gid := 0, op := .fadd, ord := 0, word := 0,
    entry := some n, seqNo := 0, conv := none, drow := len, known := !tile, result := none, rpoison := [], got := [] }

/-- A task notes an entry. -/
def State.noteEntry (s : State) (i : BitVec 2) (f : Task → Task) : State :=
  s.modAt i (fun c => { c with task := c.task.map f })

/-- An entry is abandoned (R341): a refill record is kept until the task retires. -/
def State.abandonEntry (s : State) (i : BitVec 2) (n : Nat) : State :=
  (s.noteEntry i (fun t => { t with refills := t.refills ++ [n] })).traceOf i 6 (s.ctxAt i).pc (BitVec.ofNat 64 n)

/-- The tile `k` after one in linear order, from packed coordinates; coordinates outside the tensor stay outside (R329). -/
def tileStep (nx ny : Nat) (c : Word) (k : Nat) : Word :=
  if nx ≤ ufield c 0 20 ∨ ny ≤ ufield c 20 20 ∨ ufield c 60 4 ≠ 0 then c
  else
  let n := (ufield c 40 20 * ny + ufield c 20 20) * nx + ufield c 0 20 + k
  BitVec.ofNat 64 (n % nx + n / nx % ny * 2 ^ 20 + n / nx / ny * 2 ^ 40)

/-- A tile that may be promoted, with the state after the lookup of its pages: each translates, is served, and does not bear
the hint never near; a host or peer tile has no page, and is to be served too (R83, R94, R341). -/
def State.promotable (s : State) (h : Word) (t : Tile) : Option State :=
  let ends := [t.at_, t.at_ + t.tb - 1]
  if t.far then (if ends.any s.layerGone then none else some s)
  else ends.foldl (fun (acc : Option State) a => acc.bind (fun s =>
    match s.translate 0 s.sysRootOf (BitVec.ofNat 64 a) .tensorRead with
    | (.ok pa tl, s1) =>
      if !s1.layerGone pa && tl.nsh != 2 && (!tl.sl || s1.sealedFor h (BitVec.ofNat 64 a)) then some s1 else none
    | (.fault _, _) => none)) (some s)
/-- TT: promotes consecutive tiles of a tensor into the near store of the die; a tile that meets a fault is skipped (R331,
R341). -/
def State.promoteTiles (s : State) (h c : Word) (n : Nat) : State :=
  match s.descriptor (ufield h 0 12) with
  | .waits _ | .fault _ _ _ => s
  | .ok (d, _) _ =>
    let die : BitVec 2 := BitVec.ofNat 2 (dieOf s.core.toNat)
    (List.range n).foldl (fun (s : State) k =>
      let at_ := tileStep (ufield (wd d 2) 0 20) (ufield (wd d 2) 20 20) c k
      match s.tileOf h at_ true with
      | .waits _ | .fault _ _ _ => s
      | .ok t s1 => match s1.promotable h t with
        | some s2 => s2.enterNear die (tileBlock s2.part h at_)
        | none => s1) s

/-- A staging copy takes its place: the task admitted first is served first, and within a task the lower entry (R340). -/
def stageIn (c : Copy) : List Copy → List Copy
  | [] => [c]
  | x :: r =>
    let key (d : Copy) : Nat × Nat := ((d.task.map (·.adm)).getD 0, d.entry.getD 0)
    if decide ((key c).1 < (key x).1 ∨ ((key c).1 = (key x).1 ∧ (key c).2 < (key x).2)) then c :: x :: r else x :: stageIn c r
/-- Every earlier entry whose source is ready has been started (R338). -/
def State.inTurn (s : State) (t : Task) (n : Nat) : Bool :=
  (t.ws.take n).zipIdx.all (fun p => t.staged.contains p.2 || !s.sourceReady t p.1)

/-- STAGING_START of entry `n` of the admitted task of a context, in its place in entry order. -/
def State.startStaging (s : State) (i : BitVec 2) (n : Nat) : State :=
  match (s.ctxAt i).task with
  | none => s
  | some t => match t.ws[n]? with
    | none => s
    | some e =>
      let slot := e.kind = 2 ∨ (e.kind = 1 ∧ 2 ≤ e.init)
      if t.staged.contains n ∨ (s.ctxAt i).phase = .free ∨ (s.ctxAt i).phase = .retiring ∨ !s.sourceReady t e ∨ !s.inTurn t n ∨
        (slot ∧ 16 ≤ s.staging.length) then s
      else
        let s1 := s.noteEntry i (fun t => { t with staged := t.staged ++ [n] })
        if e.kind = 1 ∧ e.init < 2 then s1
        else if e.kind = 3 then s1.promoteTiles e.src (e.tileSrc t.x t.y) e.size
        else if e.init ≠ 3 ∧ (e.globalSrc t.x t.y).toNat % 64 ≠ 0 then (if e.kind = 1 then s1.abandonEntry i n else s1)
        else
          let c := stageCopy s1.fresh i t e n
          { s1.bump.pin i c.names with staging := stageIn c s1.staging }
def execStagingStart (ctx : BitVec 2) (e : Nat) (s : State) : Out := .next (s.startStaging ctx e)

/-- STAGING_ABANDON: the staging copy numbered `i` has met a fault (R132, R341). -/
def State.abandonStaging (s : State) (i : Nat) : State :=
  match s.staging[i]? with
  | none => s
  | some c =>
    if c.fault.isNone then s
    else
      let s1 : State := (if c.fault = some .pteBad then s.report .pteBad 0 else s).unpinCopy c
      let s2 : State := { s1 with staging := s1.staging.eraseIdx i, parked := s1.parked.filter (fun p => p.by_ != .copy c.id) }
      if c.kind = .warm then s2 else s2.abandonEntry c.ctx (c.entry.getD 0)
def execStagingAbandon (i : Nat) (s : State) : Out := .next (s.abandonStaging i)

/-- REFILL of entry `n`: the first touch of an empty line of an abandoned range starts a demand copy of the
unwritten lines. One whose source is misaligned has met its fault already. -/
def State.refill (s : State) (i : BitVec 2) (n : Nat) : State :=
  match (s.ctxAt i).task with
  | none => s
  | some t => match t.ws[n]? with
    | none => s
    | some e =>
      if !t.refills.contains n ∨ (s.ctxAt i).phase ≠ .running ∨ !(s.seg i e.name).any (fun x => x.wanted && x.empty.any (·.2)) then s
      else
        let s1 := s.noteEntry i (fun t => { t with refills := t.refills.filter (· != n) })
        let c0 := stageCopy s1.fresh i t e n
        let c : Copy := if e.init = 2 ∧ (e.globalSrc t.x t.y).toNat % 64 ≠ 0 then { c0 with fault := some .misalign } else c0
        { s1.bump.pin i c.names with copies := s1.copies ++ [c] }
def execRefill (ctx : BitVec 2) (e : Nat) (s : State) : Out := .next (s.refill ctx e)

/-! ### Dispatch (R332, R342) -/

/-- Every SEG fill of an admitted task has completed or been abandoned. -/
def State.fillsDone (s : State) (i : BitVec 2) (t : Task) : Bool :=
  (t.ws.zipIdx).all (fun p => p.1.kind != 1 || t.staged.contains p.2) &&
  !s.staging.any (fun c => c.ctx == i && c.kind != .warm)

/-- The A-side registers of a new task (R200, R332). -/
def LaunchDesc.regs (d : LaunchDesc) : ARegs :=
  { ARegs.zero with
    a := ((d.args.take 8).zipIdx).foldl (fun m p => m.set 0 (p.2 + 1) p.1) []
    g := d.segs.foldl (fun m p => m.set 0 p.1.greg.toNat p.1.name) []
    rseed := d.rseed }

/-- Registers of a window become zero (R200). -/
def clearV {β : Type} (l : Store β) (base n : Nat) : Store β :=
  l.filter (fun p => decide (5120 ≤ p.1 ∨ p.1 % 640 < base ∨ base + n ≤ p.1 % 640))
def clearM {β : Type} (l : Store β) (base n per : Nat) : Store β :=
  l.filter (fun p => decide (p.1 / per < base ∨ base + n ≤ p.1 / per))
def State.clearWindows (s : State) (c : Ctx) : State :=
  { s with
    v := clearV s.v c.vbase c.vcnt, vPoison := clearV s.vPoison c.vbase c.vcnt
    m := clearM s.m c.mbase c.mcnt 64, mPoison := clearM s.mPoison c.mbase c.mcnt 64
    mscale := clearM s.mscale c.mbase c.mcnt 512 }

/-- DISPATCH of the admitted task of a context; or its retirement without running. -/
def State.dispatch (s : State) (i : BitVec 2) : State :=
  let c := s.ctxAt i
  match c.task with
  | none => s
  | some t => match s.launchBy t.launch with
    | none => s
    | some l => match l.desc with
      | none => s
      | some d =>
        let n := t.x + l.nx * t.y
        if c.phase ≠ .admitted then s
        else match s.unrun l d n with
          | some (st, cause, ent) => (s.unadmit i false).retireIndex l n st cause ent false t.weight
          | none =>
            if !s.eligible l ∨ !s.fillsDone i t ∨ s.preempted.contains l.jd then s
            else
              let inp := decide (s.inputStatus t.job d ≠ .ok)
              let s2 := ((s.freshL1 l d).openBarriers l d).modLaunch l.id (fun x => { x with started := true })
              let pc := d.code + 64
              (((s2.clearWindows c).setCtxAt i { c with phase := .running, task := some { t with inp := inp }, regs := d.regs, qctl := 0
                                                        pc := pc, npc := pc }).traceOf i 1 pc 0)
def execDispatch (ctx : BitVec 2) (s : State) : Out := .next (s.dispatch ctx)

/-! ### Release (R175, R298, R319, R343, R349) -/

/-- Nothing of a retired task is outstanding: copies, ZST writes, output streams, requests, pins of a peer's copies on its
segments (R175, R298, R319). -/
def State.settled (s : State) (i : BitVec 2) : Bool :=
  s.segs.all (fun e => e.ctx != i || e.cpins == 0) && !s.copies.any (fun c => c.ctx == i) &&
  !s.zstores.any (fun z => z.ctx == i) && !s.reqs.any (fun q => q.ctx == i) &&
  (s.streams.filter (fun t => t.ctx == i)).all (fun t => t.stop.isSome || decide (t.n0 * t.n1 ≤ t.next) ||
    (((s.ctxAt i).queue (6 * t.cl.toNat + t.q)).isEmpty))

/-- The cause a retiring task posts with. -/
def retireCause (t : Task) (cancelled : Bool) : Nat × Lane :=
  let idx : Lane := BitVec.ofNat 32 (t.x + 65536 * t.y)
  match t.st with
  | .ok => (0, 0)
  | .cancelled => (7, if cancelled then idx else 0)
  | .poisoned => (8, idx)

/-- The barriers and the reservation of a launch are free once its last task in this core's group has retired (R336, R343). -/
def State.endInGroup (s : State) (id : Nat) : State :=
  match s.launchBy id with
  | none => s
  | some l =>
    let apart (d : LaunchDesc) : Nat := l.away.countP (fun n => s.groupOfTask l d n != groupOf s.core.toNat)
    if l.retired.length + (l.desc.map apart).getD 0 = l.count then
      { s with barHeld := s.barHeld.filter (fun b => b.2.2 != l.id), reserved := if s.reserved = some l.id then none else s.reserved }
    else s

/-- TASK_RELEASE. -/
def State.release (s : State) (i : BitVec 2) : State :=
  let c := s.ctxAt i
  match c.task with
  | none => s
  | some t =>
    if c.phase ≠ .retiring ∨ !s.settled i then s
    else
      let gids := (s.groups.filter (fun g => g.part == s.part && g.members.any (s.isMine i))).map (·.gid)
      let s1 := gids.foldl (fun s g => s.leaveGroup i g) s
      let s2 := (s1.streams.filter (fun u => u.ctx == i)).foldl (fun s u => s.unbind u) s1
      let s3 : State := { s2 with segs := s2.segs.filter (fun e => e.ctx != i)
                                  staging := s2.staging.filter (fun x => !(x.ctx == i && x.kind != .warm)) }
      let s4 := (s3.setCtxAt i Ctx.zero).traceOf i 2 c.pc (BitVec.ofNat 64 (statusCode t.st))
      match s4.launchBy t.launch with
      | none => s4
      | some l =>
        let n := t.x + l.nx * t.y
        let (cause, ent) := retireCause t (s4.taskCancelled l t.x t.y)
        (s4.retireIndex l n t.st cause ent (l.trigd.contains n) t.weight).endInGroup l.id

/-- A task that another core's member took retires with a status (R337, R343, R349): in this core's group its segments go,
once no copy of this core holds a pin on them. A launch of another partition is done as a whole. -/
def State.releaseAway (s : State) (id n : Nat) (status : BitVec 2) : State :=
  match s.launchBy id with
  | none => s
  | some l => match l.desc with
    | none => if l.part = s.part then s else s.modLaunch id (fun x => { x with done := true })
    | some d =>
      let core := coreAt (groupOf s.core.toNat) (n % 8)
      let mine (e : SegEntry) : Bool := e.job == l.jd && (d.segs.map (·.1.name)).contains e.name
      let here := s.groupOfTask l d n == groupOf s.core.toNat
      if !l.away.contains n || (here && s.peers.any (fun p => p.core == core && p.segs.any (fun e => mine e && e.cpins != 0))) then s
      else
        let st := codeStatus status.toNat
        let (x, y) := l.xy n
        let idx : Lane := BitVec.ofNat 32 (x + 65536 * y)
        let (cause, ent) : Nat × Lane := match st with
          | .ok => (0, 0)
          | .cancelled => (7, if s.taskCancelled l x y then idx else 0)
          | .poisoned => (8, idx)
        let s1 := s.modLaunch id (fun x => { x with away := x.away.filter (· != n) })
        let s2 : State := if here then { s1 with peers := s1.peers.map (fun p =>
          if p.core = core then { p with segs := p.segs.filter (fun e => !mine e) } else p) } else s1
        (s2.retireIndex l n st cause ent (l.trigd.contains n) (l.weights.get (2 ^ 31) n)).endInGroup id
def execTaskRelease (t : Released) (s : State) : Out :=
  .next (match t with
    | .own ctx => s.release ctx
    | .away id n st => s.releaseAway id n st)

/-! ### Cancellation (R354, R355) -/

/-- A cancel names an instance: a launch that is held, or may be, or a task of it; a graph or phase where the job has
such JCBs; or the job (R348, R354, R355). -/
def State.namesInstance (s : State) (j : JobDesc) (c : Nat × Word × Word × Nat) : Bool :=
  let w := (s.jcbWords j j.jjcb).getD []
  let inTable (base : Word) : Bool := base != 0 && (c.2.2.1 - base).toNat % 64 == 0 && decide ((c.2.2.1 - base).toNat < 64 * 65536)
  match c.1 with
  | 2 => inTable (wd w 4)
  | 3 => inTable (wd w 5)
  | 4 => c.2.2.1 == j.jjcb
  | _ => s.launches.any (fun l => l.named c)

/-- A launch that a recorded cancel names. -/
def State.cancelHits (s : State) (l : Launch) : Bool :=
  match l.job, l.desc with
  | some j, some d => s.cancelledBy j l.jd d
  | _, _ => false

/-- A running task that is cancelled (R354). -/
def State.ctxCancelled (s : State) (i : BitVec 2) : Bool :=
  match (s.ctxAt i).task with
  | none => false
  | some t => match s.launchBy t.launch with
    | none => false
    | some l => l.cancelled || s.taskCancelled l t.x t.y

/-- Admitted tasks of cancelled work retire by the sequence of R344. -/
def State.cancelAdmitted (s : State) : List (BitVec 2) → State
  | [] => s
  | i :: r =>
    let s1 := if (s.ctxAt i).phase = .admitted ∧ s.ctxCancelled i then s.dispatch i else s
    s1.cancelAdmitted r

/-- The JCB pages that a cancel needs: those of the tables that name a graph or phase, and of the JCB that takes CXL. -/
def cancelPages (j : JobDesc) (c : Nat × Word × Word × Nat) : List Word :=
  (if c.1 = 2 ∨ c.1 = 3 then [j.jjcb] else []) ++ (if c.1 = 0 then [] else [c.2.2.1])
/-- An instance whose JCB shows DONE is not cancelled (R355); a launch still held is not done, whatever an earlier one has
left in its JCB. -/
def State.overFor (s : State) (j : JobDesc) (c : Nat × Word × Word × Nat) : Bool := decide (2 ≤ c.1) && s.jcbDone j c.2.2.1

/-- CANCEL_APPLY: the oldest cancel is recorded and applied to every task its instance holds; running tasks stop at
a drain point or by a heavy save. What is DONE, or is no instance, is not cancelled. It is held while a JCB page that it
needs is absent. -/
def State.applyCancel (s : State) : State :=
  match s.cancelQ with
  | [] => s
  | c :: rest =>
    let s0 : State := { s with cancelQ := rest }
    match s0.jobWords c.2.1 with
    | (.error _, s1) => s1
    | (.ok d, s1) =>
      let j := jobOf d
      if c.2.2.1 = 0 then s1
      else match (cancelPages j c).find? (fun va => (va == j.jjcb || s1.namesInstance j c) && s1.jcbAway j va) with
      | some va => s.park .post va .pgAbsent j
      | none =>
      let s1 := s1.pollAll j (cancelPages j c)
      if s1.overFor j c ∨ !s1.namesInstance j c then s1
      else
        let s2 : State := { s1 with cancels := if s1.cancels.contains c then s1.cancels else s1.cancels ++ [c] }
        let s3 := if c.1 = 0 then s2 else s2.markCxl j c.2.2.1
        let s4 : State := { s3 with launches := s3.launches.map (fun l =>
          if !l.done ∧ s3.cancelHits l then { l with cancelled := true } else l) }
        s4.cancelAdmitted [0, 1, 2, 3]
def execCancelApply (s : State) : Out := .next s.applyCancel

end Sys2Proof.Machine
end

