-- ==== Sys2Proof/Machine/Enqueue.lean ====
section
/-! DEFINITION. Enqueue queues: ENQ, the delivery of a record, and what the dispatcher takes from a queue
(R361 to R364). -/

namespace Sys2Proof.Machine

/-! ### ENQ (R363) -/

/-- A handle whose reserved bits are zero (R361). -/
def handleOk (h : Word) : Bool := ufield h 19 5 == 0 && ufield h 32 32 == 0

/-- ENQ: checked at issue, then an engine operation under its CID. -/
def execEnq (sa da len : AReg) (cid : BitVec 4) (s : State) : Out := fin (do
  s.live 4 [sa, da, len]
  let h := s.rd.ra sa
  let rec_ := s.rd.ra da
  let done := s.rd.ra len
  s.need (handleOk h) 4 .badHandle h
  s.need (ufield rec_ 56 8 == 0) 4 .badAddr rec_
  s.need (ufield done 56 8 == 0) 4 .badAddr done
  s.need (rec_.toNat % 32 == 0) 4 .misalign rec_
  s.need (done.toNat % 8 == 0) 4 .misalign done
  s.copyAdmit [] cid
  let c := s.newCopy cid .enq (.glob rec_) (.glob done) ⟨1, 0, 0⟩ 32 false 0 0 none 0 false
  pure (s.accept { c with word := h, seqNo := 0 }))

/-! ### Delivery (R364) -/

/-- The queue of a handle. -/
def State.enqQ (s : State) (part : BitVec 3) (idx : BitVec 8) : Option EnqQ :=
  s.enqs.find? (fun q => q.part == part && q.idx == idx)
def State.modEnqQ (s : State) (part : BitVec 3) (idx : BitVec 8) (f : EnqQ → EnqQ) : State :=
  { s with enqs := s.enqs.map (fun q => if q.part = part ∧ q.idx = idx then f q else q) }

/-- Records that the resident ring holds. -/
def enqRing : Nat := 64

/-- The completion word of a delivery, and the state after it. -/
def State.deliverRec (s : State) (h : Word) (r : EnqRec) : Nat × State :=
  let idx : BitVec 8 := BitVec.ofNat 8 (ufield h 0 8)
  let gen := ufield h 8 8
  let part : BitVec 3 := BitVec.ofNat 3 (ufield h 16 3)
  let peer := ufield h 24 8
  if peer ≠ 0 then
    if !(s.barAt 0 (0x30800 + 8 * peer)).getLsbD 0 then (5, s)
    -- what the peer module answers is a free value among the statuses of R364 (log entry 4)
    else (1 + s.freeWord.toNat % 5 + 256 * (s.freeWord.toNat / 256 % 256), s.bump)
  else if !(List.range 64).any (fun g => s.partOf g == some part) then (5, s)
  else match s.enqQ part idx with
    | none => (5, s)
    | some q =>
      let g := 256 * q.gen.toNat
      if q.gen.toNat ≠ gen then (3 + g, s)
      else if !q.exists_ then (5 + g, s)
      else if q.spill.isEmpty ∧ q.ring.length < enqRing then
        (1 + g, s.modEnqQ part idx (fun q => { q with ring := q.ring ++ [r] }))
      else if q.spill.length < q.cap then (2 + g, s.modEnqQ part idx (fun q => { q with spill := q.spill ++ [r] }))
      else (4 + g, s)

/-- The word of an ENQ that has been delivered, or has met a fault, reaches memory as a release, and the ENQ completes. A
restartable fault of the completion word's page parks (R80, R363). -/
def State.finishEnq (s : State) (c : Copy) : State :=
  let done : Word := match c.dst with | .glob va => va | _ => 0
  let close (s : State) : State := match c.fault with
    | some e => ((s.recordFault c e).endCopy c 2).engineCheck c.ctx e 0
    | none => s.endCopy c 0
  match s.pageOf (.copy c.id) c.job done .write with
  | .ok (pa, t) s1 => close (s1.physWrite pa (natBytes 8 c.seqNo) false 0 c.job.ten (t.kind == 2))
  | .later s1 => s1
  | .bad e s1 =>
    if c.fault.isSome then close s1 else ((s1.recordFault c e).endCopy c 2).engineCheck c.ctx e done
/-- What an ENQ has come to: its word, and the fault of its record. -/
def State.enqMet (s : State) (c : Copy) (word : Nat) (fault : Option Cause) : State :=
  let c1 : Copy := { c with known := true, seqNo := word, fault := fault }
  (s.putCopy c1).finishEnq c1

/-- ENQ_DELIVERY of the ENQ numbered `i` among the copies: its record is read and delivered, once; then its
completion word is written. -/
def State.deliverEnq (s : State) (i : Nat) : State :=
  match s.copyNo i with
  | none => s
  | some c =>
    let before (d : Copy) : Bool := d.kind == .enq && d.ctx == c.ctx && d.word == c.word && decide (d.id < c.id) && !d.known
    if c.kind ≠ .enq || !s.mayStart c || s.copies.any before then s
    else if c.known then s.finishEnq c
    else
      let va : Word := match c.src with | .glob va => va | _ => 0
      match s.readGlobUnit (.copy c.id) c.job (va - BitVec.ofNat 64 (va.toNat % 64)) 0 with
      | .later s1 => s1
      | .bad e s1 => s1.enqMet c 6 (some e)
      | .ok (v, p) s1 =>
        if p then s1.enqMet c 6 (some .poison)
        else
          let x := v.toNat / 2 ^ (8 * (va.toNat % 64))
          let r : EnqRec := ⟨(List.range 4).map (fun k => BitVec.ofNat 64 (x / 2 ^ (64 * k)))⟩
          let (w, s2) := s1.deliverRec c.word r
          s2.enqMet c w none
def execEnqDelivery (i : Nat) (s : State) : Out := .next (s.deliverEnq i)

/-! ### The dispatcher takes a record (R325, R354, R362) -/

/-- A record with a reserved field set (R362). -/
def badEnqRec (w : List Word) : Bool :=
  let k := ufield (wd w 0) 0 4
  let lvl := ufield (wd w 0) 4 3
  let task := k == 2 && lvl == 0
  !(k == 1 || k == 2) || ufield (wd w 0) 7 57 != 0 || (k == 1 && lvl != 0) || decide (4 < lvl) ||
  ufield (wd w 3) 32 32 != 0 || (!task && ufield (wd w 3) 0 32 != 0)

/-- The post that tells of a record taken as BADDESC: to the job JCB of its JD (R362, R353). -/
def State.badRecord (s : State) (jd : Word) : State :=
  match s.jobWords jd with
  | (.error _, s1) => s1.noJcb s.part jd
  | (.ok d, s1) =>
    let j := jobOf d
    let p : Post := { part := s.part, job := j, jd := jd, jcb := j.jjcb, lvl := 4, status := .poisoned, cause := 2, ent := 0xFFFFFFFF,
                      weight := 0, launch := 0, whole := false, raiseOnly := false }
    { s1 with posts := s1.posts ++ [p] }

/-- A cancel is recorded for the dispatcher. -/
def State.queueCancel (s : State) (lvl : Nat) (jd target : Word) (idx : Nat) : State :=
  { s with cancelQ := s.cancelQ ++ [(lvl, jd, target, idx)] }

/-- ENQUEUE_TAKE: the oldest record of a queue of this partition; a launch waits while the table is full. -/
def State.takeRecord (s : State) (idx : BitVec 8) : State :=
  match s.enqQ s.part idx with
  | none => s
  | some q => match q.ring with
    | [] => s
    | r :: rest =>
      let refill (q : EnqQ) : EnqQ := match q.spill with
        | [] => { q with ring := rest }
        | o :: os => { q with ring := rest ++ [o], spill := os }
      let s1 := s.modEnqQ s.part idx refill
      let w := r.words
      if badEnqRec w then s1.badRecord (wd w 1)
      else if ufield (wd w 0) 0 4 = 1 then
        let (ok, s2) := s1.takeLaunch s.part (wd w 1) (wd w 2)
        if ok then s2 else s
      else s1.queueCancel (ufield (wd w 0) 4 3) (wd w 1) (wd w 2) (ufield (wd w 3) 0 32)
def execEnqueueTake (q : BitVec 8) (s : State) : Out := .next (s.takeRecord q)

end Sys2Proof.Machine
end

