-- ==== Sys2Proof/Machine/Phases.lean ====
section
/-! DEFINITION. Transfer phases: the static mesh, entering, sending, receiving and leaving (R133 to R140). -/

namespace Sys2Proof.Machine

/-! ### Quires held by the loop buffer (R58) -/

/-- A quire enters the loop buffer, which holds two. -/
def State.holdQuire (s : State) (q : Quire) : State :=
  { s with loopBuf := (q :: s.loopBuf.filter (fun o => !(o.asid == q.asid && o.frame == q.frame))).take 2 }
/-- Fetches a quire into the loop buffer. -/
def State.loadQuire (s : State) (frame : Word) : Except Cause (Quire × State) :=
  match s.quireAt frame with
  | .ok (q, s1) => .ok (q, s1.holdQuire q)
  | .error c => .error c
/-- NEXT of a quire (R54). -/
def Quire.next (q : Quire) : Word := q.hdr.getD 1 0

/-! ### Participants (R135) -/

/-- The other active cores of the masked groups of this core's die. -/
def State.mates (s : State) (mask : BitVec 16) : List Nat :=
  (((List.range 16).filter (fun g => mask.getLsbD g)).map (fun g =>
    (List.range 8).map (fun m => coreAt (16 * dieOf s.core.toNat + g) m))).flatten.filter
      (fun c => c != s.core.toNat && !s.coreOut.get false c)

/-- The phase of this context, once it has started; its XPIN may still stand to issue. -/
def State.phaseOn (s : State) : Option Phase :=
  s.phase.bind (fun p => if p.ctx = s.cur ∧ p.started then some p else none)
/-- The phase whose bundles this context issues: its XPIN has issued (R135). -/
def State.inPhase (s : State) : Option Phase :=
  s.phase.bind (fun p => if p.ctx = s.cur ∧ p.started ∧ p.entered then some p else none)

/-- The context on the core keeps it: between its arrival at a phase and the phase's end no other context runs (R135), and
none does while the core is frozen (R381). -/
def State.holdsCore (s : State) : Bool := s.frozen || s.phase.any (fun p => p.ctx == s.cur)

/-- The phase is over for this core: pins released, words and arrivals gone. -/
def State.phaseEnd (s : State) (p : Phase) : State :=
  { s.unspin p.ctx [p.src, p.dst] with phase := none, mesh := [], meshWords := [] }

/-- Detail-less trap of the copy slot at the bundle where the A-half stands. -/
def State.phaseTrap (s : State) (c : Cause) : State :=
  (s.modCtx (fun c => { c with aview := none })).aFault 4 c 0

/-- An abort that this core originates (R140). Outside a phase no XPIN has pinned a name (log entry 30). -/
def State.phaseAbort (s : State) (c : PhaseCause) : State :=
  let s1 : State := { s with phaseFirst := some c }
  match s1.phaseOn with
  | some p => (s1.phaseEnd p).phaseTrap .phaseAbort
  | none => s1.phaseTrap .phaseAbort

/-! ### XPIN (R135) -/

/-- The halfwords of a router table. -/
def SegEntry.table (e : SegEntry) (off n : Nat) : List (BitVec 16) :=
  (List.range n).map (fun i => BitVec.ofNat 16 (bytesNat (e.read (off + 2 * i) 2)))

/-- Loads the current quire and the one at its NEXT; their frames. -/
def State.phaseQuires (s : State) : Except State (List Word × State) :=
  let frame := frameOf s.ctx.pc
  match s.loadQuire frame with
  | .error c => .error (s.aFault 7 c frame)
  | .ok (q, s1) =>
    if q.next = 0 then .ok ([frame], s1)
    else if !s1.fetchServed q.next then .error (s1.awaitPage q.next)
    else match s1.loadQuire q.next with
      | .error c => .error (s1.aFault 7 c q.next)
      | .ok (_, s2) => .ok ([frame, q.next], s2)

/-- The arrival at the phase unit. A bad mask is one with a bit of [63:16] set; a mask of no group, or without the core's
own, is accepted (DESIGN CHOICE: R135 does not say; log entry 77). -/
def State.arrivePhase (s : State) (sg dg : GReg) (sa da len : AReg) : Except State State := do
  s.until s.realigned .realign
  s.live 4 [sa, da, len]
  let off := (s.rd.ra sa).toNat
  let pl := (s.rd.ra len).toNat
  let mask := s.rd.ra da
  let a ← s.own 4 sg
  let b ← s.own 4 dg
  s.need (decide (1 ≤ pl ∧ pl ≤ 1024) && ufield mask 16 48 == 0 && off % 2 == 0 && decide (off + 2 * pl ≤ 128 * a.size))
    4 .badPhase 0
  s.mayPin 4 [a.name, b.name]
  if !(a.here && b.here) then .error ((s.requestRecall s.cur [a.name, b.name]).wait .segment)
  else
    let (quires, s1) ← s.phaseQuires
    let p : Phase := { ctx := s.cur, src := a.name, dst := b.name, mask := mask.setWidth 16, pl := pl,
                       table := a.table off pl, started := false, entered := false, fate := none, cycle := 0, routed := 0, xmit := none,
                       latched := [], quires := quires }
    pure { ((s1.spin s.cur [a.name, b.name]).touchSeg s.cur a.name).modCtx (fun c => { c with yielding := false }) with
           phase := some p, phaseFirst := none }

/-- XPIN: arrives, stalls in place, and completes when the phase starts. -/
def execXpin (sg dg : GReg) (sa da len : AReg) (s : State) : Out := fin (do
  match s.phase with
  | some p => match p.fate with
    | some c => .error ((s.phaseEnd p).aFault 4 c 0)
    | none =>
      s.until p.started .phase
      pure { s with phase := some { p with entered := true } }
  | none =>
    let s1 ← s.arrivePhase sg dg sa da len
    .error (s1.wait .phase))

/-- PHASE_START: every active core of every masked group has arrived with the same mask and PL; arrivals that
differ make every arrived core raise PHASESYNC. -/
def execPhaseStart (s : State) : Out :=
  .next (match s.phase with
    | none => s
    | some p =>
      let mates := s.mates p.mask
      let there := s.mesh.filter (fun n => mates.contains n.core)
      if p.started ∨ p.fate.isSome then s
      else if there.any (fun n => n.mask != p.mask || n.pl != p.pl) then
        { s with phase := some { p with fate := some .phaseSync } }
      else if mates.all (fun c => there.any (fun n => n.core == c)) then
        { s with phase := some { p with started := true, cycle := 0, routed := 0 }, meshWords := [] }
      else s)

/-- PHASETIMEOUT: the phase has not started in time. -/
def execPhasetimeout (s : State) : Out :=
  .next (match s.phase with
    | some p => if p.started ∨ p.fate.isSome then s else { s with phase := some { p with fate := some .phaseTimeout } }
    | none => s)

/-! ### The routers (R133, R134) -/

/-- The input that a table entry selects for output `o`: 1 N, 2 E, 3 S, 4 W. -/
def routerIn (e : BitVec 16) (o : Nat) : Nat := e.toNat / 8 ^ (o - 1) % 8

/-- The neighbour beyond an output and its facing input; none at the edge of the die. Row 0 is taken as the
northernmost (log entry 31). -/
def neighbour (core o : Nat) : Option (Nat × Nat) :=
  let col := core % 16
  let row := core / 16 % 8
  match o with
  | 1 => if row = 0 then none else some (core - 16, 3)
  | 2 => if col = 15 then none else some (core + 1, 4)
  | 3 => if row = 7 then none else some (core + 16, 1)
  | 4 => if col = 0 then none else some (core - 1, 2)
  | _ => none

/-- An entry that aborts the phase: a reserved value, or an input that faces off the die. -/
def routeBad (core : Nat) (e : BitVec 16) : Bool :=
  decide (4096 ≤ e.toNat) || [1, 2, 3, 4].any (fun o =>
    let i := routerIn e o
    decide (6 ≤ i) || (decide (1 ≤ i ∧ i ≤ 4) && (neighbour core i).isNone))

/-- The word on an input of a core at the current cycle. -/
def State.wordAt (s : State) (core port : Nat) (l : Option (Vec × Bool)) : Option (Vec × Bool) :=
  if port = 5 then l
  else (s.meshWords.find? (fun w => w.1 == core && w.2.1.toNat == port)).map (·.2.2)

/-- What a core's router sends on: the words that reach its neighbours' inputs at the next cycle. -/
def State.route (s : State) (core : Nat) (e : BitVec 16) (l : Option (Vec × Bool)) : List (Nat × BitVec 3 × Vec × Bool) :=
  [1, 2, 3, 4].filterMap (fun o => match neighbour core o, s.wordAt core (routerIn e o) l with
    | some (n, i), some w => some (n, BitVec.ofNat 3 i, w.1, w.2)
    | _, _ => none)

/-- An abort of which another participant, or a router, is the cause. -/
def State.phaseAborted (s : State) : State :=
  match s.phaseOn with
  | some p => (s.phaseEnd p).phaseTrap .phaseAbort
  | none => s

/-- ROUTER_CYCLE: once this core's bundle of the cycle has issued, every router of the phase moves its words; no phase goes on
while the core is frozen (R381). -/
def execRouterCycle (s : State) : Out :=
  .next (match (if s.frozen then none else s.inPhase) with
    | none => s
    | some p =>
      if p.cycle ≤ p.routed then s
      else
        let c := p.routed
        let e := p.table.getD c 0
        let nodes := s.mesh.filter (fun n => (s.mates p.mask).contains n.core)
        if routeBad s.core.toNat e then s.phaseAbort .routeBad
        else if nodes.any (fun n => routeBad n.core (n.table.getD c 0)) then s.phaseAborted
        else
          let words := s.route s.core.toNat e p.xmit ++
            (nodes.map (fun n => s.route n.core (n.table.getD c 0) ((n.xmits.find? (fun x => x.1 == c)).map (·.2)))).flatten
          { s with meshWords := words, phase := some { p with routed := c + 1, xmit := none } })

/-- PHASEABORT: another participant aborts the phase (R140); a frozen core meets it once it has moved (R382). -/
def execPhaseabort (_ : PhaseCause) (s : State) : Out := .next (if s.frozen then s else s.phaseAborted)

/-! ### XMIT, XSEL, XPOUT (R137 to R139) -/

/-- The offset of a phase word: misaligned, or beyond the segment, aborts. -/
def phaseOff (e : SegEntry) (off : Word) : Bool := off.toNat % 64 == 0 && decide (off.toNat + 64 ≤ 128 * e.size)

/-- The pinned segment that a phase slot's register must name. -/
def State.phaseSeg (s : State) (g : GReg) (name : BitVec 16) (off : Word) : Except State SegEntry :=
  if s.rd.rg g ≠ name then .error (s.phaseAbort .op)
  else match s.seg s.cur name with
    | none => .error (s.phaseAbort .op)
    | some e => if phaseOff e off then .ok e else .error (s.phaseAbort .segBound)

/-- XMIT: a word on the L input at this cycle, whatever the line's full bit. -/
def execXmit (sg : GReg) (sa : AReg) (s : State) : Out := fin (do
  match s.inPhase with
  | none => .error (s.phaseAbort .op)
  | some p =>
    s.live 4 [sa]
    let off := s.rd.ra sa
    let e ← s.phaseSeg sg p.src off
    pure { s.touchSeg s.cur e.name with phase := some { p with xmit := some (bytesVec (e.read off.toNat 64), e.poisoned off.toNat 64) } })

/-- XSEL: latches the word present on an input; the later of two for one offset remains. -/
def execXsel (dg : GReg) (da : AReg) (port : BitVec 3) (s : State) : Out := fin (do
  match s.inPhase with
  | none => .error (s.phaseAbort .op)
  | some p =>
    s.live 4 [da]
    let off := s.rd.ra da
    let _ ← s.phaseSeg dg p.dst off
    pure (match s.wordAt s.core.toNat port.toNat none with
      | none => s
      | some w => { s with phase := some { p with
          latched := p.latched.filter (fun x => x.1 != off.toNat) ++ [(off.toNat, w.1, w.2)] } }))

/-- XPOUT, at phase cycle PL: the latched words are written and their lines are full. -/
def execXpout (s : State) : Out := fin (do
  match s.inPhase with
  | none => .error (s.phaseAbort .op)
  | some p =>
    if p.cycle ≠ p.pl then .error (s.phaseAbort .op)
    else
      let put (e : SegEntry) : SegEntry := p.latched.foldl (fun (e : SegEntry) w =>
        (e.write w.1 (vecBytes w.2.1) w.2.2).setFull (w.1 / 128) true) e
      pure (((s.modSeg s.cur p.dst put).touchSeg s.cur p.dst).phaseEnd p))

end Sys2Proof.Machine
end

