-- ==== Sys2Proof/Machine/Expand.lean ====
section
/-! DEFINITION. The expander: quires, indices and literals, and the bundle at a position (R51 to R58). -/

namespace Sys2Proof.Machine

/-- A quire that BADQUIRE refuses (R54, R55). -/
def Quire.bad (q : Quire) (did : BitVec 16) : Bool :=
  let h (i : Nat) : Word := q.hdr.getD i 0
  let link (w : Word) : Bool := w != 0 && (w.toNat % 512 != 0 || ufield w 56 8 != 0)
  ufield (h 0) 8 56 != 0 || q.cnt == 0 || decide (128 < q.cnt) || link (h 1) || link (h 2) ||
  ufield (h 3) 0 16 != did.toNat || ufield (h 3) 16 48 != 0 || [4, 5, 6, 7].any (fun i => h i != 0)

/-- The 48 halfwords of a literal as one bundle (R19, R53). -/
def literal (l : List (BitVec 16)) : Bundle768 :=
  BitVec.ofNat 768 (l.foldr (fun h n => h.toNat + 65536 * n) 0)

/-- Where the bundle after position `i` of a quire lies: the next position, the quire at NEXT, or the end (R55). -/
def Quire.after (q : Quire) (i : Nat) : Word :=
  if i < q.cnt ∨ q.next = 0 then q.frame + BitVec.ofNat 64 (64 + 2 * i) else q.next + 64

/-- A bundle of a quire: what it is and where the next one lies, or the cause of R55. -/
def Quire.bundle (q : Quire) (did : BitVec 16) (entry : Nat → Option Bundle768) (i : Nat) : Except Cause (Bundle × Word) :=
  if q.bad did then .error .badQuire
  else if q.cnt ≤ i then .error .noCode
  else
    let h := (q.body.getD i 0).toNat
    if h = 0xFFFF then
      if q.cnt < i + 49 then .error .malformed
      else match decodeBundle (literal ((q.body.drop (i + 1)).take 48)) with
        | .ok b => if b.wf then .ok (b, q.after (i + 49)) else .error .malformed
        | .error _ => .error .malformed
    else match entry h with
      | none => .error .badIndex
      | some w => match decodeBundle w with
        | .ok b => .ok (b, q.after (i + 1))
        | .error _ => .error .malformed

/-- The entry of the context's dictionary that an index names (R53). -/
def State.entryOf (s : State) (h : Nat) : Option Bundle768 :=
  if h < 1024 ∧ h < s.ctx.dlim then some (s.dict.get 0 (s.ctx.dbase + h)) else none

/-- The bundle where the running context's A-half stands: the bundle and the position after it, or the cause and
detail of the trap. -/
def State.expand (s : State) : Except (Cause × Word) (Bundle × Word × State) :=
  let pc := s.ctx.pc
  let frame := frameOf pc
  match s.loadQuire frame with
  | .error c => .error (c, if c = .codeFault ∨ c = .sealed ∨ c = .badAddr then frame else 0)
  | .ok (q, s1) =>
    match q.bundle ((s.ctx.task.map (·.did)).getD 0) s1.entryOf ((pc.toNat % 512 - 64) / 2) with
    | .error c => .error (c, 0)
    | .ok (b, next) => .ok (b, next, s1)

/-- A trap of the expander: slot 7 of the A-half. A malformed literal is raised once the X-half has issued every
earlier bundle (R52). -/
def State.expandTrap (s : State) (c : Cause) (detail : Word) : State :=
  if c = .malformed ∧ !s.ctx.lag.isEmpty then s.wait .realign else (s.targetReport s.ctx.pc c).aFault 7 c detail

/-- BUNDLE_EXPANSION: the bundle is unpacked into the loop buffer, or its trap is raised. -/
def execBundleExpansion (s : State) : Out :=
  .next (if s.ctx.phase ≠ .running ∨ s.frozen then s
    else if !s.fetchServed (frameOf s.ctx.pc) then s.awaitPage (frameOf s.ctx.pc)
    else match s.expand with
      | .ok (_, _, s1) => s1
      | .error (c, d) => s.expandTrap c d)

/-- QUIRE_FETCH: a quire is fetched ahead of execution; a fetch that faults raises nothing (R58), but a lost flit is
reported (R112). -/
def execQuireFetch (frame : Word) (s : State) : Out :=
  .next (if s.ctx.phase ≠ .running ∨ frame.toNat % 512 ≠ 0 then s
    else if !s.fetchServed frame then s.noteMiss s.ctx.job.asid frame false
    else match s.loadQuire frame with
      | .ok (_, s1) => s1
      | .error c => if s.flitLost then s.fetchReport frame c else s)

end Sys2Proof.Machine
end

