-- ==== Sys2Proof/Machine/Preempt.lean ====
section
/-! DEFINITION. Drain points, light and heavy saves, the release of a pre-empted task and its resume; the two rows
by which a trap is taken (R354, R370, R371, R374 to R377). -/

namespace Sys2Proof.Machine

/-! ### Requests (R374) -/

/-- The running context is to stop: its job is pre-empted, or its task is cancelled. -/
def State.stopWanted (s : State) : Bool :=
  match s.ctx.task with
  | some t => s.preempted.contains t.jd || s.ctxCancelled s.cur
  | none => false

/-- The conditions of a confirmed drain point. Results that a handler has set aside count as in flight, and so do the
bundles whose X-halves it has set aside (DESIGN CHOICE: R374 speaks of no handler; log entry 71). -/
def State.drainOk (s : State) (h : Header) : Bool :=
  !h.ll && s.ctx.flight.isEmpty && !s.ctx.zhist.any (fun z => decide (s.ctx.xn ≤ z.due)) &&
  !s.ctx.aside.any (fun a => !a.flight.isEmpty || !a.lag.isEmpty || a.zhist.any (fun z => decide (a.xn ≤ z.due))) &&
  s.ctx.queues.all (fun q => q.2.isEmpty) && !s.streams.any (fun t => t.ctx == s.cur) && s.phaseOn.isNone

/-! ### Images (R376) -/

/-- A window of `n` registers moved from one base to another, in a store with `per` entries for each of `of_`
registers. -/
def moveWindow {β : Type} (l : Store β) (of_ per from_ n base : Nat) : Store β :=
  (l.filter (fun p => decide (from_ ≤ p.1 / per % of_ ∧ p.1 / per % of_ < from_ + n))).map
    (fun p => (p.1 + per * base - per * from_, p.2))
/-- Puts a window's entries into a store. -/
def putWindow {β : Type} (l w : Store β) : Store β := w.foldl (fun m p => m.insert p.1 p.2) l
/-- The vector registers of a store, poison of latches left out. -/
def vectorsOnly {β : Type} (l : Store β) : Store β := l.filter (fun p => decide (p.1 < 5120))

/-- The arrival of the running context at a phase is withdrawn (R140). -/
def State.withdraw (s : State) : State :=
  match s.phase with
  | some p => if p.ctx = s.cur then s.phaseEnd p else s
  | none => s

/-- Writes the image of the running context and takes it off the halves: an arrival at a phase is withdrawn, streams are
recorded and unbound, fetches let go, the watch set is lost. A light image holds no latches. -/
def State.saveImage (s : State) (heavy : Bool) : State :=
  let s1 := (s.withdraw.dropFetches s.ctx.allLag).dropM s.cur
  let mine := s1.streams.filter (fun t => t.ctx == s1.cur)
  let s2 := mine.foldl (fun s t => s.unbind t) s1
  let old := s2.ctx
  let setAside (a : Aside) : Aside :=
    { a with lag := a.lag.map LagEntry.refetch, latches := if heavy then a.latches else ⟨[], []⟩ }
  let c : Ctx := { old with phase := .saved, lag := old.lag.map LagEntry.refetch, aside := old.aside.map setAside,
                            watch := old.watch.lose,
                            aview := none, xview := none, halt := false, yielding := false, drained := none }
  let im : Image := { heavy := heavy, slot := some s2.cur, ctx := c, segs := [], streams := mine
                      v := moveWindow s2.v 640 1 old.vbase old.vcnt 0
                      vPoison := moveWindow (vectorsOnly s2.vPoison) 640 1 old.vbase old.vcnt 0
                      m := moveWindow s2.m 8 64 old.mbase old.mcnt 0
                      mscale := moveWindow s2.mscale 8 512 old.mbase old.mcnt 0
                      mPoison := moveWindow s2.mPoison 8 64 old.mbase old.mcnt 0
                      latches := if heavy then s2.seenLatches else ⟨[], []⟩ }
  ({ s2 with ctx := c, images := s2.images ++ [im] }).traceRec (if heavy then 8 else 7) old.pc 0

/-- The running context stops for good, where its task is cancelled, or is saved. -/
def State.stopHere (s : State) (heavy : Bool) : State :=
  if s.ctxCancelled s.cur then s.endTask .cancelled true else s.saveImage heavy

/-- What a save waits for: requests outstanding, queue reservations of loads and streams, ZST writes (R375). -/
def State.unsettled (s : State) : Bool :=
  s.reqs.any (fun q => q.ctx == s.cur) || s.zstores.any (fun z => z.ctx == s.cur) ||
  s.ctx.queues.any (fun q => q.2.any (fun e => e.val.isNone && (e.src == .load || e.src == .stream)))

/-- The A-half stands at a drain point with every earlier X-half issued: it is confirmed, or skipped. -/
def State.drainHere (s : State) (h : Header) : State :=
  if s.drainOk h then (if s.unsettled then s.wait .engine else s.stopHere false)
  else s.modCtx (fun c => { c with drained := some c.pc })

/-- DRAIN_POINT. -/
def execDrainPoint (s : State) : Out :=
  .next (if s.ctx.phase ≠ .running || s.frozen || !s.stopWanted || !s.ctx.lag.isEmpty || s.ctx.drained == some s.ctx.pc then s
    else match s.expand with
      | .ok (b, _, s1) => if b.hdr.dp then s1.drainHere b.hdr else s
      | .error _ => s)

/-- A heavy save of the running context, unless it stands at a confirmed drain point (R375). A core in an XPIN
stall withdraws its arrival; one in a phase is saved after it (R140). -/
def State.heavyHere (s : State) : State :=
  if s.ctx.phase ≠ .running || s.frozen || !s.stopWanted || s.phaseOn.isSome then s
  else
    let s1 := s.withdraw
    if s1.unsettled then s1.modCtx (fun c => { c with halt := true })
    else match (if s1.ctx.lag.isEmpty then s1.expand else .error (.brk, 0)) with
      | .ok (b, _, _) => s1.stopHere (!(b.hdr.dp && s1.drainOk b.hdr))
      | .error _ => s1.stopHere true
/-- HEAVY_SAVE of a context. -/
def execHeavySave (ctx : BitVec 2) (s : State) : Out := .next (s.asCtx ctx State.heavyHere)

/-! ### Release and resume (R375, R377) -/

/-- Members of the groups of a task take another number. -/
def State.renumber (s : State) (from_ dest : Nat) : State :=
  { s with groups := s.groups.map (fun g => { g with
      members := g.members.map (fun m => if m.core = s.core.toNat ∧ m.ctx = from_ then { m with ctx := dest } else m) }) }

/-- A segment as an image holds it: pushed out to its slot, or absent as it was. -/
def SegEntry.saved (e : SegEntry) : SegEntry :=
  let e1 : SegEntry := { e with cpins := 0, mpin := false, spins := 0 }
  if e.st = .absent ∨ e.st = .recalling then { e1 with st := .absent }
  else { e1 with st := .absent, place := [], zimg := false, bytes := [], poison := [] }

/-- PREEMPT_TASK: once the copies of a saved task have completed and no copy of another task or core pins its segments
(R162), these are pushed out, anchored ones included, and its floor, windows and context are free; on a core that moves,
after the move (R382). -/
def State.preemptTask (s : State) (i : BitVec 2) : State :=
  let c := s.ctxAt i
  if c.phase ≠ .saved || s.frozen || s.copies.any (fun x => x.ctx == i) || s.zstores.any (fun x => x.ctx == i) ||
    s.reqs.any (fun x => x.ctx == i) || s.segs.any (fun e => e.ctx == i && e.cpins != 0) then s
  else
    let own := s.segs.filter (fun e => e.ctx == i)
    let mine := own.map SegEntry.saved
    let s := (own.filter (fun e => e.st != .absent && e.st != .recalling)).foldl State.toSlot s
    let put (im : Image) : Image :=
      if im.slot = some i then
        { im with slot := none, segs := mine, ctx := { im.ctx with
            cidStat := c.cidStat, qctl := c.qctl, xpend := c.xpend, aside := c.aside
            regs := { im.ctx.regs with cpcause := c.regs.cpcause } } }
      else im
    let s1 : State := { s with images := s.images.map put, segs := s.segs.filter (fun e => e.ctx != i)
                               staging := s.staging.filter (fun x => x.ctx != i || x.kind == .warm)
                               parked := s.parked.filter (fun p => p.by_ != .half i) }
    (s1.setCtxAt i Ctx.zero).renumber i.toNat (4 + (c.task.map (·.adm)).getD 0)
def execPreemptTask (ctx : BitVec 2) (s : State) : Out := .next (s.preemptTask ctx)

/-- Puts the segments of an image back, the anchored ones resident in their floor. -/
def State.restoreSegs (s : State) (i : BitVec 2) : List SegEntry → State
  | [] => s
  | e :: r =>
    let e0 : SegEntry := { e with ctx := i }
    if !e.anc then ({ s with segs := s.segs ++ [e0] }).restoreSegs i r
    else
      let s1 := s.makeRoom none (fun s => decide (s.usedLines.length + e.size ≤ 512 * s.sw)) s.segs.length
      let (e1, s2) := s1.fromSlot e0
      ({ s2 with segs := s2.segs ++ [{ e1 with st := .resident, place := s2.freeLines.take e.size }] }).restoreSegs i r

/-- Pins of the fetches of a restored lag record. -/
def State.repin (s : State) (i : BitVec 2) (l : List LagEntry) : State :=
  l.foldl (fun s e => match e.fetch with
    | some f => s.pin i f.names
    | none => s) s

/-- The image restored into the windows found for it. -/
def State.restore (s : State) (im : Image) (w : Windows) : State :=
  let c : Ctx := { im.ctx with phase := .running, vbase := w.vbase, mbase := w.mbase, dbase := w.dbase, quantum := 0
                               latches := if im.heavy then some im.latches else none }
  let s1 := (s.clearWindows c).restoreSegs w.ctx im.segs
  let s2 : State := { s1 with
    v := putWindow s1.v (moveWindow im.v 640 1 0 c.vcnt c.vbase)
    vPoison := putWindow s1.vPoison (moveWindow im.vPoison 640 1 0 c.vcnt c.vbase)
    m := putWindow s1.m (moveWindow im.m 8 64 0 c.mcnt c.mbase)
    mscale := putWindow s1.mscale (moveWindow im.mscale 8 512 0 c.mcnt c.mbase)
    mPoison := putWindow s1.mPoison (moveWindow im.mPoison 8 64 0 c.mcnt c.mbase) }
  let s3 := (s2.setCtxAt w.ctx c).repin w.ctx c.lag
  let s4 := im.streams.foldl (fun (s : State) t =>
    ({ s.bump with streams := s.streams ++ [{ t with ctx := w.ctx, after := s.fresh }] }).spin w.ctx t.seg.toList) s3
  s4.renumber (4 + (c.task.map (·.adm)).getD 0) w.ctx.toNat

/-- A pre-empted task that retires leaves every group it is in (R141). -/
def State.leaveAll (s : State) (member : Nat) : State :=
  let mine (m : Member) : Bool := m.core == s.core.toNat && m.ctx == member
  let gids := (s.groups.filter (fun g => g.part == s.part && g.members.any mine)).map (·.gid)
  gids.foldl (fun s g => (s.modGroup g (fun x => { x with
    members := x.members.map (fun m => if mine m then { m with leaving := true } else m) })).settleLeaves g) s

/-- TASK_RESUME: image number `k` is admitted again on this core under R337, or retired where its task has been
cancelled. -/
def State.resumeTask (s : State) (k : Nat) : State :=
  match s.images[k]? with
  | none => s
  | some im => match im.ctx.task with
    | none => s
    | some t => match s.launchBy t.launch with
      | none => s
      | some l => match l.desc with
        | none => s
        | some d =>
          let n := t.x + l.nx * t.y
          let s0 : State := { s with images := s.images.eraseIdx k }
          let mine := s.taskCancelled l t.x t.y
          if im.slot.isSome then s
          else if l.cancelled || mine then
            (s0.leaveAll (4 + t.adm)).retireIndex l n (t.st.max .cancelled) 7 (if mine then BitVec.ofNat 32 (t.x + 65536 * t.y) else 0)
              (l.trigd.contains n) t.weight
          else if s.preempted.contains t.jd then s
          else if 256 < s0.segs.length + im.segs.length then s
          else match s0.fits l d n with
            | none => s
            | some w =>
              if w.load then match s0.readDict t.job d with
                | (.away, _) => s
                | (.bad e, s1) =>
                  ((s1.badDict l t.job d e).leaveAll (4 + t.adm)).retireIndex l n .poisoned 6 (BitVec.ofNat 32 e) (l.trigd.contains n) t.weight
                | (.entries ws, s1) => s.seated ((s1.loadDict d w.dbase ws).restore im w) w.ctx
              else s.seated (s0.restore im w) w.ctx
def execTaskResume (i : Nat) (s : State) : Out := .next (s.resumeTask i)

/-! ### The rows of a trap (R370, R371) -/

/-- TRAP_ENTRY: a trap that the context delegates enters its handler. -/
def execTrapEntry (t : TrapInfo) (s : State) : Out :=
  .next (if s.ctx.phase = .running ∧ !s.frozen ∧ s.ctx.delegates t then s.raise t else s)

/-- TRAP_TO_CONTROL_CORE: one that it does not delegate is served, or stops the task. -/
def execTrapToControlCore (t : TrapInfo) (s : State) : Out :=
  .next (if s.ctx.phase = .running ∧ !s.frozen ∧ !s.ctx.delegates t then s.raise t else s)

end Sys2Proof.Machine
end

