-- ==== Sys2Proof/Machine/Digest.lean ====
section
/-! DEFINITION. The standards that R395 names for an image's signatures: the SHA-2 hashes of FIPS 180-4, MGF1 and
RSASSA-PSS verification of RFC 8017 with SHA-384 and a salt of 48 bytes (log entry 75). -/

namespace Sys2Proof.Machine

/-! ### Byte strings, the first byte most significant -/

/-- The value of a byte string. -/
def beNat (l : List Byte) : Nat := l.foldl (fun n b => 256 * n + b.toNat) 0
/-- A value as `n` bytes. -/
def beBytes (n v : Nat) : List Byte := (List.range n).map (fun i => BitVec.ofNat 8 (v / 256 ^ (n - 1 - i)))
/-- `n` bytes from a place in a string. -/
def slice (l : List Byte) (at_ n : Nat) : List Byte := (l.drop at_).take n
def xorBytes (a b : List Byte) : List Byte := List.zipWith (· ^^^ ·) a b

/-! ### SHA-2 (FIPS 180-4) -/

/-- The constants of the 80 rounds: those of the 32-bit form are the upper halves of the first 64. -/
def shaK : List (BitVec 64) :=
  [0x428A2F98D728AE22, 0x7137449123EF65CD, 0xB5C0FBCFEC4D3B2F, 0xE9B5DBA58189DBBC, 0x3956C25BF348B538,
   0x59F111F1B605D019, 0x923F82A4AF194F9B, 0xAB1C5ED5DA6D8118, 0xD807AA98A3030242, 0x12835B0145706FBE,
   0x243185BE4EE4B28C, 0x550C7DC3D5FFB4E2, 0x72BE5D74F27B896F, 0x80DEB1FE3B1696B1, 0x9BDC06A725C71235,
   0xC19BF174CF692694, 0xE49B69C19EF14AD2, 0xEFBE4786384F25E3, 0x0FC19DC68B8CD5B5, 0x240CA1CC77AC9C65] ++
  [0x2DE92C6F592B0275, 0x4A7484AA6EA6E483, 0x5CB0A9DCBD41FBD4, 0x76F988DA831153B5, 0x983E5152EE66DFAB,
   0xA831C66D2DB43210, 0xB00327C898FB213F, 0xBF597FC7BEEF0EE4, 0xC6E00BF33DA88FC2, 0xD5A79147930AA725,
   0x06CA6351E003826F, 0x142929670A0E6E70, 0x27B70A8546D22FFC, 0x2E1B21385C26C926, 0x4D2C6DFC5AC42AED,
   0x53380D139D95B3DF, 0x650A73548BAF63DE, 0x766A0ABB3C77B2A8, 0x81C2C92E47EDAEE6, 0x92722C851482353B] ++
  [0xA2BFE8A14CF10364, 0xA81A664BBC423001, 0xC24B8B70D0F89791, 0xC76C51A30654BE30, 0xD192E819D6EF5218,
   0xD69906245565A910, 0xF40E35855771202A, 0x106AA07032BBD1B8, 0x19A4C116B8D2D0C8, 0x1E376C085141AB53,
   0x2748774CDF8EEB99, 0x34B0BCB5E19B48A8, 0x391C0CB3C5C95A63, 0x4ED8AA4AE3418ACB, 0x5B9CCA4F7763E373,
   0x682E6FF3D6B2B8A3, 0x748F82EE5DEFB2FC, 0x78A5636F43172F60, 0x84C87814A1F0AB72, 0x8CC702081A6439EC] ++
  [0x90BEFFFA23631E28, 0xA4506CEBDE82BDE9, 0xBEF9A3F7B2C67915, 0xC67178F2E372532B, 0xCA273ECEEA26619C,
   0xD186B8C721C0C207, 0xEADA7DD6CDE0EB1E, 0xF57D4F7FEE6ED178, 0x06F067AA72176FBA, 0x0A637DC5A2C898A6,
   0x113F9804BEF90DAE, 0x1B710B35131C471B, 0x28DB77F523047D84, 0x32CAAB7B40C72493, 0x3C9EBE0A15C9BEBC,
   0x431D67C49C100D4C, 0x4CC5D4BECB3E42B6, 0x597F299CFC657E2A, 0x5FCB6FAB3AD6FAEC, 0x6C44198C4A475817]

/-- The first hash values of SHA-512, whose upper halves are those of SHA-256, and of SHA-384. -/
def sha512Init : List (BitVec 64) :=
  [0x6A09E667F3BCC908, 0xBB67AE8584CAA73B, 0x3C6EF372FE94F82B, 0xA54FF53A5F1D36F1, 0x510E527FADE682D1,
   0x9B05688C2B3E6C1F, 0x1F83D9ABFB41BD6B, 0x5BE0CD19137E2179]
def sha384Init : List (BitVec 64) :=
  [0xCBBB9D5DC1059ED8, 0x629A292A367CD507, 0x9159015A3070DD17, 0x152FECD8F70E5939, 0x67332667FFC00B31,
   0x8EB44A8768581511, 0xDB0C2E0D64F98FA7, 0x47B5481DBEFA4FA4]

/-- One form of SHA-2: its round constants, and the rotations of its functions; the third of `small0` and `small1` shifts. -/
structure Sha2 (w : Nat) where
  ks : List (BitVec w)
  big0 : Nat × Nat × Nat
  big1 : Nat × Nat × Nat
  small0 : Nat × Nat × Nat
  small1 : Nat × Nat × Nat

def sha64 : Sha2 64 := ⟨shaK, (28, 34, 39), (14, 18, 41), (1, 8, 7), (19, 61, 6)⟩
def sha32 : Sha2 32 := ⟨(shaK.take 64).map (fun (k : BitVec 64) => (k >>> 32).setWidth 32), (2, 13, 22), (6, 11, 25), (7, 18, 3), (17, 19, 10)⟩

def rotations {w : Nat} (r : Nat × Nat × Nat) (x : BitVec w) : BitVec w :=
  x.rotateRight r.1 ^^^ x.rotateRight r.2.1 ^^^ x.rotateRight r.2.2
def rotationsShift {w : Nat} (r : Nat × Nat × Nat) (x : BitVec w) : BitVec w :=
  x.rotateRight r.1 ^^^ x.rotateRight r.2.1 ^^^ (x >>> r.2.2)

/-- The working variables a to h. -/
structure ShaVars (w : Nat) where
  a : BitVec w
  b : BitVec w
  c : BitVec w
  d : BitVec w
  e : BitVec w
  f : BitVec w
  g : BitVec w
  h : BitVec w

def ShaVars.ofList {w : Nat} (l : List (BitVec w)) : ShaVars w :=
  ⟨l.getD 0 0, l.getD 1 0, l.getD 2 0, l.getD 3 0, l.getD 4 0, l.getD 5 0, l.getD 6 0, l.getD 7 0⟩
def ShaVars.toList {w : Nat} (v : ShaVars w) : List (BitVec w) := [v.a, v.b, v.c, v.d, v.e, v.f, v.g, v.h]

/-- One round, with its constant and its word of the schedule. -/
def Sha2.round {w : Nat} (p : Sha2 w) (v : ShaVars w) (k x : BitVec w) : ShaVars w :=
  let t1 := v.h + rotations p.big1 v.e + ((v.e &&& v.f) ^^^ (~~~v.e &&& v.g)) + k + x
  let t2 := rotations p.big0 v.a + ((v.a &&& v.b) ^^^ (v.a &&& v.c) ^^^ (v.b &&& v.c))
  ⟨t1 + t2, v.a, v.b, v.c, v.d + t1, v.e, v.f, v.g⟩

/-- The rounds over the sixteen words of the schedule that come next. -/
def Sha2.rounds {w : Nat} (p : Sha2 w) : List (BitVec w) → List (BitVec w) → ShaVars w → ShaVars w
  | [], _, v => v
  | k :: ks, xs, v =>
    let next := rotationsShift p.small1 (xs.getD 14 0) + xs.getD 9 0 + rotationsShift p.small0 (xs.getD 1 0) + xs.getD 0 0
    p.rounds ks (xs.tail ++ [next]) (p.round v k (xs.getD 0 0))

/-- A block taken into the hash. -/
def Sha2.block {w : Nat} (p : Sha2 w) (h : List (BitVec w)) (b : List Byte) : List (BitVec w) :=
  let xs : List (BitVec w) := (List.range 16).map (fun i => BitVec.ofNat w (beNat (slice b (w / 8 * i) (w / 8))))
  List.zipWith (· + ·) h (p.rounds p.ks xs (ShaVars.ofList h)).toList

/-- A message with its padding: a one, zeros, and its length in bits as two words. -/
def Sha2.pad {w : Nat} (_ : Sha2 w) (m : List Byte) : List Byte :=
  let n := 2 * w
  m ++ [0x80] ++ List.replicate ((2 * n - 1 - w / 4 - m.length % n) % n) 0 ++ beBytes (w / 4) (8 * m.length)

/-- The hash of a message from first values. -/
def Sha2.hash {w : Nat} (p : Sha2 w) (init : List (BitVec w)) (m : List Byte) : List Byte :=
  let b := p.pad m
  (((List.range (b.length / (2 * w))).foldl (fun h i => p.block h (slice b (2 * w * i) (2 * w))) init).map
    (fun x => beBytes (w / 8) x.toNat)).flatten

def sha256 (m : List Byte) : List Byte := sha32.hash (sha512Init.map (fun (x : BitVec 64) => (x >>> 32).setWidth 32)) m
def sha384 (m : List Byte) : List Byte := (sha64.hash sha384Init m).take 48
def sha512 (m : List Byte) : List Byte := sha64.hash sha512Init m

/-- MGF1 of RFC 8017: `n` bytes from a seed, by a hash of `len` bytes. -/
def mgf1 (hash : List Byte → List Byte) (len : Nat) (seed : List Byte) (n : Nat) : List Byte :=
  (((List.range ((n + len - 1) / len)).map (fun i => hash (seed ++ beBytes 4 i))).flatten).take n

/-! ### RSASSA-PSS (RFC 8017) -/

/-- A power modulo a number; the exponent has at most 64 bits. -/
def powMod (b e n : Nat) : Nat :=
  (List.range 64).foldl (fun r i => r * r % n * (if e.testBit (63 - i) then b else 1) % n) (1 % n)

/-- Verification with SHA-384, MGF1 with SHA-384 and a salt of 48 bytes: a modulus of 3,072 bits, an exponent, a message and
a signature of 384 bytes. -/
def rsaPssOk (modulus e : Nat) (m sig : List Byte) : Bool :=
  let s := beNat sig
  let em := beBytes 384 (powMod s e modulus)
  let masked := em.take 335
  let h := slice em 335 48
  let db := match xorBytes masked (mgf1 sha384 48 h 335) with
    | [] => []
    | b :: r => (b &&& 0x7F) :: r
  let salt := slice db 287 48
  decide (2 ^ 3071 ≤ modulus ∧ modulus < 2 ^ 3072) && sig.length == 384 && decide (s < modulus) &&
  em.getD 383 0 == 0xBC && !(masked.getD 0 0).getLsbD 7 &&
  (db.take 286).all (· == 0) && db.getD 286 0 == 1 && h == sha384 (List.replicate 8 0 ++ sha384 m ++ salt)

end Sys2Proof.Machine
end

