-- ==== Sys2Proof/Machine/SlhDsa.lean ====
section
/-! DEFINITION. Verification of a pure SLH-DSA-SHA2-192s signature with an empty context string, as FIPS 205 gives it
(R395; log entry 75). -/

namespace Sys2Proof.Machine

/-! ### Parameters of SLH-DSA-SHA2-192s -/

/-- Bytes of a hash value. -/
def slhN : Nat := 24
/-- Layers of the hypertree, and the height of each. -/
def slhD : Nat := 7
def slhHp : Nat := 9
/-- Height and number of the FORS trees. -/
def slhA : Nat := 14
def slhK : Nat := 17
/-- Chains of a WOTS+ key: 48 of the message and 3 of the checksum, of 16 values each. -/
def slhLen : Nat := 51
/-- Bytes of a signature. -/
def slhSigBytes : Nat := (1 + slhK * (1 + slhA) + slhD * (slhHp + slhLen)) * slhN

/-! ### Addresses and hashes -/

/-- A hash address: layer, tree, type, key pair, then chain or tree height, then hash or tree index. -/
structure SlhAddr where
  layer : Nat
  tree : Nat
  type : Nat
  pair : Nat
  height : Nat
  index : Nat
  deriving DecidableEq, Repr

/-- Its compressed form of 22 bytes. -/
def SlhAddr.bytes (a : SlhAddr) : List Byte :=
  beBytes 1 a.layer ++ beBytes 8 a.tree ++ beBytes 1 a.type ++ beBytes 4 a.pair ++ beBytes 4 a.height ++ beBytes 4 a.index

def slhF (seed : List Byte) (a : SlhAddr) (m : List Byte) : List Byte :=
  (sha256 (seed ++ List.replicate (64 - slhN) 0 ++ a.bytes ++ m)).take slhN
/-- H and T: the two differ in the length of the message alone. -/
def slhT (seed : List Byte) (a : SlhAddr) (m : List Byte) : List Byte :=
  (sha512 (seed ++ List.replicate (128 - slhN) 0 ++ a.bytes ++ m)).take slhN
/-- The digest of a message, of 39 bytes. -/
def slhMsg (r seed root m : List Byte) : List Byte := mgf1 sha512 64 (r ++ seed ++ sha512 (r ++ seed ++ root ++ m)) 39

/-- The `i`-th group of `b` bits of a byte string. -/
def bitGroup (l : List Byte) (b i : Nat) : Nat := beNat l / 2 ^ (8 * l.length - b * (i + 1)) % 2 ^ b
/-- The `i`-th hash value of a part of a signature. -/
def slhPart (l : List Byte) (i : Nat) : List Byte := slice l (slhN * i) slhN

/-! ### Trees, WOTS+ and FORS -/

/-- A node over its sibling: which comes first is a bit of the leaf's index. -/
def slhUp (seed : List Byte) (a : SlhAddr) (leaf : Nat) (auth : List Byte) (node : List Byte) (j : Nat) : List Byte :=
  let b := { a with height := j + 1, index := a.index / 2 ^ (j + 1) }
  let sib := slhPart auth j
  slhT seed b (if leaf.testBit j then sib ++ node else node ++ sib)
/-- The root of a tree of height `h` over a leaf, by its authentication path; the address holds the leaf's tree index. -/
def slhRoot (seed : List Byte) (a : SlhAddr) (leaf h : Nat) (auth node : List Byte) : List Byte :=
  (List.range h).foldl (slhUp seed a leaf auth) node

/-- A chain from step `i` for `n` steps. -/
def slhChain (seed : List Byte) (a : SlhAddr) (i n : Nat) (x : List Byte) : List Byte :=
  (List.range n).foldl (fun x j => slhF seed { a with index := i + j } x) x

/-- The values that a WOTS+ key signs: those of the message and of its checksum. -/
def wotsDigits (m : List Byte) : List Nat :=
  let d := (List.range 48).map (bitGroup m 4)
  let c := beBytes 2 (16 * (d.map (fun x => 15 - x)).sum)
  d ++ (List.range 3).map (bitGroup c 4)
/-- The WOTS+ public key of a signature. -/
def wotsPk (seed : List Byte) (a : SlhAddr) (sig m : List Byte) : List Byte :=
  let w : SlhAddr := { a with type := 0, height := 0, index := 0 }
  let ends := (wotsDigits m).zipIdx.map (fun p => slhChain seed { w with height := p.2 } p.1 (15 - p.1) (slhPart sig p.2))
  slhT seed { w with type := 1 } ends.flatten

/-- The root of an XMSS tree of a layer, from its signature of a message by a leaf. -/
def xmssRoot (seed : List Byte) (layer tree leaf : Nat) (sig m : List Byte) : List Byte :=
  let node := wotsPk seed ⟨layer, tree, 0, leaf, 0, 0⟩ sig m
  slhRoot seed ⟨layer, tree, 2, 0, 0, leaf⟩ leaf slhHp (sig.drop (slhLen * slhN)) node

/-- The hypertree's root over a message: the layers upward, each by its part of the signature. -/
def hyperRoot (seed : List Byte) (tree leaf : Nat) (sig m : List Byte) : List Byte :=
  let one := (slhHp + slhLen) * slhN
  (List.range slhD).foldl (fun node j =>
    let idx := if j = 0 then leaf else tree / 2 ^ (slhHp * (j - 1)) % 2 ^ slhHp
    xmssRoot seed j (tree / 2 ^ (slhHp * j)) idx (slice sig (one * j) one) node) m

/-- The FORS public key of a signature. -/
def forsPk (seed : List Byte) (tree leaf : Nat) (sig md : List Byte) : List Byte :=
  let one := (1 + slhA) * slhN
  let a : SlhAddr := ⟨0, tree, 3, leaf, 0, 0⟩
  let roots := (List.range slhK).map (fun i =>
    let x := bitGroup md slhA i
    let b : SlhAddr := { a with index := i * 2 ^ slhA + x }
    let part := slice sig (one * i) one
    slhRoot seed b x slhA (part.drop slhN) (slhF seed b (part.take slhN)))
  slhT seed { a with type := 4 } roots.flatten

/-- Verification: a public key (seed and root), a message and a signature. The pure form puts two zeros, a domain and the
length of the empty context, before the message. -/
def slhDsaOk (key m sig : List Byte) : Bool :=
  let seed := key.take slhN
  let root := slice key slhN slhN
  let digest := slhMsg (sig.take slhN) seed root ([0, 0] ++ m)
  let md := digest.take 30
  let tree := beNat (slice digest 30 7) % 2 ^ 54
  let leaf := beNat (slice digest 37 2) % 2 ^ 9
  let fors := forsPk seed tree leaf (slice sig slhN (slhK * (1 + slhA) * slhN)) md
  key.length == 2 * slhN && sig.length == slhSigBytes &&
  hyperRoot seed tree leaf (sig.drop ((1 + slhK * (1 + slhA)) * slhN)) fors == root

end Sys2Proof.Machine
end

