-- ==== Sys2Proof/Machine/Health.lean ====
section
/-! DEFINITION. Soft errors, migration of a core, spare slices, temperature and power, and boot
(R14, R378 to R382, R394 to R399). -/

namespace Sys2Proof.Machine

def regHLTH : Nat := 0x40008
def regPWRCAP : Nat := 0x40010

/-! ### Replace soon (R398) -/

/-- Cores that are offline; those that the SKU does not enable are not among them (R14, R396). -/
def State.offlineCount (s : State) : Nat :=
  s.coreOut.countP (fun c => c.2 && !s.boot.config.off.contains c.1) +
  (if s.online || s.boot.config.off.contains s.core.toNat then 0 else 1)

/-- The reasons, as bits 1 to 4 of HLTH; `hot`: a die has been beyond its warning temperature 10 times in an hour. -/
def State.why (s : State) (hot : Bool) : Nat :=
  let few := (List.range 4).any (fun d => decide (s.spareCores.get 0 d < 4))
  let empty := (List.range 4).any (fun d => s.spareCores.get 0 d == 0 || s.spareSlices.get 0 d == 0) ||
    s.lanesUsed.any (fun p => decide (4 ≤ p.2)) || !s.retiredPages.isEmpty
  (if few then 2 else 0) + (if empty then 4 else 0) + (if s.offlineCount = 0 then 0 else 8) + (if hot then 16 else 0)

/-- HLTH takes its reasons; where RSR first becomes 1, vector 2 of every function and one management message. -/
def State.health (s : State) (ask hot : Bool) : State :=
  let old := s.barAt 0 regHLTH
  let rsr := ask || old.getLsbD 0 || s.why hot != 0
  let s1 := s.setBar 0 regHLTH (BitVec.ofNat 64 ((if rsr then 1 else 0) + s.why hot + 32 * s.offlineCount) ||| (old &&& 0x1E))
  if rsr && !old.getLsbD 0 then
    { (List.range 8).foldl (fun (s : State) f => s.signal f 2) s1 with mgmt := s1.mgmt + 1 }
  else s1

/-! ### Stopping what a core holds -/

/-- A task that is on no half stops with a cause: it is logged with the positions that its context or image holds (R365), and
its index retires POISONED. -/
def State.stopIndex (s : State) (c : Cause) (i : BitVec 2) (x : Ctx) (t : Task) : State :=
  match s.launchBy t.launch with
  | none => s
  | some l =>
    (s.logFault ⟨t.part, c, none, s.core.toNat, i, x.pc, x.xpc, t.x, t.y, 0, 0⟩).retireIndex l (t.x + l.nx * t.y) .poisoned 8
      (BitVec.ofNat 32 (t.x + 65536 * t.y)) (l.trigd.contains (t.x + l.nx * t.y)) t.weight
/-- So does the task of an image; one whose context has been released is logged under context 0 (DESIGN CHOICE: the spec gives
its record no context; log entry 46). -/
def State.stopImage (s : State) (c : Cause) (m : Image) : State :=
  match m.ctx.task with
  | none => s
  | some t => (s.leaveAll (4 + t.adm)).stopIndex c (m.slot.getD 0) m.ctx t
/-- The task of a context stops with a cause: one that runs, one whose image has been written, or one that has been
admitted. -/
def State.stopCtx (s : State) (c : Cause) (i : BitVec 2) : State :=
  match (s.ctxAt i).phase with
  | .running => s.asCtx i (fun s => s.stopTask c none 0)
  | .saved => ({ s with images := s.images.filter (fun m => m.slot != some i) }).asCtx i (fun s => s.stopTask c none 0)
  | .admitted => match (s.ctxAt i).task with
    | some t => (s.unadmit i false).stopIndex c i (s.ctxAt i) t
    | none => s
  | .free | .retiring => s
/-- Every task that the core holds stops, those in images too. -/
def State.stopAll (s : State) (c : Cause) : State :=
  let s1 := ([0, 1, 2, 3] : List (BitVec 2)).foldl (fun s i => s.stopCtx c i) s
  s1.images.foldl (fun s m => s.stopImage c m) { s1 with images := [] }
/-- Admitted tasks go back to ready. -/
def State.unadmitAll (s : State) : State := ([0, 1, 2, 3] : List (BitVec 2)).foldl (fun s i => s.unadmit i true) s

/-- Watch sets that hold a line are lost (R109, R397). -/
def State.loseWatches (s : State) (p : Nat → Bool) : State :=
  let f (c : Ctx) : Ctx :=
    if c.watch.lines.any (fun l => p l.1) || c.watch.bare.any p then { c with watch := { Watch.zero with lost := true } } else c
  { s with ctx := f s.ctx, others := s.others.map (fun o => (o.1, f o.2)) }

/-! ### Slices (R397) -/

/-- The failing slice's lines are written back and gone; whoever watches or holds one of them or one whose home it is loses
it. -/
def State.emptySlice (s : State) (n : Nat) : State :=
  let mine (line : Nat) : Bool := s.l2.any (fun l => l.line == line && l.slice == n) || s.homeSlice (128 * line) == n
  let s1 := (s.loseWatches mine).dropHeld mine
  let s2 := if s.l2.any (fun l => l.slice == n && l.dirty) then s1.writtenBack else s1
  { s2 with l2 := s2.l2.filter (fun l => l.slice != n) }
/-- SLICE_SPARE: a spare takes the failing slice's number, its dirty lines written back and its lines gone; or, where the die
has none left, the slice is retired, every slice of its partition written back and invalidated, and every home computed
again. -/
def State.spareSlice (s : State) (slice : BitVec 9) (spare : Bool) : State :=
  let n := slice.toNat
  let d := n / 128
  let left := s.spareSlices.get 0 d
  if s.sliceOut.get false n ∨ (left ≠ 0 ∧ !spare) then s
  else if left ≠ 0 then
    let s1 := s.emptySlice n
    let s2 : State := { s1 with spareSlices := s1.spareSlices.set 0 d (left - 1)
                                boot := { s1.boot with repairs := s1.boot.repairs ++ [.slice n] } }
    s2.health false false
  else
    let s1 := if s.partOf (groupOf n) = some s.part then (s.loseWatches (fun _ => true)).writeBackInvalidate else s.emptySlice n
    let s2 : State := { s1 with sliceOut := s1.sliceOut.set false n true
                                boot := { s1.boot with repairs := s1.boot.repairs ++ [.sliceGone n] } }
    s2.health true false
def execSliceSpare (slice : BitVec 9) (spare : Bool) (s : State) : Out := .next (s.spareSlice slice spare)

/-! ### Soft errors (R378, R379) -/

/-- The 64-byte units that an uncorrectable error at an address poisons: its own, or those of the four lines of a
compressed unit (R114). Whether the unit is compressed is a free value (log entry 4): one that was stays so when EN is
cleared. -/
def State.struck (s : State) (pa : Nat) : List Nat :=
  if Config.freeChoice s.fresh then (List.range 8).map (fun i => pa / 512 * 8 + i) else [pa / 64]

/-- Parity drops one entry of the L1, the TLB or the translation cache; which one is a free value (log entry 4). -/
def State.dropEntry (s : State) : State :=
  let k := s.freeWord.toNat
  let s := s.bump
  match k % 3 with
  | 0 => { s with l1 := s.l1.eraseIdx (k / 3 % (s.l1.length + 1)) }
  | 1 => { s with tlb := s.tlb.eraseIdx (k / 3 % (s.tlb.length + 1)) }
  | _ => { s with tcache := s.tcache.eraseIdx (k / 3 % (s.tcache.length + 1)) }

/-- An error that is corrected is counted; another has its effect (R378). -/
def State.corrects (s : State) (ok : Bool) (t : State) : State := if ok then { s with corrected := s.corrected + 1 } else t
/-- A queue whose entry at a place is poisoned, where one is there. -/
def poisonEntry (l : List QEntry) (n : Nat) : List QEntry := (l.zipIdx).map (fun p => if p.2 = n then { p.1 with poison := true } else p.1)

/-- An error that hardware cannot confine to a value: a CORE machine check (R378, R381). -/
def State.coreFault (s : State) : State :=
  let s1 := s.machineCheck
  { s1 with frozen := true, phaseFirst := if s1.phase.isSome then some .machineCheck else s1.phaseFirst }
/-- A result on a shelf is struck. -/
def poisonFlight (l : List Flight) (n : Nat) : List Flight := (l.zipIdx).map (fun p => if p.2 = n then { p.1 with poison := true } else p.1)

/-- SOFT_ERROR. Predicates, flags, g-registers, loop counters and special registers carry no poison (R379): an error there
that is not corrected is a CORE machine check (DESIGN CHOICE, log entry 80). -/
def State.softError (s : State) (t : SoftTarget) : State :=
  match t with
  | .memUnit pa ok =>
    s.corrects ok { s.bump with memPoison := (s.struck pa).foldl (fun m u => m.set false u true) s.memPoison }
  | .vecReg cl phys ok =>
    s.corrects ok (if 8 ≤ cl ∨ 640 ≤ phys then s else { s with vPoison := s.vPoison.set false (640 * cl + phys) true })
  | .aReg i ok =>
    s.corrects ok (if i = 0 then s else s.modRegs (fun r => { r with aPoison := r.aPoison.set false i.toNat true }))
  | .shape k ok =>
    s.corrects ok (if 24 ≤ k then s else s.modRegs (fun r => { r with shPoison := r.shPoison.set false k true }))
  | .segUnit i name u ok =>
    s.corrects ok (s.modSeg i name (fun e => if e.here ∧ u < 2 * e.size then { e with poison := e.poison.set false u true } else e))
  | .queueEntry q n ok => s.corrects ok (s.modCtx (fun c => c.setQueue q (poisonEntry (c.queue q) n)))
  | .transit k ok => s.corrects ok (if 128 ≤ k then s else { s with vPoison := s.vPoison.set false (5120 + k) true })
  | .stationary k ok => s.corrects ok (if 512 ≤ k then s else { s with mPoison := s.mPoison.set false k true })
  | .accumulator k ok =>
    s.corrects ok (if 256 ≤ k then s else s.modCtx (fun c => { c with zPoison := c.zPoison.set false k true }))
  | .shelf n ok =>
    s.corrects ok (s.modCtx (fun c => { c with flight := poisonFlight c.flight n }))
  | .asideShelf n ok =>
    s.corrects ok (s.modCtx (fun c => { c with aside := c.aside.map (fun a => { a with flight := poisonFlight a.flight n }) }))
  | .scale k ok =>
    s.corrects ok (if 128 ≤ k then s else { s with mPoison := (List.range 4).foldl (fun m i => m.set false (4 * k + i) true) s.mPoison })
  | .smallReg ok => s.corrects ok s.coreFault
  | .row pa spare =>
    let s1 : State := { s with corrected := s.corrected + 1 }
    if spare then { s1 with boot := { s1.boot with repairs := s1.boot.repairs ++ [.row pa] } }
    else
      let old := s1.retiredPages
      (if old.contains (pa / 65536) then s1
       else { s1 with retiredPages := old ++ [pa / 65536]
                      boot := { s1.boot with repairs := s1.boot.repairs ++ [.page (pa / 65536)] } }).health false false
  | .parity => s.dropEntry
  | .l2Tag slice both =>
    if both then (s.machineCheck.stopAll .l2Lost).writeBackInvalidate.loseWatches (fun _ => true)
    else ({ s with corrected := s.corrected + 1 }).spareSlice (BitVec.ofNat 9 slice) true
  | .coreState => s.coreFault
def execSoftError (t : SoftTarget) (s : State) : Out := .next (s.softError t)

/-! ### Migration (R14, R381, R382) -/

/-- A context whose image failed its check: stopped with CORE, its segments freed. -/
def State.dropCtx (s : State) (i : BitVec 2) : State :=
  let s1 := s.stopCtx .core i
  { s1 with segs := s1.segs.filter (fun e => e.ctx != i) }

/-- The phase of a core that failed is aborted (R382). -/
def State.breakPhase (s : State) : State :=
  match s.phase with
  | some p => if p.started then s.asCtx p.ctx State.phaseAborted else s
  | none => s

/-- A spare of a die that no substitution has used (R11, R13). -/
def State.freeSpare (s : State) (d : Nat) (p : BitVec 10) : Bool :=
  isSpareOf d p && !s.boot.repairs.any (fun r => match r with | .core _ q => q == p | _ => false)

/-- Launches under PLC = 0b01 that need this core and still have a task that has not been dispatched fail OFFLINE (R14,
R345). -/
def State.shutLaunches (s : State) : State :=
  s.launches.foldl (fun s l => match l.job, l.desc with
    | some j, some d =>
      if !l.done && !l.failed && !l.shut && d.plc == 1 && s.offline l.part d && s.undispatched l then s.shutLaunch l j d else s
    | _, _ => s) s

/-- CORE_MIGRATION of the frozen core: to a free spare of its die, which takes the logical number; or offline where the
die has none left. It stays frozen until one of the two happens.
Bit i of `images`: the image of context i passed its check. The trace record's detail is 0 (DESIGN CHOICE: R402 does not say
what it holds, and R11 keeps physical numbers from it; log entry 46). -/
def State.migrate (s : State) (spare : Option (BitVec 10)) (images : BitVec 4) : State :=
  let d := dieOf s.core.toNat
  let left := s.spareCores.get 0 d
  if !s.frozen then s
  else match (if left = 0 then none else some (spare.filter (s.freeSpare d))) with
    | some none => s
    | some (some p) =>
      let s1 : State := { s with frozen := false, phys := p, spareCores := s.spareCores.set 0 d (left - 1)
                                 boot := { s.boot with repairs := s.boot.repairs ++ [.core s.core.toNat p] }
                                 l1 := [], ghosts := [], tlb := [] }
      let s2 := ([0, 1, 2, 3] : List (BitVec 2)).foldl (fun s i => if images.getLsbD i.toNat then s else s.dropCtx i)
        (s1.loseWatches (fun _ => true))
      (s2.breakPhase.traceRec 11 s2.ctx.pc 0).health true false
    | none =>
      let s1 := (s.unadmitAll.stopAll .core)
      let s2 : State := { s1 with frozen := false, online := false
                                  boot := { s1.boot with repairs := s1.boot.repairs ++ [.offline s.core.toNat] } }
      s2.shutLaunches.health true false
def execCoreMigration (spare : Option (BitVec 10)) (images : BitVec 4) (s : State) : Out := .next (s.migrate spare images)

/-! ### Vertical links (R112, R113, R397) -/

/-- LINK_RETRAIN: deferred for up to 500 µs while a transfer phase or a barrier is pending; then whatever it pauses resumes
with nothing lost and nothing duplicated. A lane that fails at the training, of a link's group of 64, is replaced by one of
the group's four spares; where none is left the link runs narrower. -/
def execLinkRetrain (r : Retrain) (s : State) : Out :=
  .next (match r.failed with
    | none => s
    | some g =>
      if r.pendingUs < 500 ∧ (s.phase.isSome ∨ s.mark = .waited .barrier) ∨ 4 ≤ s.lanesUsed.get 0 g then s
      else ({ s with lanesUsed := s.lanesUsed.set 0 g (s.lanesUsed.get 0 g + 1)
                     boot := { s.boot with repairs := s.boot.repairs ++ [Repair.lane g] } }).health false false)

/-! ### Temperature and power (R399) -/

/-- THERMAL_THROTTLE: clocks are lowered; nothing that a program computes changes. From the tenth time on that a die is beyond
its warning temperature, whether the last ten lie within an hour is a free value: the model keeps no hours (log entry 28). -/
def execThermalThrottle (die : BitVec 5) (s : State) : Out :=
  let n := s.hot.get 0 die.toNat + 1
  let t : State := { s.bump with throttled := s.throttled.set false die.toNat true, hot := s.hot.set 0 die.toNat n }
  .next (if 10 ≤ n ∧ Config.freeChoice s.fresh then t.health false true else t)
/-- THROTTLE_RELEASE. -/
def execThrottleRelease (die : BitVec 5) (s : State) : Out := .next { s with throttled := s.throttled.set false die.toNat false }
/-- THERMAL_SHUTDOWN: every partition stops as for CORE without migration, and the module holds itself in reset. -/
def execThermalShutdown (_ : BitVec 5) (s : State) : Out := .next { s.unadmitAll.stopAll .core with inReset := true }

/-- PWRCAP_WRITE: 500 to 3,000 W. -/
def State.writePwrcap (s : State) (v : Word) : State :=
  let w := v &&& 0xFFF
  if 500 ≤ w.toNat ∧ w.toNat ≤ 3000 then s.setBar 0 regPWRCAP w else s
def execPwrcapWrite (v : Word) (s : State) : Out := .next (s.writePwrcap v)

/-! ### The fault log in memory (R399) -/

/-- The words that a record of the fault log holds. -/
def FaultRec.fields (r : FaultRec) : List Word :=
  [r.cycle, BitVec.ofNat 64 r.cause.code, BitVec.ofNat 64 ((r.first.map Cause.code).getD 0), BitVec.ofNat 64 r.core, r.ctx.setWidth 64,
   r.apc, r.xpc, BitVec.ofNat 64 (r.x + 65536 * r.y), r.detail]
/-- Its 32 bytes. -/
def FaultRec.bytes (r : FaultRec) : List Byte :=
  ([0, 1, 2, 3].map (fun i => natBytes 8 (Config.faultRecord r.fields i).toNat)).flatten
/-- The first record that firmware has not gone through and whose partition has a ring, with its place in the log. -/
def State.logNext (s : State) : Option (Nat × FaultRec × FaultRing) :=
  (s.faultLog.zipIdx.drop s.logged).findSome? (fun p =>
    (s.faultRings.find? (fun q => q.part == p.1.part)).map (fun q => (p.2, p.1, q)))
/-- Firmware writes that record into its ring, once the page translates: the next one takes the next place, and after the last
the first (DESIGN CHOICE: R399 gives no order in the ring; log entry 46). -/
def State.keepLog (s : State) : State :=
  match s.logNext with
  | none => s
  | some (n, r, q) => match s.sysAtOf r.part (q.base + BitVec.ofNat 64 (32 * q.head)) 0 false .layerOff with
    | .ok pa s1 =>
      let s2 := (s1.sysDirty r.part (q.base + BitVec.ofNat 64 (32 * q.head))).feltWrite pa r.bytes 0 false
      { s2 with logged := n + 1
                faultRings := s.faultRings.map (fun x => if x.part = q.part then { x with head := (x.head + 1) % x.cap } else x) }
    | .waits s1 => s1
    | .fault _ _ _ => s
def firmwareLog (s : State) : Out := .next s.keepLog

/-! ### Boot (R394 to R396) -/

/-- The physical core and the spares left, as the repair map gives them. -/
def Boot.phys (b : Boot) (core : Nat) : Option (BitVec 10) :=
  (b.repairs.filterMap (fun r => match r with
    | .core c p => if c = core ∧ isSpareOf (dieOf core) p then some p else none | _ => none)).getLast?
def Boot.usedCores (b : Boot) (d : Nat) : Nat :=
  b.repairs.countP (fun r => match r with | .core c _ => c / 128 == d | _ => false)
def Boot.usedSlices (b : Boot) (d : Nat) : Nat :=
  b.repairs.countP (fun r => match r with | .slice c => c / 128 == d | _ => false)

/-- What the map says of a core, a slice or a page that no spare could replace: it stays so (R398). -/
def Boot.coresGone (b : Boot) : List Nat := b.repairs.filterMap (fun r => match r with | .offline c => some c | _ => none)
def Boot.slicesGone (b : Boot) : List Nat := b.repairs.filterMap (fun r => match r with | .sliceGone n => some n | _ => none)
def Boot.pagesGone (b : Boot) : List Nat := b.repairs.filterMap (fun r => match r with | .page n => some n | _ => none)

/-- POWER_ON: the module is as after reset but for its flash; mask ROM and boot SRAM test themselves. -/
def execPowerOn (selfTestOk : Bool) (s : State) : Out :=
  .next { State.reset with
    agenda := s.agenda, flrFn := s.flrFn, core := s.core, phys := s.phys, inReset := !selfTestOk
    boot := { s.boot with
      stage := if selfTestOk then 2 else 1, err := if selfTestOk then 0 else 1, svn := 0, minsvn := 0
      config := Boot.zero.config } }

/-- BOOT_LINK_UP: stage 2, tried again until the link is up. -/
def execBootLinkUp (ok : Bool) (s : State) : Out :=
  .next (if s.boot.stage = 2 ∧ ok then { s with boot := { s.boot with stage := 3 } } else s)
/-- BOOT_DHCP: stage 3, tried again until a boot file is named. -/
def execBootDhcp (ok : Bool) (s : State) : Out :=
  .next (if s.boot.stage = 3 ∧ ok then { s with boot := { s.boot with stage := 4 } } else s)
/-- BOOT_TFTP: stage 4; a failed read returns to stage 3. -/
def execBootTftp (ok : Bool) (s : State) : Out :=
  .next (if s.boot.stage = 4 then { s with boot := { s.boot with stage := if ok then 5 else 3 } } else s)

/-- The fields of an image's header (R395). -/
def imgMagic (g : BootImage) : Nat := ufield (g.header.getD 0 0) 0 32
def imgSvn (g : BootImage) : BitVec 32 := BitVec.ofNat 32 (ufield (g.header.getD 0 0) 32 32)
def imgMinsvn (g : BootImage) : BitVec 32 := BitVec.ofNat 32 (ufield (g.header.getD 1 0) 0 32)
def imgPlen (g : BootImage) : Nat := ufield (g.header.getD 1 0) 32 32
def imgKrsa (g : BootImage) : Nat := ufield (g.header.getD 2 0) 0 2
def imgKslh (g : BootImage) : Nat := ufield (g.header.getD 2 0) 2 2
/-- What both signatures cover: header and payload. -/
def imgSigned (g : BootImage) : List Byte := (g.header.map (fun w => natBytes 8 w.toNat)).flatten ++ g.payload
/-- A header with a field out of its values, a reserved bit set, or lengths that do not agree. -/
def imgBadFormat (g : BootImage) : Bool :=
  g.header.length != 64 || (imgMagic g) != 0x434C3546 || (imgSvn g) == 0 || (imgMinsvn g) == 0 ||
  (imgSvn g).ult (imgMinsvn g) || (imgPlen g) % 64 != 0 ||
  (imgPlen g) != g.payload.length || decide (2 ≤ (imgKrsa g) ∨ 2 ≤ (imgKslh g)) || ufield (g.header.getD 2 0) 4 60 != 0 ||
  (g.header.drop 3).any (· != 0) || g.rsaSig.length != 384 || decide (g.payload.length < 536)

/-- The payload's trailer: its last 536 bytes hold the RSA modulus and exponent, the SLH-DSA key, and the hashes of both keys
(DESIGN CHOICE: R395 says what the trailer carries and gives no layout; log entry 75). -/
def imgTrailer (g : BootImage) (at_ n : Nat) : List Byte := slice g.payload (g.payload.length - 536 + at_) n
def imgRsaKey (g : BootImage) : List Byte := imgTrailer g 0 392
def imgSlhKey (g : BootImage) : List Byte := imgTrailer g 392 48
def imgRsaHash (g : BootImage) : List Byte := imgTrailer g 440 48
def imgSlhHash (g : BootImage) : List Byte := imgTrailer g 488 48
/-- A key, and the hash that the trailer carries of it, match a slot of mask ROM. -/
def keyInRom (rsa : Bool) (slot : Nat) (key hash : List Byte) : Bool :=
  hash == sha384 key && beNat hash == (Config.romHash rsa slot).toNat
/-- The signatures of an image verify. -/
def imgRsaOk (g : BootImage) : Bool := rsaPssOk (beNat ((imgRsaKey g).take 384)) (beNat ((imgRsaKey g).drop 384)) (imgSigned g) g.rsaSig
def imgSlhOk (g : BootImage) : Bool := slhDsaOk (imgSlhKey g) (imgSigned g) g.slhSig

/-- What the payload configures (R396), from the words that firmware reads from it (DESIGN CHOICE: their places are not given;
log entry 75): a bit for each logical core that is not enabled, the SKU code, the default masks, the slots revoked. -/
def payloadConfig (p : List Byte) : BootConfig :=
  let w := Config.payloadWord p
  { off := (List.range 512).filter (fun c => (w (c / 64)).getLsbD (c % 64)), sku := w 8, masks := (List.range 8).map (fun i => w (9 + i))
    revRsa := (w 17).setWidth 2, revSlh := (w 17 >>> 2).setWidth 2 }

/-- The error code of an image, bit by bit (R395): both signatures are checked even when the first fails. -/
def Boot.imageErr (b : Boot) (g : BootImage) : Nat :=
  let bit (x : Bool) (n : Nat) : Nat := if x then 2 ^ n else 0
  bit (!keyInRom true (imgKrsa g) (imgRsaKey g) (imgRsaHash g) || b.revRsa.getLsbD (imgKrsa g)) 0 + bit (!imgRsaOk g) 1 +
  bit (!keyInRom false (imgKslh g) (imgSlhKey g) (imgSlhHash g) || b.revSlh.getLsbD (imgKslh g)) 2 + bit (!imgSlhOk g) 3 +
  bit ((imgSvn g).ult b.floor) 4 + bit (imgBadFormat g) 5

/-- IMAGE_VERIFY: stage 5. -/
def execImageVerify (img : BootImage) (s : State) : Out :=
  .next (if s.boot.stage ≠ 5 then s
    else
      let e := s.boot.imageErr img
      if e = 0 then { s with boot := { s.boot with stage := 6, err := 0, svn := imgSvn img, minsvn := imgMinsvn img
                                                   config := payloadConfig img.payload } }
      else { s with boot := { s.boot with stage := 3, err := BitVec.ofNat 8 e } })

/-- What the payload and the repair map configure (R396): core enables, the SKU code (kept), partition masks, spares and
lanes, and what no spare could replace; and what that makes of HLTH (R398). -/
def State.configure (s : State) : State :=
  let b := s.boot
  let s1 : State := { s with
    online := !b.config.off.contains s.core.toNat && !b.coresGone.contains s.core.toNat
    coreOut := ((b.config.off ++ b.coresGone).filter (· != s.core.toNat)).foldl (fun m c => m.set false c true) []
    sliceOut := b.slicesGone.foldl (fun m n => m.set false n true) []
    retiredPages := b.pagesGone
    phys := (b.phys s.core.toNat).getD s.phys
    spareCores := (List.range 4).foldl (fun m d => m.set 0 d (16 - b.usedCores d)) []
    spareSlices := (List.range 4).foldl (fun m d => m.set 0 d (8 - b.usedSlices d)) []
    lanesUsed := b.repairs.foldl (fun m r => match r with | .lane k => m.set 0 k (m.get 0 k + 1) | _ => m) [] }
  ((b.config.masks.take 8).zipIdx.foldl (fun s m => s.setBar 0 (0x30000 + 8 * m.2) m.1) s1).health false false

/-- BOOT_CONFIGURE: stage 6; the configuration and the repair map are applied, firmware runs, the rollback floor rises to
MINSVN, and what the image's signed commands revoke is revoked. -/
def execBootConfigure (ok : Bool) (s : State) : Out :=
  .next (if s.boot.stage ≠ 6 then s
    else if !ok then { s with boot := { s.boot with err := 0x30 } }
    else
      let b := s.boot
      { s.configure with
        boot := { b with stage := 7, err := 0, floor := if b.floor.ult b.minsvn then b.minsvn else b.floor
                         revRsa := b.revRsa ||| b.config.revRsa, revSlh := b.revSlh ||| b.config.revSlh } })

/-- BOOTST as the host reads it. -/
def State.bootst (s : State) : Word :=
  BitVec.ofNat 64 (s.boot.stage + 256 * s.boot.err.toNat + (if s.boot.stage = 7 then 65536 * s.boot.svn.toNat else 0))

end Sys2Proof.Machine
end

