-- ==== Sys2Proof/Machine/Lanes.lean ====
section
/-! DEFINITION. Integer and bit operations, compares, predicates and lane moves (R230 to R237). -/

namespace Sys2Proof.Machine

/-- IADD (R230). -/
def execIadd (o : V2) (s : State) : Out :=
  .next (s.lane2 .ia 1 .int o (fun _ a b => satInt s.xsat i32Min i32Max 32 (a.toInt + b.toInt)))
/-- ISUB (R230). -/
def execIsub (o : V2) (s : State) : Out :=
  .next (s.lane2 .ia 1 .int o (fun _ a b => satInt s.xsat i32Min i32Max 32 (a.toInt - b.toInt)))
/-- IMIN (R230). -/
def execImin (o : V2) (s : State) : Out :=
  .next (s.lane2 .ia 1 .int o (fun _ a b => if b.slt a then b else a))
/-- IMAX (R230). -/
def execImax (o : V2) (s : State) : Out :=
  .next (s.lane2 .ia 1 .int o (fun _ a b => if a.slt b then b else a))
/-- WMIN (R230). -/
def execVWmin (o : V2) (s : State) : Out :=
  .next (s.lane2 .ia 1 .int o (fun _ a b => if b.ult a then b else a))
/-- WMAX (R230). -/
def execVWmax (o : V2) (s : State) : Out :=
  .next (s.lane2 .ia 1 .int o (fun _ a b => if a.ult b then b else a))
/-- IABS (R230). -/
def execIabs (o : V1) (s : State) : Out :=
  .next (s.lane1 .ia 1 .int o (fun _ a => satInt s.xsat i32Min i32Max 32 (a.toInt.natAbs : Int)))
/-- AND (R230). -/
def execVAnd (o : V2) (s : State) : Out := .next (s.lane2 .ia 1 .int o (fun _ a b => a &&& b))
/-- OR (R230). -/
def execVOr (o : V2) (s : State) : Out := .next (s.lane2 .ia 1 .int o (fun _ a b => a ||| b))
/-- XOR (R230). -/
def execVXor (o : V2) (s : State) : Out := .next (s.lane2 .ia 1 .int o (fun _ a b => a ^^^ b))
/-- ANDN (R230). -/
def execAndn (o : V2) (s : State) : Out := .next (s.lane2 .ia 1 .int o (fun _ a b => a &&& ~~~b))
/-- SHL (R230). -/
def execVShl (o : V2) (s : State) : Out := .next (s.lane2 .ia 1 .int o (fun _ a b => a <<< (b.toNat % 32)))
/-- SHR (R230). -/
def execVShr (o : V2) (s : State) : Out := .next (s.lane2 .ia 1 .int o (fun _ a b => a >>> (b.toNat % 32)))
/-- SRA (R230). -/
def execVSra (o : V2) (s : State) : Out := .next (s.lane2 .ia 1 .int o (fun _ a b => a.sshiftRight (b.toNat % 32)))
/-- ROL (R230). -/
def execRol (o : V2) (s : State) : Out := .next (s.lane2 .ia 1 .int o (fun _ a b => a.rotateLeft (b.toNat % 32)))
/-- IADDS: always clamps (R222, R230). -/
def execIadds (o : V2) (s : State) : Out :=
  .next (s.lane2 .ia 1 .int o (fun _ a b => satInt .ieee i32Min i32Max 32 (a.toInt + b.toInt)))
/-- ISUBS (R230). -/
def execIsubs (o : V2) (s : State) : Out :=
  .next (s.lane2 .ia 1 .int o (fun _ a b => satInt .ieee i32Min i32Max 32 (a.toInt - b.toInt)))
/-- WADDS (R230). -/
def execWadds (o : V2) (s : State) : Out :=
  .next (s.lane2 .ia 1 .int o (fun _ a b => satInt .ieee 0 w32Max 32 ((a.toNat : Int) + b.toNat)))
/-- WSUBS (R230). -/
def execWsubs (o : V2) (s : State) : Out :=
  .next (s.lane2 .ia 1 .int o (fun _ a b => satInt .ieee 0 w32Max 32 ((a.toNat : Int) - b.toNat)))
/-- IMUL (R230). -/
def execImul (o : V2) (s : State) : Out :=
  .next (s.lane2 .fm 3 .int o (fun _ a b => satInt s.xsat i32Min i32Max 32 (a.toInt * b.toInt)))
/-- IMULH (R230). -/
def execImulh (o : V2) (s : State) : Out :=
  .next (s.lane2 .fm 3 .int o (fun _ a b => BitVec.ofInt 32 ((a.toInt * b.toInt) / 4294967296)))
/-- WMULH (R230). -/
def execWmulh (o : V2) (s : State) : Out :=
  .next (s.lane2 .fm 3 .int o (fun _ a b => BitVec.ofNat 32 (a.toNat * b.toNat / 4294967296)))
/-- VDOT4 (R231). -/
def execVdot4 (unsigned : Bool) (o : V3) (s : State) : Out :=
  .next (s.lane3 .fm 3 .int o (fun _ a b c =>
    let byte (x : Lane) (i : Nat) : BitVec 8 := (x >>> (8 * i)).setWidth 8
    if unsigned then
      satInt s.xsat 0 w32Max 32 ((c.toNat + ((List.range 4).map (fun i => (byte a i).toNat * (byte b i).toNat)).sum : Nat) : Int)
    else
      satInt s.xsat i32Min i32Max 32 (c.toInt + ((List.range 4).map (fun i => (byte a i).toInt * (byte b i).toInt)).sum)))
/-- POPC (R230). -/
def execVPopc (o : V1) (s : State) : Out := .next (s.lane1 .ia 1 .int o (fun _ a => BitVec.ofNat 32 (popCount 32 a.toNat)))
/-- CLZ (R230). -/
def execVClz (o : V1) (s : State) : Out := .next (s.lane1 .ia 1 .int o (fun _ a => BitVec.ofNat 32 (leadingZeros 32 a.toNat)))
/-- SEL (R230). -/
def execSel (o : V3) (s : State) : Out := .next (s.lane3 .ia 1 .int o (fun _ a b c => if c ≠ 0 then a else b))
/-- MOV (R230). -/
def execMov (o : V1) (s : State) : Out := .next (s.lane1 .ia 1 .int o (fun _ a => a))

/-- BFX (R232). -/
def execVBfx (o : V2) (s : State) : Out :=
  .next (s.lane2 .ia 1 .int o (fun _ a b => BitVec.ofNat 32 ((a.toNat >>> (b.toNat % 32)) % 2 ^ (min (b.toNat / 256 % 64) 32))))
/-- BFI (R232). -/
def execVBfi (o : V3) (s : State) : Out :=
  .next (s.lane3 .ia 1 .int o (fun _ a b c =>
    let pos := c.toNat % 32
    let len := min (c.toNat / 256 % 64) 32
    let m : Lane := BitVec.ofNat 32 ((2 ^ len - 1) <<< pos)
    (b &&& ~~~m) ||| ((a <<< pos) &&& m)))

/-- The condition of a lane compare (R233). -/
def cmpLane (c : CmpOp) (a b : Lane) : Bool :=
  match c with
  | .eq => a == b
  | .ne => a != b
  | .ilt => a.slt b
  | .ile => a.sle b
  | .wlt => a.ult b
  | .wle => a.ule b
  | .feq => fveq (f32 a) (f32 b)
  | .flt => fvlt (f32 a) (f32 b)
  | .fle => fvlt (f32 a) (f32 b) || fveq (f32 a) (f32 b)
  | .funord => f32 a == .nan || f32 b == .nan
def CmpFloat : CmpOp → Bool
  | .feq | .flt | .fle | .funord => true
  | _ => false

/-- The lane compares (R233). -/
def execLaneCompare (c : CmpOp) (h : VHd) (d : BitVec 4) (a b : VSrc) (s : State) : Out :=
  let ty : OpTy := if CmpFloat c then .fp else .int
  let va := s.src h.cl ty a
  let vb := s.src h.cl ty b
  .next (s.vslot h (.pred d) [a, b] .ia 1 (s.guard h)
    (.plain (mkVec (fun l => maskLane (cmpLane c (lane va l) (lane vb l))))))

/-- PAND (R234). -/
def execPand (o : VPPP) (s : State) : Out := .next (s.predSlot o.h o.d (s.ctx.pred o.h.cl o.a.toNat &&& s.ctx.pred o.h.cl o.b.toNat))
/-- POR (R234). -/
def execPor (o : VPPP) (s : State) : Out := .next (s.predSlot o.h o.d (s.ctx.pred o.h.cl o.a.toNat ||| s.ctx.pred o.h.cl o.b.toNat))
/-- PXOR (R234). -/
def execPxor (o : VPPP) (s : State) : Out := .next (s.predSlot o.h o.d (s.ctx.pred o.h.cl o.a.toNat ^^^ s.ctx.pred o.h.cl o.b.toNat))
/-- PNOT (R234). -/
def execPnot (h : VHd) (d a : BitVec 4) (s : State) : Out := .next (s.predSlot h d (~~~(s.ctx.pred h.cl a.toNat)))
/-- PANY (R235). -/
def execPany (h : VHd) (d a : BitVec 4) (s : State) : Out :=
  .next (s.predSlot h d (if s.ctx.predCount a.toNat ≠ 0 then 0xFFFF else 0))
/-- PCNT (R235). -/
def execPcnt (h : VHd) (d : VDst) (a : BitVec 4) (s : State) : Out :=
  .next (s.vslot h (.vec d) [] .ia 1 (s.guard h) (.plain (splat (BitVec.ofNat 32 (s.ctx.predCount a.toNat)))))

/-- LPERM (R236). -/
def execLperm (o : V2) (s : State) : Out :=
  let a := s.src o.h.cl .int o.a
  .next (s.lane2 .xm 2 .int o (fun _ _ b => lane a (b.toNat % 16)))
/-- LBC (R236). -/
def execLbc (o : V2) (s : State) : Out :=
  let a := s.src o.h.cl .int o.a
  let k := (lane (s.src o.h.cl .int o.b) 0).toNat % 16
  .next (s.lane2 .xm 2 .int o (fun _ _ _ => lane a k))
/-- LROT (R236). -/
def execLrot (o : V2) (s : State) : Out :=
  let a := s.src o.h.cl .int o.a
  let k := (lane (s.src o.h.cl .int o.b) 0).toNat % 16
  .next (s.lane2 .xm 2 .int o (fun l _ _ => lane a ((l + k) % 16)))

/-- XMV (R237). -/
def execXmv (h : VHd) (d : VDst) (a : XSrc) (sc : BitVec 3) (s : State) : Out :=
  .next (s.crossSlot h d a sc 3 (fun v => v))
/-- XBC (R237). -/
def execXbc (h : VHd) (d : VDst) (a : XSrc) (sc : BitVec 3) (ln : BitVec 4) (s : State) : Out :=
  .next (s.crossSlot h d a sc 4 (fun v => splat (lane v ln.toNat)))

end Sys2Proof.Machine
end

