-- ==== Sys2Proof/Machine/Streams.lean ====
section
/-! DEFINITION. Stream engines: binding, unbinding, ordering, and the elements they move (R194 to R198). -/

namespace Sys2Proof.Machine

/-- The queue a stream instruction names: cluster and number, 4 and 5 for w0 and w1. -/
def streamQ : StreamQ → BitVec 3 × Nat
  | .inq cl q => (cl, q.toNat)
  | .outq cl w => (cl, 4 + w.toNat)

def Stream.id (t : Stream) : Nat := 6 * t.cl.toNat + t.q
def Stream.total (t : Stream) : Nat := t.n0 * t.n1
def Stream.input (t : Stream) : Bool := decide (t.q < 4)
/-- Offset of element `e` from the base (R194). -/
def Stream.off (t : Stream) (e : Nat) : Int := (e % t.n0 : Nat) * t.s0 + (e / t.n0 : Nat) * t.s1

/-- Every element lies inside a segment. -/
def Stream.inside (t : Stream) (size : Nat) : Bool :=
  let b : Int := t.base.toInt
  let corner (i j : Nat) : Int := b + (i : Int) * t.s0 + (j : Int) * t.s1
  [corner 0 0, corner (t.n0 - 1) 0, corner 0 (t.n1 - 1), corner (t.n0 - 1) (t.n1 - 1)].all
    (fun o => decide (0 ≤ o ∧ o + 64 ≤ 128 * size))

/-- SBIND (R195). -/
def execSbind (q : StreamQ) (b : StreamBase) (base : AReg) (ssh : BitVec 2) (s : State) : Out :=
  let w := s.rd.ssh.get 0 ssh.toNat
  let (cl, n) := streamQ q
  let t : Stream := { ctx := s.cur, cl := cl, q := n, seg := none, base := s.rd.ra base, n0 := ufield w 0 12
                      n1 := ufield w 12 12, s0 := sfield w 24 20, s1 := sfield w 44 20
                      hint := (match b with | .glob h => h | .loc _ => 0), next := 0
                      pushed := (s.queue (6 * cl.toNat + n)).length, stop := none, told := false, after := s.fresh, bun := s.ctx.an, seqNo := s.seqNo + 1 }
  fin (do
    s.live 3 [base]
    s.need (!s.rd.shPoison.get false (8 * ShapeClass.no .ssh + ssh.toNat)) 3 .poison 0
    s.need (t.n0 != 0 && t.n1 != 0 && t.s0 % 64 == 0 && t.s1 % 64 == 0) 3 .badShape 0
    match b with
    | .glob _ =>
      s.need (ufield t.base 56 8 == 0) 3 .badAddr t.base
      s.need (t.base.toNat % 64 == 0) 3 .misalign t.base
      s.need (!s.boundQ t.id) 3 .qBound 0
      pure { s.bump.nextSeq with streams := s.streams ++ [t] }
    | .loc g =>
      s.need (t.base.toNat % 64 == 0) 3 .misalign t.base
      let e ← s.own 3 g
      s.need (t.inside e.size) 3 .segBound t.base
      s.mayPin 3 [e.name]
      s.need (!s.boundQ t.id) 3 .qBound 0
      let s1 := s.spin s.cur [e.name]
      pure { s1.bump.nextSeq with streams := s1.streams ++ [{ t with seg := some e.name }] })

/-- An output stream stopped by a fault raises it once, at the next SFENCE or SUNB (R197). -/
def State.streamTrouble (s : State) (l : List Stream) : Except State Unit :=
  match l.find? (fun t => !t.input && t.stop.isSome && !t.told) with
  | none => .ok ()
  | some t =>
    let s1 := s.noteStream t
    let s2 : State := { s1 with streams := s1.streams.map (fun u => if u = t then { u with told := true } else u) }
    .error (s2.aFault 3 .streamFault (BitVec.ofNat 64 ((t.stop.map (·.1)).getD 0)))

/-- The filled entries at the head of a running output stream have been written. Filled entries behind an unfilled head are
not waited for: they cannot be written before it lands (DESIGN CHOICE: R198 does not name them; log entry 78). -/
def State.drained (s : State) (t : Stream) : Bool :=
  t.input || t.stop.isSome || decide (t.total ≤ t.next) || (match (s.queue t.id).head? with
    | some e => e.val.isNone
    | none => true)

/-- The parked access of a stream is dropped. -/
def State.unparkStream (s : State) (t : Stream) : State :=
  { s with parked := s.parked.filter (fun p => p.by_ != .stream t.ctx t.cl t.q) }

/-- SUNB (R198). -/
def execSunb (q : StreamQ) (s : State) : Out := fin (do
  s.until s.realigned .realign
  let (cl, n) := streamQ q
  s.streamTrouble (s.streams.filter (fun t => t.ctx == s.cur))
  match s.streamAt s.cur (6 * cl.toNat + n) with
  | none => pure s
  | some t =>
    s.until (s.drained t) .barrier
    let s1 := (s.unparkStream t).unbind t
    pure (if t.input then s1.dropStreamEntries t else s1))

/-- Discards what an input stream delivered and nobody popped; it fetches again from there (R198). -/
def State.rewind (s : State) (t : Stream) : State :=
  let k := (s.queue t.id).countP (fun e => e.src == .stream)
  let s1 := (s.unparkStream t).dropStreamEntries t
  { s1 with streams := s1.streams.map (fun u => if u = t then { u with next := t.next - k, after := s1.fresh } else u) }

/-- SFENCE (R198, R267, R316): for every stream of the context, and for its ZST writes. -/
def execSfence (s : State) : Out := fin (do
  s.until s.realigned .realign
  let mine := s.streams.filter (fun t => t.ctx == s.cur)
  s.streamTrouble mine
  s.until (mine.all s.drained && !s.zstores.any (fun z => z.ctx == s.cur)) .barrier
  s.until (mine.isEmpty || !s.reqs.any (fun q => q.ctx == s.cur)) .barrier
  pure ((mine.filter (·.input)).foldl (fun s t => s.rewind t) s))

/-! ### Elements (R196, R197) -/

/-- The job of the context a stream belongs to. -/
def State.streamJob (s : State) (t : Stream) : JobDesc := (s.ctxAt t.ctx).job
/-- The stream's first access follows the earlier memory-slot accesses (R195); the engines of a frozen core stand (R381). -/
def State.streamReady (s : State) (t : Stream) : Bool := !s.frozen && !s.reqs.any (fun q => q.ctx == t.ctx && decide (q.id < t.after))
/-- Changes stream number `i`. -/
def State.modStream (s : State) (i : Nat) (f : Stream → Stream) : State :=
  { s with streams := (s.streams.zipIdx).map (fun p => if p.2 = i then f p.1 else p.1) }

/-- STREAM_FETCH: input stream number `i` reserves an entry and reads its next element into it. -/
def State.streamFetch (s : State) (i : Nat) : State :=
  match s.streams[i]? with
  | none => s
  | some t =>
    let limit := match t.stop with | some (e, _) => e | none => t.total
    if !t.input || decide (limit ≤ t.next) || !s.streamReady t ||
      decide (8 ≤ ((s.ctxAt t.ctx).queue t.id).length) then s
    else
      let r := match t.seg with
        | some n => s.readSegUnit t.ctx n (t.base.toInt + t.off t.next).toNat true
        | none => s.readGlobUnit (.stream t.ctx t.cl t.q) (s.streamJob t) (t.base + BitVec.ofInt 64 (t.off t.next)) t.hint
      match r with
      | .ok (v, p) s1 =>
        let tick := s1.fresh
        let s2 := s1.reserveAt t.ctx t.id .stream t.bun
        (s2.modAt t.ctx (fun c => c.fill t.id tick v p)).modStream i (fun t => { t with next := t.next + 1 })
      | .later s1 => s1
      | .bad c s1 => (s1.modStream i (fun t => { t with stop := some (t.next, c) })).engineCheck t.ctx c
          (t.base + BitVec.ofInt 64 (t.off t.next))
def execStreamFetch (i : Nat) (s : State) : Out := .next (s.streamFetch i)

/-- STREAM_WRITE: output stream number `i` takes its head entry, filled by now, and writes it to its next element. -/
def State.streamWrite (s : State) (i : Nat) : State :=
  match s.streams[i]? with
  | none => s
  | some t =>
    match ((s.ctxAt t.ctx).queue t.id).head? with
    | some e =>
      if t.input || t.stop.isSome || decide (t.total ≤ t.next) || !s.streamReady t || (t.seg.isNone && s.cmpHeld) then s
      else match (s.ctxAt t.ctx).content t.id e with
        | none => s
        | some (v, bad) =>
          let r : UnitRes Unit := match t.seg with
            | some n =>
              let off := (t.base.toInt + t.off t.next).toNat
              s.unitSeg t.ctx n (fun _ => .ok () ((s.modSeg t.ctx n (fun x => x.write off (vecBytes v) bad)).touchSeg t.ctx n))
            | none => s.writeGlobUnit (.stream t.ctx t.cl t.q) (s.streamJob t) (t.base + BitVec.ofInt 64 (t.off t.next)) v
                bad t.hint (some ⟨t.ctx, t.seqNo, t.next⟩)
          let pop (s : State) : State := s.modAt t.ctx (fun c => c.pop t.id)
          match r with
          | .ok _ s1 => (pop s1).modStream i (fun t => { t with next := t.next + 1 })
          | .later s1 => s1
          | .bad c s1 => ((pop s1).modStream i (fun t => { t with stop := some (t.next, c) })).engineCheck t.ctx c
              (t.base + BitVec.ofInt 64 (t.off t.next))
    | none => s
def execStreamWrite (i : Nat) (s : State) : Out := .next (s.streamWrite i)

end Sys2Proof.Machine
end

