-- ==== Sys2Proof/Machine/Matrix.lean ====
section
/-! DEFINITION. The matrix unit: tile fetch, latches, accumulators and the MX slots (R250 to R267). -/

namespace Sys2Proof.Machine

/-! ### Operands (R253 to R258) -/

/-- The base of an MX operand, as A-half issue resolves it. -/
def State.mxBase (s : State) (r : ARegs) (src : MxSrc) (bo : AReg) : MxBase :=
  match src with
  | .seg g => match s.seg s.cur (r.rg g) with
    | some e => .seg (some e.name) (r.ra bo) e.born
    | none => .seg none (r.ra bo) 0
  | .glob a hint pin => .glob (r.ra a) (r.ra bo) hint pin
  | .tile h => .tile (r.ra h) (r.ra bo)

/-- The operand of an MX slot that fetches or stores: source, base register and shape register. -/
def mxOperand : Instr → Option (MxSrc × AReg × BitVec 2)
  | .mld _ src bo msh => some (src, bo, msh)
  | .mma _ _ _ src bo msh _ => some (src, bo, msh)
  | .zst _ _ src bo msh => some (src, bo, msh)
  | _ => none
def mxReads : Instr → Bool
  | .mld _ _ _ _ => true
  | .mma _ _ _ _ _ _ _ => true
  | _ => false

/-- A fetch as A-half issue resolves it (R254, R255). -/
def State.startFetch (s : State) (r : ARegs) (i : Instr) : Option Fetch :=
  (mxOperand i).map (fun (src, bo, _) => ⟨s.mxBase r src bo, false, s.fresh, [], [], false⟩)

/-- The segment that a fetch resolved to. -/
def State.mxSeg (s : State) : MxBase → Option SegEntry
  | .seg (some n) _ born => (s.seg s.cur n).filter (fun e => e.born == born)
  | _ => none
/-- The pin of a fetch from a segment, where it has none yet and one fits (R257). -/
def State.takePin (s : State) (f : Fetch) : Fetch × State :=
  match s.mxSeg f.base with
  | some e =>
    if !f.pinned && !f.floor && s.pinFate s.cur [e.name] == .fits then ({ f with pinned := true }, s.pin s.cur [e.name])
    else (f, s)
  | none => (f, s)
/-- What R163 gives the pin of a fetch that is resolved now. -/
def State.mxFate (s : State) (f : Fetch) : PinFate :=
  match s.mxSeg f.base with
  | some e => s.pinFate s.cur [e.name]
  | none => .fits
/-- An MLD or MMA takes the pin of its fetch at A-half issue, behind the bundle's other slots; one that would break the
floor is left to the X-half (R163, R257). -/
def State.pinFetch (s : State) (i : Instr) : Option Fetch → Option Fetch × State
  | none => (none, s)
  | some f =>
    if mxReads i then
      let g : Fetch := { f with floor := s.mxFate f == .floor }
      (some (s.takePin g).1, (s.takePin g).2)
    else (some f, s)
/-- Its A-half blocks at the bundle as long as R163 makes the pin wait. -/
def State.mxBlocked (s : State) (i : Instr) : Bool := mxReads i && (s.startFetch s.rd i).any (fun f => s.mxFate f == .waits)

/-- The shape register an MX slot uses, and whether it is poisoned. -/
def State.mshOf (s : State) (msh : BitVec 2) : Word × Bool :=
  (s.xrd.msh.get 0 msh.toNat, s.xrd.shPoison.get false (8 * ShapeClass.no .msh + msh.toNat))

/-- Reserved bits, and LE2 with ASTR for MLD (R253). -/
def badShape (i : Instr) (w : Word) : Bool :=
  ufield w 3 13 != 0 || ufield w 48 16 != 0 ||
  (match i with | .mld _ _ _ _ => w.getLsbD 2 && ufield w 16 16 != 0 | _ => false)

/-- 64-byte units that a slot fetches. -/
def mxUnits (i : Instr) (w : Word) : Nat :=
  match i with
  | .mld _ _ _ _ => if w.getLsbD 2 then 144 else 128
  | .mma f _ _ _ _ _ _ => if f = .e2m1b then 18 else 16
  | _ => 0

/-- Byte offset of unit `k` of an operand, from the segment's start or from a[BS] (R254, R262). -/
def mxOff (i : Instr) (r : ARegs) (w : Word) (line : Word) (k : Nat) : Int :=
  let l : Int := line.toInt
  match i with
  | .mld _ _ _ _ =>
    if w.getLsbD 2 then 128 * l + (64 * k : Nat)
    else
      let a := sfield w 16 16
      128 * (l + (k / 2 : Nat) * (if a = 0 then 1 else a)) + (64 * (k % 2) : Nat)
  | .mma _ _ _ _ _ _ ss => if 16 ≤ k ∧ ss ≠ 0 then 128 * (r.ra ss).toInt + (64 * (k - 16) : Nat) else 128 * l + (64 * k : Nat)
  | .zst bf _ _ _ _ =>
    let per : Nat := if bf then 1 else 2
    let z := sfield w 32 16
    128 * l + 64 * (k / per : Nat) * (if z = 0 then (per : Int) else z) + (64 * (k % per) : Nat)
  | _ => 0

/-- The tile shape of an operation's format (R258). -/
def mxTileOk (i : Instr) (le2 : Bool) (t : Tensor) : Bool :=
  match i with
  | .mld _ _ _ _ => t.lty == 6 && (match t.fmt with
    | .bf16 | .f16 => !le2 && t.ltx == 6
    | .e4m3 | .e5m2 | .i8 => !le2 && t.ltx == 7
    | .e2m1b => le2 && t.ltx == 8
    | _ => false)
  | .mma f _ _ _ _ _ _ => t.lty == 5 && (match f with
    | .bf16 => t.fmt == .bf16 && t.ltx == 4
    | .f16 => t.fmt == .f16 && t.ltx == 4
    | .e4m3 => t.fmt == .e4m3 && t.ltx == 5
    | .e5m2 => t.fmt == .e5m2 && t.ltx == 5
    | .i8 => t.fmt == .i8 && t.ltx == 5
    | .e2m1b => t.fmt == .e2m1b && t.ltx == 6)
  | .zst bf _ _ _ _ => t.lty == 6 && t.ltx == 5 && t.fmt == (if bf then .bf16 else .f32)
  | _ => false

/-- Units an operand touches: fetched, or stored. -/
def mxSpan (i : Instr) (w : Word) : Nat :=
  match i with
  | .zst bf _ _ _ _ => if bf then 64 else 128
  | _ => mxUnits i w

/-- Alignment of a[BS] (R254, R266). -/
def mxAlign : Instr → Nat
  | .zst _ _ _ _ _ => 64
  | _ => 128

/-- The first unit of an operand that fails a check on its offset. -/
def mxFirst (i : Instr) (r : ARegs) (w line : Word) (bad : Int → Bool) : Option Int :=
  ((List.range (mxSpan i w)).map (mxOff i r w line)).find? bad

/-- Rows 4 and 5 of R258 for an operand whose shape is sound: the cause and its detail. A segment that is gone when the
X-half issues, though its name resolved at A-half issue, raises NOSEG, whatever has been created under the name since (DESIGN
CHOICE: R34 and R254 do not say; log entry 65). -/
def State.mxFault (s : State) (i : Instr) (b : MxBase) (w : Word) : Option (Cause × Word) :=
  match b with
  | .seg _ line _ =>
    match s.mxSeg b with
    | none => some (.noSeg, 0)
    | some e => (mxFirst i s.xrd w line (fun o => decide (o < 0 ∨ 128 * e.size < o + 64))).map
        (fun o => (.segBound, BitVec.ofInt 64 o))
  | .glob va line _ _ =>
    if ufield va 56 8 != 0 then some (.badAddr, va)
    else match mxFirst i s.xrd w line (fun o => decide ((va.toNat : Int) + o < 0 ∨ 2 ^ 56 < (va.toNat : Int) + o + 64)) with
      | some o => some (.badAddr, va + BitVec.ofInt 64 o)
      | none => if va.toNat % mxAlign i != 0 then some (.misalign, va) else none
  | .tile h co => match s.tensorOf h false, s.tileOf h co false with
    | .waits _, _ => none
    | .fault c a _, _ => if c.kind = .served then none else some (c, a)
    | .ok d _, t => match t with
      | .fault .bounds _ _ => some (.bounds, h)
      | _ => if mxTileOk i (w.getLsbD 2) d then none else some (.tileFmt, h)

/-- The detail of a fault at unit `k` of an operand. -/
def State.mxAt (s : State) (i : Instr) (b : MxBase) (w : Word) (k : Nat) : Word :=
  match b with
  | .glob va line _ _ => va + BitVec.ofInt 64 (mxOff i s.xrd w line k)
  | .tile h _ => h
  | .seg _ line _ => BitVec.ofInt 64 (mxOff i s.xrd w line k)

/-- Reads unit `k` of an operand. -/
def State.mxRead (s : State) (i : Instr) (f : Fetch) (w : Word) (bun k : Nat) : UnitRes (Vec × Bool × Option Nat) :=
  let who : ParkedBy := .fetch s.cur bun
  let wrap (r : UnitRes (Vec × Bool)) : UnitRes (Vec × Bool × Option Nat) := match r with
    | .ok (v, p) t => .ok (v, p, none) t
    | .later t => .later t
    | .bad c t => .bad c t
  match f.base with
  | .seg (some n) line _ => wrap (s.readSegUnit s.cur n (mxOff i s.xrd w line k).toNat true)
  | .seg none _ _ => .bad .noSeg s
  | .glob va line hint pin =>
    let a := va + BitVec.ofInt 64 (mxOff i s.xrd w line k)
    match s.readGlobUnit who s.ctx.job a hint with
    | .ok (v, p) t =>
      if pin && k % 2 == 0 then
        match t.translate t.ctx.job.asid t.ctx.job.root a .read with
        | (.ok pa _, _) => let (held, t') := t.l2Pin pa; .ok (v, p, if held then some (pa / 128) else none) t'
        | (.fault _, _) => .ok (v, p, none) t
      else .ok (v, p, none) t
    | .later t => .later t
    | .bad c t => .bad c t
  | .tile h co => wrap (s.readTileUnit who h co k 0 s.ctx.job.ten)

/-- A fetch may read once the earlier memory-slot accesses are performed (R255). -/
def State.fetchReady (s : State) (f : Fetch) : Bool := !s.reqs.any (fun q => q.ctx == s.cur && decide (q.id < f.after))

/-- A fetch with one more unit. -/
def Fetch.with (f : Fetch) (n : Nat) (x : Vec × Bool × Option Nat) : Fetch :=
  { f with units := f.units ++ [⟨n, x.1, x.2.1⟩], held := f.held ++ x.2.2.toList }
def Fetch.has (f : Fetch) (n : Nat) : Bool := f.units.any (fun u => u.no == n)

/-- Reads the units still missing below `n`: every one that is there, past those that must be waited for, up to a fault
that is not restartable, whose unit is the number (rows 6 and 7 of R258). -/
def State.fetchUnits (s : State) (i : Instr) (w : Word) (bun : Nat) (f : Fetch) : Nat → UnitRes Unit × Fetch × Nat
  | 0 => (.ok () s, f, 0)
  | n + 1 =>
    let r := s.fetchUnits i w bun f n
    let go (s1 : State) (all : Bool) : UnitRes Unit × Fetch × Nat :=
      let f1 := r.2.1
      let done (t : State) (f : Fetch) : UnitRes Unit × Fetch × Nat := (if all then .ok () t else .later t, f, 0)
      if f1.has n then done s1 f1
      else match s1.mxRead i f1 w bun n with
        | .ok x s2 => done s2 (f1.with n x)
        | .later s2 => (.later s2, f1, 0)
        | .bad c s2 => (.bad c s2, f1, n)
    match r.1 with
    | .ok _ s1 => go s1 true
    | .later s1 => go s1 false
    | .bad _ _ => r

/-- Puts a fetch back into the lag entry of a bundle. -/
def State.putFetch (s : State) (bun : Nat) (f : Fetch) : State :=
  s.modCtx (fun c => { c with lag := c.lag.map (fun e => if e.bun = bun then { e with fetch := some f } else e) })

/-- Reads the first of some units that is there; a fault is left to the X-half. The lowest one missing comes first (DESIGN
CHOICE: R255 gives the units no order; log entry 8). -/
def State.readAny (s : State) (i : Instr) (f : Fetch) (w : Word) (bun : Nat) : List Nat → Fetch × State
  | [] => (f, s)
  | n :: r => match s.mxRead i f w bun n with
    | .ok x s1 => (f.with n x, s1)
    | .later s1 => s1.readAny i f w bun r
    | .bad _ _ => (f, s)

/-- The pin of a fetch ends when its lines are read (R257). -/
def State.fetched (s : State) (f : Fetch) (n : Nat) : Fetch × State :=
  if n ≤ f.units.length then ({ f with pinned := false }, s.unpin s.cur f.names) else (f, s)

/-- TILE_FETCH: the fetch of the lag entry numbered `i` reads its next unit (R255), under its pin. -/
def State.tileFetch (s : State) (i : Nat) : State :=
  match s.ctx.lag[i]? with
  | none => s
  | some e => match e.fetch with
    | none => s
    | some f =>
      let r := if e.hdr.swm then e.snap.swap .msh else e.snap
      let s0 := s.modCtx (fun c => { c with xview := some r })
      let msh := match mxOperand e.mx with | some (_, _, m) => m | none => 0
      let w := r.msh.get 0 msh.toNat
      let n := mxUnits e.mx w
      if !mxReads e.mx || !s.fetchReady f || badShape e.mx w || (s0.mxFault e.mx f.base w).isSome ||
        decide (n ≤ f.units.length) then s
      else
        let (f1, s1) := s0.takePin f
        let noPin := match f1.base with | .seg (some _) _ _ => !f1.pinned | _ => false
        if noPin then s
        else
          let (f2, s2) := s1.readAny e.mx f1 w e.bun ((List.range n).filter (fun k => !f1.has k))
          let (f3, s3) := s2.fetched f2 n
          (s3.putFetch e.bun f3).modCtx (fun c => { c with xview := s.ctx.xview })
def execTileFetch (i : Nat) (s : State) : Out := .next (s.tileFetch i)

/-- The fetch of the MX slot being issued: the one its A-half started, or a new one. -/
def State.curFetch (s : State) (src : MxSrc) (bo : AReg) : Fetch :=
  match s.ctx.lag.head?.bind (·.fetch) with
  | some f => f
  | none => ⟨s.mxBase s.xrd src bo, false, 0, [], [], false⟩

/-- A trap of the MX slot. -/
def State.mxTrap (s : State) (c : Cause) (detail : Word) : State := s.xFault 0 c detail
def State.mxNeed (s : State) (ok : Bool) (c : Cause) (detail : Word) : Except State Unit :=
  if ok then .ok () else .error (s.mxTrap c detail)

/-- The pin of a segment operand must fit at X-half issue (R163, R257). -/
def State.mxFits (s : State) (b : MxBase) : Except State Unit :=
  match b with
  | .seg (some n) _ _ => match s.pinFate s.cur [n] with
      | .fits => .ok ()
      | .waits => .error (s.wait .barrier)
      | .floor => .error (s.mxTrap .floor 0)
  | _ => .ok ()
/-- The pin of a fetch of `n` units at X-half issue: held, taken now, or no longer needed (R257). -/
def State.mxPin (s : State) (f : Fetch) (n : Nat) : Except State (Fetch × State) :=
  if f.pinned || decide (n ≤ f.units.length) then .ok (f, s)
  else if f.floor then .error (s.mxTrap .floor 0)
  else do
    s.mxFits f.base
    pure (s.takePin f)

/-- What a wait on an operand is: a block for a segment, a stall for data (R255). -/
def mxWait (b : MxBase) : WaitFor := match b with | .seg _ _ _ => .segment | _ => .engine

/-- Poisoned scalars that an MX slot captured are consumed. -/
def State.mxLive (s : State) (l : List AReg) : Except State Unit :=
  s.mxNeed (!l.any (fun a => s.xrd.aPoison.get false a.toNat)) .poison 0

/-- Rows 2 to 8 of R258 for a slot that fetches: its units, all there, and the state. -/
def State.mxFetch (s : State) (i : Instr) (ml : BitVec 3) (src : MxSrc) (bo : AReg) (msh : BitVec 2) :
    Except State (List FetchUnit × State) := do
  let f := s.curFetch src bo
  let (w, wp) := s.mshOf msh
  let bun := s.ctx.xn
  s.mxNeed (!wp) .poison 0
  s.mxNeed (decide (ml.toNat < s.ctx.mcnt)) .mRange 0
  s.mxNeed (!badShape i w) .badShape 0
  -- a fetch whose lines have all been read has met these checks (R254, R257)
  match (if mxUnits i w ≤ f.units.length then none else s.mxFault i f.base w) with
  | some (c, d) => .error (s.mxTrap c d)
  | none =>
    let (f, s) ← s.mxPin f (mxUnits i w)
    (s.putFetch bun f).until (s.fetchReady f) .engine
    match s.fetchUnits i w bun f (mxUnits i w) with
    | (.ok _ s1, f1, _) => .ok (f1.units, s1.endFetch s.cur f1)
    | (.later s1, f1, _) => .error ((s1.putFetch bun f1).wait (mxWait f.base))
    | (.bad c s1, f1, k) => .error ((s1.putFetch bun f1).mxTrap c (s.mxAt i f.base w k))

/-- Unit `k` of a fetch. -/
def unitOf (l : List FetchUnit) (k : Nat) : Vec :=
  match l.find? (fun u => u.no == k) with
  | some u => u.val
  | none => 0
/-- Line `k` of a fetch. -/
def lineOf (l : List FetchUnit) (k : Nat) : Line :=
  BitVec.ofNat 1024 ((unitOf l (2 * k)).toNat + (unitOf l (2 * k + 1)).toNat * 2 ^ 512)

/-! ### MLD (R262) -/

/-- Writes a stationary latch from its lines. -/
def State.loadLatch (s : State) (phys : Nat) (le2 : Bool) (l : List FetchUnit) : State :=
  let row (i : Nat) : Line := lineOf l (if le2 then 9 * (i / 8) + i % 8 else i)
  let s1 : State := { s with
    m := (List.range 64).foldl (fun m i => m.set 0 (64 * phys + i) (row i)) s.m
    mPoison := (List.range 64).foldl (fun m i => m.set false (64 * phys + i) false) s.mPoison }
  if le2 then
    { s1 with mscale := (List.range 512).foldl (fun m b =>
        m.set 0 (512 * phys + b) (BitVec.ofNat 16 ((lineOf l (9 * (b / 64) + 8)).toNat / 65536 ^ (b % 64)))) s1.mscale }
  else s1

/-- MLD. -/
def execMld (ml : BitVec 3) (src : MxSrc) (bo : AReg) (msh : BitVec 2) (s : State) : Out := fin (do
  s.mxLive (bo :: src.areads)
  let (l, s1) ← s.mxFetch (.mld ml src bo msh) ml src bo msh
  s1.mxNeed (!l.any (·.poison)) .poison 0
  pure (s1.loadLatch (s1.ctx.mbase + ml.toNat) ((s.mshOf msh).1.getLsbD 2) l))

/-! ### Accumulators (R259, R261) -/

def zKey (z : BitVec 1) (i j : Nat) : Nat := 2048 * z.toNat + 32 * i + j

/-- Notes that a write of zN at this bundle is visible 24 bundles on. -/
def Ctx.zNote (c : Ctx) (z : BitVec 1) : Ctx :=
  { c with zhist := pendingZ c.xn c.zhist ++ [⟨c.xn + 24, z, c.z⟩] }

/-- The accumulator as a ZRD or ZST of this bundle sees it: as the last write that is visible has left it (DEDUCED from
R259, which applies the writes in the order of their issue; log entry 83). -/
def Ctx.zView (c : Ctx) (z : BitVec 1) : Store Lane :=
  match (pendingZ (c.xn + 1) c.zhist).find? (fun h => h.z == z) with
  | some h => h.before
  | none => c.z

/-- A 64-byte unit of zN is poisoned (R378). -/
def Ctx.zStruck (c : Ctx) (z : BitVec 1) (unit : Nat) : Bool := c.zPoison.get false (128 * z.toNat + unit)
/-- Some units of zN, read as an operand of the array or of ZRD, are not poisoned (DEDUCED from R380: an accumulator is
an MX-slot source there; log entry 73). -/
def State.zLive (s : State) (z : BitVec 1) (units : List Nat) : Except State Unit :=
  s.mxNeed (!units.any (s.ctx.zStruck z)) .poison 0

/-- ZCLR (R263). -/
def execZclr (z : BitVec 1) (s : State) : Out :=
  .next (s.modCtx (fun c => { c.zNote z with
    z := c.z.filter (fun p => p.1 / 2048 != z.toNat), zPoison := c.zPoison.filter (fun p => p.1 / 128 != z.toNat) }))

/-! ### MMA (R250 to R252, R264) -/

def mmaK : MmaFmt → Nat
  | .bf16 | .f16 => 16
  | .e4m3 | .e5m2 | .i8 => 32
  | .e2m1b => 64

/-- Element k of a 32-byte quarter, with its block headers. -/
def mmaElem (f : MmaFmt) (q : Nat) (hdr : Nat → Nat) (k : Nat) : FVal :=
  match f with
  | .bf16 => bf16.decode (q / 65536 ^ k % 65536)
  | .f16 => fp16.decode (q / 65536 ^ k % 65536)
  | .e4m3 => e4m3.decode (q / 256 ^ k % 256)
  | .e5m2 => e5m2.decode (q / 256 ^ k % 256)
  | .i8 => let i := (BitVec.ofNat 8 (q / 256 ^ k)).toInt; .fin (decide (i < 0)) i.natAbs 0
  | .e2m1b => dequant (q / 16 ^ k % 16) (hdr (k / 32))

/-- The exact sum of a K-step: a dyadic number, and whether every term so far is −0; an infinity; or NaN. -/
inductive KSum where
  | num (i : Int) (e : Int) (nz : Bool)
  | inf (neg : Bool)
  | nan
  deriving DecidableEq, Repr

/-- Adds one product (R264). -/
def KSum.add (a : KSum) (x : FVal) : KSum :=
  match a, x with
  | .nan, _ => .nan
  | _, .nan => .nan
  | .inf n, .inf m => if n = m then .inf n else .nan
  | .inf n, .fin _ _ _ => .inf n
  | .num _ _ _, .inf n => .inf n
  | .num i e nz, .fin n m f => if m = 0 then .num i e (nz && n) else
    let (j, g) := addDyadic i e (signedDyadic n m) f
    .num j g false

/-- z + s, rounded once to nearest even. A zero result is −0 where z and every product are −0, and +0 otherwise (R264;
log entry 22). -/
def KSum.into (s : KSum) (z : Lane) : Lane :=
  match s, f32 z with
  | .nan, _ => 0x7FC00000
  | _, .nan => 0x7FC00000
  | .inf n, .inf m => if n = m then z else 0x7FC00000
  | .inf n, .fin _ _ _ => if n then 0xFF800000 else 0x7F800000
  | .num _ _ _, .inf _ => z
  | .num i e nz, .fin n m f =>
    let (j, g) := addDyadic i e (signedDyadic n m) f
    toF32 Prefix.default 0 (XVal.ofDyadic (n && nz && m == 0) j g)

/-- One element of the array after a K-step. -/
def mmaCell (a b : List FVal) (z : Lane) : Lane :=
  ((a.zip b).foldl (fun (s : KSum) (p : FVal × FVal) => s.add (fvmul p.1 p.2)) (.num 0 0 true)).into z

/-- The A operand: quarter `q` of each row of a latch. -/
def State.mmaA (s : State) (f : MmaFmt) (phys q i : Nat) : List FVal :=
  let row := (s.m.get 0 (64 * phys + i)).toNat / 2 ^ (256 * q) % 2 ^ 256
  (List.range (mmaK f)).map (mmaElem f row (fun b => (s.mscale.get 0 (512 * phys + 8 * i + 2 * q + b)).toNat))
/-- The B operand: row j of the tile. -/
def mmaB (f : MmaFmt) (l : List FetchUnit) (j : Nat) : List FVal :=
  let row := (unitOf l (j / 2)).toNat / 2 ^ (256 * (j % 2)) % 2 ^ 256
  (List.range (mmaK f)).map (mmaElem f row (fun b => (lineOf l 8).toNat / 65536 ^ (2 * j + b) % 65536))

/-- What the array adds to: the sums of MMA.i8 are integers and have no −0. -/
def mmaIn (f : MmaFmt) (z : Lane) : Lane := if f = .i8 ∧ z = 0x80000000 then 0 else z
/-- An accumulator after a K-step. -/
def State.mmaZ (s : State) (f : MmaFmt) (z : BitVec 1) (phys q : Nat) (l : List FetchUnit) : Store Lane :=
  let bs := (List.range 32).map (mmaB f l)
  (List.range 64).foldl (fun acc i =>
    let a := s.mmaA f phys q i
    ((bs.zipIdx).foldl (fun (acc : Store Lane) p =>
      acc.set 0 (zKey z i p.2) (mmaCell a p.1 (mmaIn f (s.ctx.z.get 0 (zKey z i p.2))))) acc)) s.ctx.z

/-- MMA: waits for the array to accept the last one (R260). -/
def execMma (f : MmaFmt) (z : BitVec 1) (ml : BitVec 3) (src : MxSrc) (bo : AReg) (msh : BitVec 2) (ss : AReg) (s : State) :
    Out := fin (do
  s.mxLive (bo :: ss :: src.areads)
  let phys := s.ctx.mbase + ml.toNat
  -- poison held in the array outranks the slot's traps (R366)
  s.mxNeed (!(decide (ml.toNat < s.ctx.mcnt) && (List.range 64).any (fun i => s.mPoison.get false (64 * phys + i)))) .poison 0
  s.zLive z (List.range 128)
  let (l, s1) ← s.mxFetch (.mma f z ml src bo msh ss) ml src bo msh
  s1.mxNeed (!l.any (·.poison)) .poison 0
  s.until (!s.arrayBusy) .engine
  let q := ufield (s.mshOf msh).1 0 2
  let zs := s1.mmaZ f z phys q l
  pure { s1.modCtx (fun c => { c.zNote z with z := zs }) with arrayBusy := true })

/-- ARRAY_ACCEPT (R260): the array is ready for the next MMA. -/
def execArrayAccept (s : State) : Out := .next { s with arrayBusy := false }

/-! ### ZRD (R265) -/

/-- A pair of accumulator elements rounded to BF16 (R265). -/
def State.zBf16 (s : State) (v : Store Lane) (z : BitVec 1) (i j : Nat) : Nat :=
  bf16.encode s.xp (s.draw (4096 + 32 * i + j)) (f32 (v.get 0 (zKey z i j))).toX

/-- What a ZRD pushes into cluster `c`. -/
def State.zrdEntry (s : State) (bf : Bool) (z : BitVec 1) (slab : Word) (c : Nat) : Vec :=
  let v := s.ctx.zView z
  if bf then
    let i := 8 * (slab.toNat % 8) + c
    mkVec (fun l => BitVec.ofNat 32 (s.zBf16 v z i (2 * l) + 65536 * s.zBf16 v z i (2 * l + 1)))
  else mkVec (fun l => v.get 0 (zKey z (4 * (slab.toNat % 16) + c / 2) (16 * (c % 2) + l)))

/-- The units of an accumulator that a ZRD reads: 16 FP32 elements for each cluster, or 32 rounded to BF16. -/
def zrdUnits (bf : Bool) (slab : Word) : List Nat :=
  if bf then (List.range 16).map (fun i => 16 * (slab.toNat % 8) + i) else (List.range 8).map (fun i => 8 * (slab.toNat % 16) + i)

/-- The A-half part: entries reserved in q3 of all clusters (R190, R265). -/
def State.zrdReserve (s : State) : Except State (List Nat × State) := do
  let ids := (List.range 8).map (fun c => 6 * c + 3)
  s.need (!ids.any s.boundQ) 5 .qBound 0
  s.ready 5 (Ready.all (ids.map s.aRoom))
  pure (ids.foldl (fun (l, s) id => (l ++ [s.fresh], s.reserve id .zrd s.ctx.an)) ([], s))

/-- ZRD: the reserved entries are filled. -/
def execZrd (bf : Bool) (z : BitVec 1) (bo : AReg) (s : State) : Out := fin (do
  s.mxLive [bo]
  let ticks := (s.ctx.lag.head?.map (·.zrd)).getD []
  let slab := s.xrd.ra bo
  s.zLive z (zrdUnits bf slab)
  pure ((ticks.zipIdx).foldl (fun (t : State) (p : Nat × Nat) =>
    t.modCtx (fun c => c.fill (6 * p.2 + 3) p.1 (s.zrdEntry bf z slab p.2) false)) s))

/-! ### ZST (R266, R267) -/

/-- Unit `k` of the rows a ZST writes. -/
def State.zstUnit (s : State) (bf : Bool) (z : BitVec 1) (k : Nat) : Vec :=
  let v := s.ctx.zView z
  if bf then mkVec (fun l => BitVec.ofNat 32 (s.zBf16 v z k (2 * l) + 65536 * s.zBf16 v z k (2 * l + 1)))
  else mkVec (fun l => v.get 0 (zKey z (k / 2) (16 * (k % 2) + l)))

/-- It carries the poison of what it is made from (R379). -/
def State.zstPoisoned (s : State) (bf : Bool) (z : BitVec 1) (k : Nat) : Bool :=
  if bf then s.ctx.zStruck z (2 * k) || s.ctx.zStruck z (2 * k + 1) else s.ctx.zStruck z k

/-- Where the units of a ZST go, and whether on a UN page, once every page has translated; a later page that faults for
good decides before one that is parked (rows 6 and 7 of R258). -/
def State.zstPlaces (s : State) (i : Instr) (b : MxBase) (w : Word) : Nat → UnitRes (List (Nat × Bool))
  | 0 => .ok [] s
  | n + 1 =>
    let place (s1 : State) (l : List (Nat × Bool)) : UnitRes (List (Nat × Bool)) :=
      let who : ParkedBy := .fetch s.cur s.ctx.xn
      match b with
      | .seg (some _) line _ => .ok (l ++ [((mxOff i s.xrd w line n).toNat, false)]) s1
      | .seg none _ _ => .bad .noSeg s1
      | .glob va line _ _ =>
        let a := va + BitVec.ofInt 64 (mxOff i s.xrd w line n)
        match s1.pageOf who s.ctx.job a .write with
        | .ok (pa, t) s2 => .ok (l ++ [(pa, t.kind == 2)]) s2
        | .later s2 => .later s2
        | .bad c s2 => .bad c s2
      | .tile h co => match s1.tileUnit who h co n .tensorWrite with
        | .ok (pa, _) s2 => .ok (l ++ [(pa, false)]) s2
        | .later s2 => .later s2
        | .bad c s2 => .bad c s2
    match s.zstPlaces i b w n with
    | .ok l s1 => place s1 l
    | .later s1 => match place s1 [] with
      | .bad c s2 => .bad c s2
      | .ok _ s2 => .later s2
      | .later s2 => .later s2
    | .bad c s1 => .bad c s1

/-- The address at which a ZST meets a fault of its pages. -/
def State.zstBad (s : State) (i : Instr) (b : MxBase) (w : Word) (c : Cause) : List Nat → Word
  | [] => 0
  | k :: r => match b with
    | .glob _ _ _ _ => match s.translate s.ctx.job.asid s.ctx.job.root (s.mxAt i b w k) .write with
      | (.fault d, _) => if d = c then s.mxAt i b w k else s.zstBad i b w c r
      | (.ok _ _, _) => s.zstBad i b w c r
    | _ => s.mxAt i b w k

/-- ZST: once its destination has translated the X-half moves on and the writes proceed. -/
def execZst (bf : Bool) (z : BitVec 1) (src : MxSrc) (bo : AReg) (msh : BitVec 2) (s : State) : Out := fin (do
  let i : Instr := .zst bf z src bo msh
  s.mxLive (bo :: src.areads)
  let f := s.curFetch src bo
  let (w, wp) := s.mshOf msh
  s.mxNeed (!wp) .poison 0
  s.mxNeed (!badShape i w) .badShape 0
  match s.mxFault i f.base w with
  | some (c, d) => .error (s.mxTrap c d)
  | none =>
    s.mxFits f.base
    match f.base with
    | .seg (some n) _ _ => match s.seg s.cur n with
      | some e => if e.here then pure () else .error ((s.requestRecall s.cur [n]).wait .segment)
      | none => pure ()
    | _ => pure ()
    match s.zstPlaces i f.base w (mxSpan i w) with
    | .later s1 => .error (s1.wait .engine)
    | .bad c s1 => .error (s1.mxTrap c (s.zstBad i f.base w c (List.range (mxSpan i w))))
    | .ok l s1 =>
      let seg : Option (BitVec 16) := match f.base with | .seg n _ _ => n | _ => none
      let hint : BitVec 2 := match f.base with | .glob _ _ h _ => h | _ => 0
      let tens : Option Nat := match f.base with | .tile h _ => some (ufield h 0 12) | _ => none
      let st : ZStore := { id := s1.fresh, ctx := s.cur, seg := seg, hint := hint, ten := s.ctx.job.ten
                           tens := tens, seqNo := s1.seqNo + 1, unit := 0
                           un := (l.filter (·.2)).map (·.1)
                           units := (l.zipIdx).map (fun p => (p.1.1, s.zstUnit bf z p.2))
                           poison := ((l.zipIdx).filter (fun p => s.zstPoisoned bf z p.2)).map (·.1.1) }
      let s2 := (s1.bump.nextSeq).pin s.cur seg.toList
      pure { s2 with zstores := s2.zstores ++ [st] })

/-- ZST_WRITE_PERFORMED: the ZST numbered `i` performs its next write; its pin ends with the last. -/
def execZstWritePerformed (i : Nat) (s : State) : Out :=
  .next (match s.zstores[i]? with
    | none => s
    | some z => match z.units with
      | [] => ({ s with zstores := s.zstores.eraseIdx i }).unpin z.ctx z.seg.toList
      | (a, v) :: r =>
        if z.seg.isNone && s.cmpHeld then s else
        let s1 := match z.seg with
          | some n => (s.modSeg z.ctx n (fun e => e.write a (vecBytes v) (z.poison.contains a))).touchSeg z.ctx n
          | none => (s.physWrite a (vecBytes v) (z.poison.contains a) z.hint z.ten (z.un.contains a)).feed ⟨z.ctx, z.seqNo, z.unit⟩ a 64 v
        match r with
        | [] => ({ s1 with zstores := s1.zstores.eraseIdx i }).unpin z.ctx z.seg.toList
        | _ => { s1 with zstores := s1.zstores.set i { z with units := r, unit := z.unit + 1 } })

end Sys2Proof.Machine
end

