-- ==== Sys2Proof/Machine/RatOps.lean ====
section
/-! DEFINITION. The rational slots (R268 to R280). -/

namespace Sys2Proof.Machine

/-- A rational slot over words: the result of word i, and whether its divisor was non-invertible or its
decode failed. -/
def State.wordSlot (s : State) (h : VHd) (d : VDst) (l : List VSrc) (lat : Nat) (r : Nat → Word) (bad : Nat → Bool)
    (decode : Bool) : State :=
  let g := s.guard h
  let hit := (List.range 8).find? (fun i => active g i && bad i)
  let masked := s.ctx.qctl.getLsbD 0
  s.vslot h (.vec d) l .sf lat (pairGuard g)
    ⟨mkWords r, !decode && hit.isSome, decode && hit.isSome, if decode || masked then none else hit⟩

def never (_ : Nat) : Bool := false

/-- Two word operands. -/
def State.word2 (s : State) (o : V2) (lat : Nat) (f : Nat → Word → Word → Word) : State :=
  let a := s.src o.h.cl .word o.a
  let b := s.src o.h.cl .word o.b
  s.wordSlot o.h o.d [o.a, o.b] lat (fun i => f s.xPrime (word64 a i) (word64 b i)) never false

/-- QADD (R272). -/
def execQadd (o : V2) (s : State) : Out := .next (s.word2 o 2 qaddWord)
/-- QSUB (R272). -/
def execQsub (o : V2) (s : State) : Out := .next (s.word2 o 2 qsubWord)
/-- QNEG (R272). -/
def execQneg (o : V1) (s : State) : Out :=
  let a := s.src o.h.cl .word o.a
  .next (s.wordSlot o.h o.d [o.a] 2 (fun i => qnegWord s.xPrime (word64 a i)) never false)
/-- QMUL (R273). -/
def execQmul (o : V2) (s : State) : Out := .next (s.word2 o 5 qmulWord)
/-- QDIV (R274). -/
def execQdiv (o : V2) (s : State) : Out :=
  let a := s.src o.h.cl .word o.a
  let b := s.src o.h.cl .word o.b
  let r (i : Nat) := qdivWord s.xPrime (word64 a i) (word64 b i)
  .next (s.wordSlot o.h o.d [o.a, o.b] 12 (fun i => (r i).1) (fun i => (r i).2) false)
/-- QINV (R274). -/
def execQinv (o : V1) (s : State) : Out :=
  let a := s.src o.h.cl .word o.a
  let r (i : Nat) := qdivWord s.xPrime (qword s.xPrime 1) (word64 a i)
  .next (s.wordSlot o.h o.d [o.a] 12 (fun i => (r i).1) (fun i => (r i).2) false)
/-- QENC (R275). -/
def execQenc (isF32 : Bool) (o : V2) (s : State) : Out :=
  let a := s.src o.h.cl (if isF32 then .fp else .int) o.a
  let b := s.src o.h.cl .int o.b
  let r (i : Nat) : Word × Bool :=
    if isF32 then (qencFloat s.xPrime (f32 (lane a (2 * i))), false)
    else qencInt s.xPrime (lane a (2 * i)).toInt (lane b (2 * i)).toInt
  .next (s.wordSlot o.h o.d (if isF32 then [o.a] else [o.a, o.b]) 14 (fun i => (r i).1) (fun i => (r i).2) false)
/-- QCMPEQ (R276). -/
def execQcmpeq (h : VHd) (d : BitVec 4) (a b : VSrc) (s : State) : Out :=
  let va := s.src h.cl .word a
  let vb := s.src h.cl .word b
  let t (i : Nat) : Bool := !nonvalue s.xPrime (word64 va i) && !nonvalue s.xPrime (word64 vb i) && word64 va i == word64 vb i
  .next (s.vslot h (.pred d) [a, b] .sf 2 (pairGuard (s.guard h)) (.plain (mkVec (fun l => maskLane (t (l / 2))))))
/-- QDIG (R277). -/
def execQdig (o : V1) (sd : BitVec 2) (s : State) : Out :=
  let a := s.src o.h.cl .word o.a
  .next (s.wordSlot o.h o.d [o.a] 2 (fun i => BitVec.ofNat 64 (qdigit (word64 a i) sd.toNat)) never false)
/-- QSETD (R277). -/
def execQsetd (o : V2) (sd : BitVec 2) (s : State) : Out :=
  let a := s.src o.h.cl .word o.a
  let b := s.src o.h.cl .int o.b
  let r (i : Nat) : Word :=
    let k := 16 * sd.toNat
    (word64 a i &&& ~~~((0xFFFF : Word) <<< k)) ||| (((lane b (2 * i)).setWidth 64 &&& 0xFFFF) <<< k)
  .next (s.wordSlot o.h o.d [o.a, o.b] 2 r never false)
/-- QDEC (R278). -/
def execQdec (den : Bool) (o : V1) (s : State) : Out :=
  let a := s.src o.h.cl .word o.a
  let r (i : Nat) : Word := match qdecode s.xPrime (word64 a i) with
    | some (n, d) => if den then BitVec.ofNat 64 d else BitVec.ofInt 64 n
    | none => 0
  .next (s.wordSlot o.h o.d [o.a] 40 r (fun i => (qdecode s.xPrime (word64 a i)).isNone) true)
/-- QCVT (R279). -/
def execQcvt (o : V1) (s : State) : Out :=
  let a := s.src o.h.cl .word o.a
  let r (i : Nat) : Word := match qdecode s.xPrime (word64 a i) with
    | some (n, d) => (toF32 s.xp (s.laneDraw o.h (2 * i)) (ratX n d)).setWidth 64
    | none => 0x7FC00000
  .next (s.wordSlot o.h o.d [o.a] 54 r (fun i => (qdecode s.xPrime (word64 a i)).isNone) true)

end Sys2Proof.Machine
end

