-- ==== Sys2Proof/Machine/Slots.lean ====
section
/-! DEFINITION. What the slots of a bundle do: the meaning of each slot instruction, as a half issue runs it. An event
is no slot instruction and does nothing there. -/

namespace Sys2Proof.Machine

/-- The meaning of a slot of the bundle being issued. -/
def slotExec (i : Instr) (s : State) : Out :=
  match i with
  | .aHalfIssue => .next s
  | .xHalfIssue => .next s
  | .resultLanding => .next s
  | .yield => .next s
  | .contextSwitch => .next s
  | .quantumExpiry => .next s
  | .bundleExpansion => .next s
  | .quireFetch _ => .next s
  | .nop => execNop s
  | .bra x1 => execBra x1 s
  | .brf x1 x2 x3 => execBrf x1 x2 x3 s
  | .brq x1 x2 => execBrq x1 x2 s
  | .brp x1 x2 x3 => execBrp x1 x2 x3 s
  | .jmpr x1 x2 x3 x4 => execJmpr x1 x2 x3 x4 s
  | .call x1 x2 => execCall x1 x2 s
  | .ret x1 x2 x3 => execRet x1 x2 x3 s
  | .loop x1 x2 x3 => execLoop x1 x2 x3 s
  | .lend x1 x2 => execLend x1 x2 s
  | .jtab x1 x2 x3 x4 => execJtab x1 x2 x3 x4 s
  | .trap x1 x2 x3 => execTrap x1 x2 x3 s
  | .trapSet x1 x2 x3 => execTrapSet x1 x2 x3 s
  | .trapClr => execTrapClr s
  | .retire => execRetire s
  | .trig => execTrig s
  | .wvis => execWvis s
  | .eret => execEret s
  | .eretGo x1 => execEretGo x1 s
  | .bara x1 x2 x3 => execBara x1 x2 x3 s
  | .barw x1 x2 x3 => execBarw x1 x2 x3 s
  | .grow x1 => execGrow x1 s
  | .add x1 => execAdd x1 s
  | .sub x1 => execSub x1 s
  | .and x1 => execAnd x1 s
  | .or x1 => execOr x1 s
  | .xor x1 => execXor x1 s
  | .shl x1 => execShl x1 s
  | .shr x1 => execShr x1 s
  | .sra x1 => execSra x1 s
  | .mul x1 => execMul x1 s
  | .mulh x1 => execMulh x1 s
  | .mulhw x1 => execMulhw x1 s
  | .min x1 => execMin x1 s
  | .max x1 => execMax x1 s
  | .wmin x1 => execWmin x1 s
  | .wmax x1 => execWmax x1 s
  | .addi x1 => execAddi x1 s
  | .andi x1 => execAndi x1 s
  | .ori x1 => execOri x1 s
  | .xori x1 => execXori x1 s
  | .shli x1 => execShli x1 s
  | .shri x1 => execShri x1 s
  | .srai x1 => execSrai x1 s
  | .li x1 x2 x3 => execLi x1 x2 x3 s
  | .lih x1 => execLih x1 s
  | .lea x1 x2 x3 => execLea x1 x2 x3 s
  | .cmpeq x1 => execCmpeq x1 s
  | .cmplt x1 => execCmplt x1 s
  | .cmpltw x1 => execCmpltw x1 s
  | .cmpeqi x1 => execCmpeqi x1 s
  | .cmplti x1 => execCmplti x1 s
  | .selk x1 x2 => execSelk x1 x2 s
  | .kand x1 => execKand x1 s
  | .kor x1 => execKor x1 s
  | .kxor x1 => execKxor x1 s
  | .knot x1 x2 x3 => execKnot x1 x2 x3 s
  | .bfx x1 x2 x3 => execBfx x1 x2 x3 s
  | .bfi x1 x2 x3 => execBfi x1 x2 x3 s
  | .clz x1 => execClz x1 s
  | .ctz x1 => execCtz x1 s
  | .popc x1 => execPopc x1 s
  | .mfsr x1 x2 x3 => execMfsr x1 x2 x3 s
  | .mtsr x1 x2 x3 => execMtsr x1 x2 x3 s
  | .getg x1 x2 x3 => execGetg x1 x2 x3 s
  | .setg x1 x2 x3 => execSetg x1 x2 x3 s
  | .popsq x1 x2 => execPopsq x1 x2 s
  | .popbq x1 x2 => execPopbq x1 x2 s
  | .lda x1 x2 x3 => execLda x1 x2 x3 s
  | .ldaLocal x1 x2 x3 => execLdaLocal x1 x2 x3 s
  | .sta x1 x2 x3 => execSta x1 x2 x3 s
  | .staLocal x1 x2 x3 => execStaLocal x1 x2 x3 s
  | .ldq x1 x2 => execLdq x1 x2 s
  | .ldqLocal x1 x2 => execLdqLocal x1 x2 s
  | .ldqx x1 x2 => execLdqx x1 x2 s
  | .ldqxLocal x1 x2 => execLdqxLocal x1 x2 s
  | .stq x1 x2 => execStq x1 x2 s
  | .stqLocal x1 x2 => execStqLocal x1 x2 s
  | .loadDataArrival _ => .next s
  | .storePerformed _ => .next s
  | .atomAdd x1 x2 => execAtomAdd x1 x2 s
  | .atomMin x1 x2 => execAtomMin x1 x2 s
  | .atomMax x1 x2 => execAtomMax x1 x2 s
  | .atomWmin x1 x2 => execAtomWmin x1 x2 s
  | .atomWmax x1 x2 => execAtomWmax x1 x2 s
  | .atomAnd x1 x2 => execAtomAnd x1 x2 s
  | .atomOr x1 x2 => execAtomOr x1 x2 s
  | .atomXor x1 x2 => execAtomXor x1 x2 s
  | .atomSwap x1 x2 => execAtomSwap x1 x2 s
  | .atomCas x1 x2 => execAtomCas x1 x2 s
  | .atomFadd x1 x2 => execAtomFadd x1 x2 s
  | .atomQadd x1 x2 => execAtomQadd x1 x2 s
  | .atomLocal x1 x2 x3 => execAtomLocal x1 x2 x3 s
  | .clrd x1 x2 => execClrd x1 x2 s
  | .cmstStage x1 x2 => execCmstStage x1 x2 s
  | .cmstCommit x1 x2 x3 => execCmstCommit x1 x2 x3 s
  | .cmab => execCmab s
  | .fence x1 x2 => execFence x1 x2 s
  | .sbind x1 x2 x3 x4 => execSbind x1 x2 x3 x4 s
  | .sunb x1 => execSunb x1 s
  | .sfence => execSfence s
  | .segnew x1 x2 x3 x4 x5 => execSegnew x1 x2 x3 x4 x5 s
  | .segfree x1 => execSegfree x1 s
  | .segpin x1 => execSegpin x1 s
  | .segunpin x1 => execSegunpin x1 s
  | .segsz x1 x2 => execSegsz x1 x2 s
  | .segclr x1 x2 x3 x4 => execSegclr x1 x2 x3 x4 s
  | .segfmt x1 x2 x3 => execSegfmt x1 x2 x3 s
  | .shld x1 x2 x3 => execShld x1 x2 x3 s
  | .shst x1 x2 x3 => execShst x1 x2 x3 s
  | .cpss x1 x2 x3 x4 x5 x6 => execCpss x1 x2 x3 x4 x5 x6 s
  | .cpsp x1 x2 x3 x4 x5 x6 x7 => execCpsp x1 x2 x3 x4 x5 x6 x7 s
  | .cpgs x1 x2 x3 x4 x5 x6 => execCpgs x1 x2 x3 x4 x5 x6 s
  | .cpsg x1 x2 x3 x4 x5 x6 => execCpsg x1 x2 x3 x4 x5 x6 s
  | .cpts x1 x2 x3 x4 x5 x6 => execCpts x1 x2 x3 x4 x5 x6 s
  | .cpst x1 x2 x3 x4 x5 x6 => execCpst x1 x2 x3 x4 x5 x6 s
  | .cpwarm x1 x2 x3 x4 => execCpwarm x1 x2 x3 x4 s
  | .cpfill x1 x2 x3 x4 x5 => execCpfill x1 x2 x3 x4 x5 s
  | .cpwait x1 x2 => execCpwait x1 x2 s
  | .cpcan x1 => execCpcan x1 s
  | .copyUnitWrite _ => .next s
  | .copyCompletion _ => .next s
  | .parkedAccessRelease _ _ => .next s
  | .xpin x1 x2 x3 x4 x5 => execXpin x1 x2 x3 x4 x5 s
  | .xpout => execXpout s
  | .xmit x1 x2 => execXmit x1 x2 s
  | .xsel x1 x2 x3 => execXsel x1 x2 x3 s
  | .phaseStart => .next s
  | .phasetimeout => .next s
  | .routerCycle => .next s
  | .phaseabort _ => .next s
  | .cgjoin x1 x2 x3 x4 => execCgjoin x1 x2 x3 x4 s
  | .cgred x1 x2 x3 x4 x5 x6 x7 x8 x9 x10 => execCgred x1 x2 x3 x4 x5 x6 x7 x8 x9 x10 s
  | .cgbc x1 x2 x3 x4 x5 x6 x7 x8 x9 => execCgbc x1 x2 x3 x4 x5 x6 x7 x8 x9 s
  | .cgleave x1 => execCgleave x1 s
  | .collectiveStart _ => .next s
  | .groupDrained _ => .next s
  | .enq x1 x2 x3 x4 => execEnq x1 x2 x3 x4 s
  | .enqDelivery _ => .next s
  | .mld x1 x2 x3 x4 => execMld x1 x2 x3 x4 s
  | .zclr x1 => execZclr x1 s
  | .mma x1 x2 x3 x4 x5 x6 x7 => execMma x1 x2 x3 x4 x5 x6 x7 s
  | .zrd x1 x2 x3 => execZrd x1 x2 x3 s
  | .zst x1 x2 x3 x4 x5 => execZst x1 x2 x3 x4 x5 s
  | .tileFetch _ => .next s
  | .arrayAccept => .next s
  | .zstWritePerformed _ => .next s
  | .iadd x1 => execIadd x1 s
  | .isub x1 => execIsub x1 s
  | .imin x1 => execImin x1 s
  | .imax x1 => execImax x1 s
  | .vWmin x1 => execVWmin x1 s
  | .vWmax x1 => execVWmax x1 s
  | .iabs x1 => execIabs x1 s
  | .vAnd x1 => execVAnd x1 s
  | .vOr x1 => execVOr x1 s
  | .vXor x1 => execVXor x1 s
  | .andn x1 => execAndn x1 s
  | .vShl x1 => execVShl x1 s
  | .vShr x1 => execVShr x1 s
  | .vSra x1 => execVSra x1 s
  | .rol x1 => execRol x1 s
  | .iadds x1 => execIadds x1 s
  | .isubs x1 => execIsubs x1 s
  | .wadds x1 => execWadds x1 s
  | .wsubs x1 => execWsubs x1 s
  | .imul x1 => execImul x1 s
  | .imulh x1 => execImulh x1 s
  | .wmulh x1 => execWmulh x1 s
  | .vdot4 x1 x2 => execVdot4 x1 x2 s
  | .vPopc x1 => execVPopc x1 s
  | .vClz x1 => execVClz x1 s
  | .sel x1 => execSel x1 s
  | .mov x1 => execMov x1 s
  | .vBfx x1 => execVBfx x1 s
  | .vBfi x1 => execVBfi x1 s
  | .laneCompare x1 x2 x3 x4 x5 => execLaneCompare x1 x2 x3 x4 x5 s
  | .pand x1 => execPand x1 s
  | .por x1 => execPor x1 s
  | .pxor x1 => execPxor x1 s
  | .pnot x1 x2 x3 => execPnot x1 x2 x3 s
  | .pany x1 x2 x3 => execPany x1 x2 x3 s
  | .pcnt x1 x2 x3 => execPcnt x1 x2 x3 s
  | .lperm x1 => execLperm x1 s
  | .lbc x1 => execLbc x1 s
  | .lrot x1 => execLrot x1 s
  | .xmv x1 x2 x3 x4 => execXmv x1 x2 x3 x4 s
  | .xbc x1 x2 x3 x4 x5 => execXbc x1 x2 x3 x4 x5 s
  | .cvt x1 x2 => execCvt x1 x2 s
  | .cvtWiden x1 x2 x3 => execCvtWiden x1 x2 x3 s
  | .cvtNarrow x1 x2 x3 x4 x5 x6 => execCvtNarrow x1 x2 x3 x4 x5 x6 s
  | .qntE2m1b x1 => execQntE2m1b x1 s
  | .dqntE2m1b x1 x2 => execDqntE2m1b x1 x2 s
  | .fadd x1 => execFadd x1 s
  | .fsub x1 => execFsub x1 s
  | .fmul x1 => execFmul x1 s
  | .ffma x1 => execFfma x1 s
  | .ffms x1 => execFfms x1 s
  | .fnma x1 => execFnma x1 s
  | .fdiv x1 => execFdiv x1 s
  | .fsqrt x1 => execFsqrt x1 s
  | .fmin x1 => execFmin x1 s
  | .fmax x1 => execFmax x1 s
  | .fabs x1 => execFabs x1 s
  | .fneg x1 => execFneg x1 s
  | .fcps x1 => execFcps x1 s
  | .fclass x1 => execFclass x1 s
  | .vred x1 x2 => execVred x1 x2 s
  | .frcp x1 => execFrcp x1 s
  | .frsq x1 => execFrsq x1 s
  | .fexp2 x1 => execFexp2 x1 s
  | .flog2 x1 => execFlog2 x1 s
  | .fsin x1 => execFsin x1 s
  | .fcos x1 => execFcos x1 s
  | .ftanh x1 => execFtanh x1 s
  | .fsigm x1 => execFsigm x1 s
  | .specialFunction16 x1 x2 x3 => execSpecialFunction16 x1 x2 x3 s
  | .qenc x1 x2 => execQenc x1 x2 s
  | .qadd x1 => execQadd x1 s
  | .qsub x1 => execQsub x1 s
  | .qneg x1 => execQneg x1 s
  | .qmul x1 => execQmul x1 s
  | .qdiv x1 => execQdiv x1 s
  | .qinv x1 => execQinv x1 s
  | .qcmpeq x1 x2 x3 x4 => execQcmpeq x1 x2 x3 x4 s
  | .qdig x1 x2 => execQdig x1 x2 s
  | .qsetd x1 x2 => execQsetd x1 x2 s
  | .qdec x1 x2 => execQdec x1 x2 s
  | .qcvt x1 => execQcvt x1 s
  | .tlbMiss _ _ => .next s
  | .pageWalk _ _ => .next s
  | .xivcGo _ => .next s
  | .invalidationComplete => .next s
  | .nsEpochEnd _ => .next s
  | .nsPromotion _ _ => .next s
  | .nsDemotion _ _ => .next s
  | .nsrsvWrite _ _ => .next s
  | .layerPowerDown _ => .next s
  | .hbmWake _ => .next s
  | .tminvWrite _ => .next s
  | .l2wmWrite _ _ => .next s
  | .l2WriteBack => .next s
  | .l2WriteBackInvalidate => .next s
  | .cmpctlWrite _ => .next s
  | .linkReplay _ => .next s
  | .linkRetrain _ => .next s
  | .segmentRecall => .next s
  | .pushOut _ _ => .next s
  | .tamperMove _ _ _ => .next s
  | .deckleTakeWay => .next s
  | .deckleGiveWay => .next s
  | .deckleEpochEnd => .next s
  | .streamFetch _ => .next s
  | .streamWrite _ => .next s
  | .admission _ => .next s
  | .launchCheck _ => .next s
  | .lookaheadRevoke => .next s
  | .stagingStart _ _ => .next s
  | .stagingAbandon _ => .next s
  | .refill _ _ => .next s
  | .dispatch _ => .next s
  | .taskRelease _ => .next s
  | .jcbPost => .next s
  | .cancelApply => .next s
  | .enqueueTake _ => .next s
  | .drainPoint => .next s
  | .heavySave _ => .next s
  | .preemptTask _ => .next s
  | .taskResume _ => .next s
  | .trapEntry _ => .next s
  | .trapToControlCore _ => .next s
  | .softError _ => .next s
  | .coreMigration _ _ => .next s
  | .sliceSpare _ _ => .next s
  | .thermalThrottle _ => .next s
  | .thermalShutdown _ => .next s
  | .pwrcapWrite _ => .next s
  | .launch => .next s
  | .cancel => .next s
  | .preempt => .next s
  | .resume => .next s
  | .tbind => .next s
  | .tunbind => .next s
  | .qcreate => .next s
  | .qdestroy => .next s
  | .functionLevelReset => .next s
  | .bar2Read _ => .next s
  | .bar2Write _ _ => .next s
  | .pcfgWrite _ _ => .next s
  | .twinWrite _ => .next s
  | .cmpstClear => .next s
  | .comparatorCheck _ _ => .next s
  | .cgspanWrite _ _ => .next s
  | .dbgStop => .next s
  | .dbgGo => .next s
  | .dbgStep => .next s
  | .snapshotFire => .next s
  | .trcbaseWrite _ => .next s
  | .trclostClear => .next s
  | .lpselWrite _ => .next s
  | .pcfgsClear => .next s
  | .registerWrite _ _ => .next s
  | .powerOn _ => .next s
  | .bootLinkUp _ => .next s
  | .bootDhcp _ => .next s
  | .bootTftp _ => .next s
  | .imageVerify _ => .next s
  | .bootConfigure _ => .next s
  | .mailboxSlotWrite _ _ _ => .next s
  | .badrec => .next s
  | .remoteWindowAccess _ _ => .next s
  | .throttleRelease _ => .next s

/-- A slot runs, with nothing met so far. -/
def State.run (s : State) (i : Instr) : State :=
  match slotExec i { s with mark := .clear } with
  | .next t => t
  | _ => s

end Sys2Proof.Machine
end

