-- ==== Sys2Proof/Machine/Issue.lean ====
section
/-! DEFINITION. The issue of a bundle's halves, the landing of results, and what puts another context on the core
(R32 to R49, R136, R203, R333, R403). -/

namespace Sys2Proof.Machine

/-! ### What a half has met -/

/-- Neither half is held by a fault of the context that is being served (R81, R367). -/
def State.aFree (s : State) : Bool := !s.parked.any (fun p => p.by_ == .half s.cur && !p.denied)

/-- A trap is taken, or waits for its entry. -/
def Mark.isTrap : Mark → Bool
  | .trapped _ | .waited .entry => true
  | _ => false
def Mark.isWait : Mark → Bool
  | .waited _ => true
  | _ => false
def Mark.isCheck : Mark → Bool
  | .trapped t => decide (0x80 ≤ t.cause.code)
  | _ => false

/-- A stall on a queue, or a realignment: it comes before any slot of the half executes (R35, R191). -/
def Mark.stalls : Mark → Bool
  | .waited .queue | .waited .realign => true
  | _ => false

/-- Of what the slots of a half meet, what decides: a stall on a queue or a realignment, else a machine check, else the
first trap, else the first wait (R35, R49, R191, R366, R427). -/
def firstMet (l : List State) : Option State :=
  match l.find? (fun t => t.mark.stalls) with
  | some t => some t
  | none => match l.find? (fun t => t.mark.isCheck) with
    | some t => some t
    | none => match l.find? (fun t => t.mark.isTrap) with
      | some t => some t
      | none => l.find? (fun t => t.mark.isWait)

/-- Runs slots one after another, up to the first that meets something. -/
def State.runSlots (s : State) : List Instr → State
  | [] => s
  | i :: r => let t := s.run i; if t.mark = .clear then t.runSlots r else t

/-- What a half meets: nothing, or the half as it stood with the trap taken or the wait noted. -/
def State.settle (t s : State) (k : State) : State :=
  match t.mark with
  | .clear => k
  | .trapped x => s.raise x
  | .waited w => s.wait w

/-- Before the first bundle of a context: latches that its resume restores, or the clearing between jobs
(R203, R369). -/
def State.claim (s : State) : State :=
  match s.ctx.latches with
  | some l => { (s.modCtx (fun c => { c with latches := none })).putLatches l with lastJob := some s.ctx.jobKey }
  | none => if s.lastJob = some s.ctx.jobKey then s else { s.clearLatches with lastJob := some s.ctx.jobKey }

/-- The slots of a list that are not zero. -/
def busy (l : List Instr) : List Instr := l.filter (fun i => i != .nop)

/-! ### The X-half (R32, R37, R43, R47) -/

/-- What the X-half slots of a bundle read of the A side. -/
def LagEntry.view (e : LagEntry) : ARegs := if e.hdr.swm then e.snap.swap .msh else e.snap

/-- The X-half of a bundle about to issue: results due at it have landed. -/
def State.openX (s : State) (e : LagEntry) : State :=
  (s.landAt e.bun).modCtx (fun c => { c with xview := some e.view, xpfx := Header.toPrefix e.hdr })

/-- An X-half that waits has landed nothing; requests its slots have made stay. -/
def State.closeX (s t : State) : State :=
  { t with v := s.v, vPoison := s.vPoison, latch := s.latch
           ctx := { t.ctx with p := s.ctx.p, queues := s.ctx.queues, flight := s.ctx.flight, xview := none } }

/-- Reads from a layer that is off, and lost flits, that the slots have reported stay reported (R86, R258). -/
def State.keepReports (s t : State) : State :=
  let l := (t.faultLog.drop s.faultLog.length).filter (fun r => r.cause == .layerOff || r.cause == .linkFail)
  l.foldl (fun s r => (s.logFault r).machineCheck) { s with flitLost := t.flitLost }

/-- An X-half that traps stands where it stood; SFAULT has been recorded. -/
def State.xMet (s t : State) : State :=
  match t.mark with
  | .trapped x => ((s.keepReports t).modRegs (fun r => { r with sfault := t.ctx.regs.sfault })).raise x
  | _ => s.closeX t

/-- A write that an A-half made to the X side takes effect (R34). -/
def Ctx.xApply (c : Ctx) : XWrite → Ctx
  | .qctl v => { c with qctl := v }
  | .rcnt0 => { c with rcnt := 0 }

/-- A bundle lies in a run of the selected loop: from the bundle after its LOOP to the LEND that falls through (R403). -/
def inRun (bun : Nat) (r : Nat × Option Nat) : Bool :=
  decide (r.1 ≤ bun) && (match r.2 with | some z => decide (bun ≤ z) | none => true)
/-- Counts an X-half issue of the selected loop (R403); a run whose last bundle it is has been counted. -/
def State.countLoop (s : State) (e : LagEntry) : State :=
  if s.loopSelected && s.lpRun.any (inRun e.bun) then
    let add (s : State) (off n : Nat) : State := s.setBar s.part.toNat off (s.bar off + BitVec.ofNat 64 n)
    { add (add (add s 0x80088 1) 0x80090 e.fill) 0x80098 (14 - e.fill) with
      lpRun := s.lpRun.filter (fun r => r.2 != some e.bun) }
  else s

/-- The X-half of a bundle commits. YB lets the core switch after it, where no phase holds the core (R45, R135). -/
def State.commitX (s : State) (e : LagEntry) : State :=
  let rsr := e.hdr.pxe && (Header.toPrefix e.hdr).rm == .rsr
  let s1 := s.modCtx (fun c =>
    let due := c.xpend.filter (fun p => decide (p.1 ≤ e.bun))
    let c1 : Ctx := { c with lag := c.lag.tail, xn := c.xn + 1, rcnt := if rsr then c.rcnt + 1 else c.rcnt
                             quantum := c.quantum + 1, yielding := e.hdr.yb && !s.holdsCore, xview := none
                             zhist := pendingZ (c.xn + 1) c.zhist
                             xpend := c.xpend.filter (fun p => decide (e.bun < p.1)) }
    let c2 := due.foldl (fun (c : Ctx) p => c.xApply p.2) c1
    match c2.stepTo with
    | some n => if n ≤ c2.xn then { c2 with stopped := true, stepTo := none } else c2
    | none => c2)
  { s1.countLoop e with mark := .clear }

/-- A software trap whose entry waited for its frame (R372). -/
def Ctx.owed (c : Ctx) : Option TrapInfo := c.pend.filter (fun t => t.cause == .swTrap)
/-- A half that executes again no longer waits for a trap of its bundle. -/
def State.again (s : State) : State := s.modCtx (fun c => { c with pend := none })

/-- X_HALF_ISSUE. -/
def State.xIssue (s : State) : State :=
  if !s.mayIssue || !s.aFree then s
  else match s.ctx.owed with
  | some t => s.claim.raise t
  | none => match s.ctx.lag.head? with
    | none => s
    | some e =>
      let s0 := s.claim.again
      let o := s0.openX e
      let slots := busy (e.mx :: e.v)
      match firstMet (slots.map o.run) with
      | some t => s0.xMet t
      | none => (slots.foldl State.run o).commitX e
def execXHalfIssue (s : State) : Out := .next s.xIssue

/-- RESULT_LANDING: results due at the bundle where the X-half stands land, in latches that are the context's. -/
def execResultLanding (s : State) : Out :=
  .next (if s.mayIssue ∧ s.aFree ∧ s.ctx.lag ≠ [] then s.claim.landAt s.ctx.xn else s)

/-! ### The A-half (R33 to R36, R43, R47 to R49) -/

/-- SWC and SWS take effect at A-half issue. -/
def ARegs.swapped (r : ARegs) (h : Header) : ARegs :=
  let r := if h.swc then r.swap .csh else r
  if h.sws then r.swap .ssh else r

/-- The shape registers that a bundle's header exchanges. -/
def swappedSRs (h : Header) : List SR :=
  let both (on : Bool) (c : ShapeClass) : List SR := if on then shapeSRs c false ++ shapeSRs c true else []
  both h.swc .csh ++ both h.swm .msh ++ both h.sws .ssh

def slotsA (b : Bundle) : List Instr := [b.c, b.s0, b.s1, b.m, b.k]
def slotsX (b : Bundle) : List Instr := b.mx :: b.v
/-- Non-zero slots of the fourteen. -/
def filled (b : Bundle) : Nat := (busy (slotsA b ++ slotsX b)).length

/-- A shape class whose shadows an instruction reads or writes as special registers. -/
def shadowOf : Instr → Option ShapeClass
  | .mfsr _ _ (.cshs _) | .mtsr _ (.cshs _) _ => some .csh
  | .mfsr _ _ (.mshs _) | .mtsr _ (.mshs _) _ => some .msh
  | .mfsr _ _ (.sshs _) | .mtsr _ (.sshs _) _ => some .ssh
  | _ => none

/-- A register that the bundle reads, or shadows that it swaps or names, still waits for a load (R36, R210). -/
def State.interlocked (s : State) (b : Bundle) : Bool :=
  let all := busy (slotsA b ++ slotsX b)
  all.any (fun i => (areads i).any (fun a => a != 0 && s.reqs.any (fun q => q.ctx == s.cur && (match q.act with
    | .areg d _ => d == a
    | _ => false)))) ||
  (b.hdr.swc && s.shadowBusy .csh) || (b.hdr.swm && s.shadowBusy .msh) || (b.hdr.sws && s.shadowBusy .ssh) ||
  all.any (fun i => match shadowOf i with | some c => s.shadowBusy c | none => false)

/-- What a slot of the A-half meets, as the bundle stands. A TRAP that is taken is no fault of its half. -/
def State.probe (s : State) (i : Instr) : State :=
  match i with
  | .trap k neg _ => if s.rd.rk k != neg && s.entryBusy then s.wait .interlock else { s with mark := .clear }
  | _ => s.run i

/-- Notes that the selected loop is entered or left (R403). X-halves of an earlier run may still be in the lag. -/
def State.noteLoop (s : State) (r : ARegs) (c : Instr) : State :=
  let lc := ufield (s.bar 0x80080) 11 2
  if !s.loopSelected then s
  else match c with
    | .loop i a _ =>
      if i.toNat = lc ∧ (r.ra a).setWidth 32 ≠ (0 : BitVec 32) ∧ !s.lpRun.any (·.2.isNone) then
        { s with lpRun := s.lpRun ++ [(s.ctx.an + 1, none)] } else s
    | .lend i _ =>
      if i.toNat = lc ∧ (r.rlc i).toNat ≤ 1 then
        { s with lpRun := s.lpRun.map (fun p => (p.1, some (p.2.getD s.ctx.an))) } else s
    | _ => s

/-- The A-half has committed. -/
def State.doneA (s : State) : State :=
  { (s.commitA.modCtx (fun c => { c with brkOnce := false, drained := none })) with mark := .clear }

/-- The requests from number `n` on, which the bundle has made behind all of its context, are performed. -/
def State.performNew (s : State) (n : Nat) : State :=
  match s.reqs[n]? with
  | none => s
  | some r => if r.act.isStore then s.storePerformed n else s.loadArrived n

/-- The control slot, after the others: `s` is the half as it stood, `t` what the others have made of it. -/
def State.depart (s t : State) (c : Instr) : State :=
  match c with
  | .jtab _ _ _ _ => t.doneA
  | .eret | .eretGo _ =>
    -- this bundle's memory slot is performed and its own X-half issues before the frame is read (R373)
    let u := (t.performNew s.reqs.length).xIssue
    u.settle s (let w := u.run c; w.settle s (w.modCtx (fun c => { c with brkOnce := false, drained := none })))
  | .trap k neg _ => if t.rd.rk k != neg then (t.modCtx (fun c => { c with brkOnce := false, drained := none })).run c else t.doneA
  | .retire => t.run c
  | .nop => t.doneA
  | c => let u := t.run c; u.settle s u.doneA

/-- A jump table is read before the bundle's M slot (R297). -/
def earlySlots (b : Bundle) : List Instr :=
  match b.c with
  | .jtab _ _ _ _ => [b.c]
  | _ => []

/-- The X-half of a bundle whose A-half slots have run goes to the lag record, its fetch started behind them (R255). -/
def State.enlag (t : State) (f : Option Fetch) (e : LagEntry) : State :=
  let (f, t) := t.pinFetch e.mx f
  t.modCtx (fun c => { c with lag := c.lag ++ [{ e with fetch := f }] })

/-- The segment that a memory slot or a jump table's reads access, and the pin it holds while its bundle waits (R162,
R166, R297). -/
def mSeg : Instr → Option GReg
  | .jtab _ _ g true => some g
  | .ldaLocal _ _ m | .ldqLocal _ m | .ldqxLocal _ m | .stqLocal _ m | .staLocal _ _ m | .atomLocal _ _ m => some m.g
  | .segpin g | .segclr g _ _ _ => some g
  | _ => none
def State.holdM (o : State) (i : Instr) : State :=
  match (mSeg i).bind (fun g => o.seg o.cur (o.rd.rg g)) with
  | some e => if o.pinFate o.cur [e.name] = .fits then o.modSeg o.cur e.name (fun e => { e with mpin := true }) else o
  | none => o
def State.holdSegs (o : State) (b : Bundle) : State := (o.holdM b.c).holdM b.m

/-- Both halves' slots have been tried and nothing was met: the bundle takes effect. -/
def State.fire (s o : State) (b : Bundle) (ticks : List Nat) : State :=
  let snap := o.rd
  let e : LagEntry := ⟨s.ctx.an, s.ctx.pc, b.hdr, b.mx, b.v, snap, none, ticks, filled b, s.ctx.hand⟩
  let o1 := o.modCtx (fun c =>
    let r := c.regs.swapped b.hdr
    { c.noteWrote (swappedSRs b.hdr) with regs := if b.hdr.swm then r.swap .msh else r })
  let o2 := if b.hdr.snp && (o1.bar 0x80020).getLsbD 1 then o1.fireSnapshot else o1
  let t := ({ o2.noteLoop snap b.c with mark := .clear }).runSlots (earlySlots b ++ busy [b.s0, b.s1, b.m, b.k])
  t.settle (s.holdSegs b) (s.depart ((t.dropM s.cur).enlag (o.startFetch snap b.mx) e) b.c)

/-- The A-half part of the MX slot: the entries that a ZRD reserves; the block of a pin that must wait (R163, R257, R265). -/
def State.mxPart (o : State) (i : Instr) : Except State (List Nat × State) :=
  match i with
  | .zrd _ _ _ => o.zrdReserve
  | _ => if o.mxBlocked i then .error (o.wait .barrier) else .ok ([], o)

/-- What a part of a bundle meets instead of its result. -/
def metBy {α : Type} : Except State α → List State
  | .error t => [t]
  | .ok _ => []

/-- No snapshot is in force between bundles. -/
def State.unview (s : State) : State := s.modCtx (fun c => { c with aview := none })

/-- What keeps a bundle from issuing: a trap, and its memory slot holds no pin any more; or a wait. -/
def State.heldUp (t : State) : State := if t.mark.isWait then t.unview else t.unview.dropM t.cur

/-- A bundle that leaves the handler (R373). -/
def leaves (b : Bundle) : Bool := match b.c with | .eret | .eretGo _ => true | _ => false
/-- The handler's results have landed before the other slots of its ERET are performed (R373). -/
def State.settleEret (s : State) (b : Bundle) : State :=
  if leaves b && s.ctx.active && s.ctx.lag.isEmpty then s.landAll else s

/-- The slots of the A-half of a bundle, all or none (R49). The memory slot beside an ERET waits for the context's
earlier requests, so that the frame is read behind it. -/
def State.issueSlots (s : State) (b : Bundle) (next : Word) : State :=
  if b.hdr.ra ∧ !s.ctx.lag.isEmpty then s.wait .realign
  else if s.interlocked b then s.wait .interlock
  else if leaves b && b.m != .nop && s.reqs.any (fun q => q.ctx == s.cur) then s.wait .engine
  else
    let s := (s.dropM s.cur).settleEret b
    let o := (s.modCtx (fun c =>
      { c with apfx := Header.toPrefix b.hdr, npc := next, aview := some (c.regs.swapped b.hdr) })).holdSegs b
    -- the A-half part of the MX slot comes last (R366)
    let z := o.mxPart b.mx
    match firstMet ((busy (slotsA b)).map o.probe ++ metBy z) with
    | some t => t.heldUp
    | none => match z with
      | .error t => t.heldUp
      | .ok (ticks, o1) => s.fire o1 b ticks

/-- What may stand in a bundle of a transfer phase (R136). -/
def phaseSlots (b : Bundle) : Bool :=
  (match b.c with | .nop | .loop _ _ _ | .lend _ _ => true | _ => false) &&
  [b.s0, b.s1].all (fun i => match i with | .popsq _ _ | .popbq _ _ | .mfsr _ _ _ | .mtsr _ _ _ => false | _ => true) &&
  (match b.k with | .nop | .xmit _ _ | .xsel _ _ _ | .xpout => true | _ => false) && (busy (b.m :: (slotsX b))).isEmpty

/-- A position of a phase at which no bundle stands, once the routers have moved: beyond its two quires, or past the end
of one without a NEXT, it aborts the phase (R136). Inside them the expander's fault is raised as anywhere (DEDUCED from
the order of R366; log entry 77). -/
def State.phaseStray (s : State) (p : Phase) (c : Cause) (detail : Word) : State :=
  if p.routed < p.cycle then s.wait .engine
  else if c = .noCode ∨ !p.quires.contains (frameOf s.ctx.pc) then s.phaseAbort .op
  else s.expandTrap c detail

/-- A bundle of a transfer phase: one for each phase cycle, once the routers have moved (R136). -/
def State.phaseBundle (s : State) (p : Phase) (b : Bundle) (next : Word) : State :=
  let frame := frameOf s.ctx.pc
  if p.routed < p.cycle then s.wait .engine
  else if !phaseSlots b || !p.quires.contains frame || (p.cycle == p.pl && b.k != .xpout) then s.phaseAbort .op
  else
    let t := s.issueSlots b next
    if t.ctx.an = s.ctx.an + 1 then
      { t with phase := t.phase.map (fun q => { q with cycle := q.cycle + 1 }) }
    else t

/-- A bundle outside a phase: its breakpoint, then its drain point, then its slots (R48, R374). BREAK is met before any
slot: its cause word names slot 7, the expander's (DESIGN CHOICE: R371 gives BREAK no slot; log entry 66). -/
def State.plainBundle (s : State) (b : Bundle) (next : Word) : State :=
  if b.hdr.brk && (s.bar 0x80000).getLsbD 0 && !s.ctx.brkOnce then
    (if s.ctx.lag.isEmpty then s.aFault 7 .brk 0 else s.wait .realign)
  else if b.hdr.dp && s.stopWanted && s.phaseOn.isNone && s.ctx.drained != some s.ctx.pc then
    (if s.ctx.lag.isEmpty then ({ s with mark := .clear }).drainHere b.hdr else s.wait .realign)
  else s.issueSlots b next

/-- A_HALF_ISSUE. -/
def State.aIssue (s : State) : State :=
  if !s.mayIssue || !s.aFree then s
  else match s.ctx.owed with
  | some t => s.claim.raise t
  | none =>
    let s0 := s.claim.again
    if (s0.ctx.stepTo.any (fun n => decide (n ≤ s0.ctx.an) || !s0.ctx.lag.isEmpty)) || decide (16 ≤ s0.ctx.lag.length) then
      s0.wait .engine
    else if !s0.fetchServed (frameOf s0.ctx.pc) then s0.awaitPage (frameOf s0.ctx.pc)
    else match s0.expand with
      | .error (c, d) => match s0.inPhase with
        | some p => s0.phaseStray p c d
        | none => s0.expandTrap c d
      | .ok (b, next, s1) => match s1.inPhase with
        | some p => s1.phaseBundle p b next
        | none => s1.plainBundle b next
def execAHalfIssue (s : State) : Out := .next s.aIssue

/-! ### Context switches (R44, R45, R333) -/

/-- Waits of R44 on which the core switches. A served fault counts as one: R44 does not name it, and a context that
waits for the control core would keep the core from the others (DESIGN CHOICE, log entry 64). -/
def WaitFor.blocks : WaitFor → Bool
  | .queue | .segment | .barrier | .served => true
  | .interlock | .realign | .phase | .engine | .entry => false

/-- What keeps both halves where they stand; none where one of them can go on. -/
def State.stuck (s : State) : Option WaitFor :=
  if !s.aFree then some .served
  else
    let xw : Option WaitFor := if s.ctx.lag.isEmpty then some .served else match s.xIssue.mark with
      | .waited w => some w
      | _ => none
    match xw with
    | none => none
    | some w => match s.aIssue.mark with
      | .waited v => some (if s.ctx.lag.isEmpty then v else w)
      | _ => none

/-- LL of the bundle at which the X-half stands. -/
def State.standLL (s : State) : Bool :=
  match s.ctx.lag.head? with
  | some e => e.hdr.ll
  | none => match s.expand with
    | .ok (b, _, _) => b.hdr.ll
    | .error _ => false

/-- A context that holds a task and is neither blocked nor stalled in place (R333). -/
def State.isReady (s : State) (i : BitVec 2) : Bool :=
  let t := s.switchTo i
  t.mayIssue && (match t.stuck with | some w => !(w.blocks || w == .phase) | none => true)
/-- The first ready context after the one on the core. -/
def State.nextReady (s : State) : Option (BitVec 2) := [s.cur + 1, s.cur + 2, s.cur + 3].find? s.isReady
def State.switchNext (s : State) : State :=
  match s.nextReady with
  | some i => s.switchTo i
  | none => s

/-- The context on the core may be switched out: it issues nothing, or is blocked at a bundle with LL = 0. -/
def State.mayLeave (s : State) : Bool :=
  if s.holdsCore then false
  else if !s.mayIssue then true
  else match s.stuck with
    | some w => w.blocks && !s.standLL
    | none => false

/-- CONTEXT_SWITCH. -/
def execContextSwitch (s : State) : Out := .next (if s.mayLeave then s.switchNext else s)

/-- YIELD: after the X-half of a bundle with YB. -/
def execYield (s : State) : Out :=
  .next (if s.ctx.yielding ∧ !s.holdsCore then (s.modCtx (fun c => { c with yielding := false })).switchNext else s)

/-- QUANTUM_EXPIRY. -/
def execQuantumExpiry (s : State) : Out :=
  .next (if 65536 ≤ s.ctx.quantum ∧ s.ctx.phase = .running ∧ !s.holdsCore ∧ !s.standLL then s.switchNext else s)

end Sys2Proof.Machine
end

