-- ==== Sys2Proof/Machine/Mailbox.lean ====
section
/-! DEFINITION. The launch mailboxes of the functions and the records the device takes from them
(R92, R344, R361, R383, R386, R387, R404). -/

namespace Sys2Proof.Machine

/-! ### Slots -/

def regMBSTAT : Nat := 0x2000
/-- Word `w` of slot `n`. -/
def slotOff (n w : Nat) : Nat := 32 * n + 8 * w

/-- A word of a slot of a function's mailbox is written; word 0 with OWN = 1 over a slot that still holds OWN = 1 is
dropped and counted. -/
def State.writeSlot (s : State) (fn : BitVec 3) (slot : BitVec 8) (word : BitVec 2) (v : Word) : State :=
  if word = 0 ∧ v.getLsbD 7 ∧ (s.barAt fn.toNat (slotOff slot.toNat 0)).getLsbD 7 then
    let st := s.barAt fn.toNat regMBSTAT
    s.setBar fn.toNat regMBSTAT ((st &&& 0xFFFF) ||| BitVec.ofNat 64 ((ufield st 32 16 + 1) % 65536 * 2 ^ 32))
  else s.setBar fn.toNat (slotOff slot.toNat word.toNat) v
/-- MAILBOX_SLOT_WRITE, in the function of this core's partition. -/
def execMailboxSlotWrite (slot : BitVec 8) (word : BitVec 2) (v : Word) (s : State) : Out := .next (s.writeSlot s.part slot word v)

/-- The slot the device takes next from a function's mailbox, once it is handed over: its number and words. -/
def State.mbHeadOf (s : State) (fn : BitVec 3) : Option (Nat × List Word) :=
  let st := s.barAt fn.toNat regMBSTAT
  let n := ufield st 0 8
  let w := (List.range 4).map (fun i => s.barAt fn.toNat (slotOff n i))
  if (wd w 0).getLsbD 7 && ufield (wd w 0) 8 8 == ufield st 8 8 then some (n, w) else none
/-- From the mailbox of this core's partition. -/
def State.mbHead (s : State) : Option (Nat × List Word) := s.mbHeadOf s.part
/-- The first function whose next record passes a test, this core's own before the others. -/
def State.mbTurn (s : State) (f : List Word → Bool) : Option (BitVec 3 × Nat × List Word) :=
  (s.part :: (List.range 8).map (BitVec.ofNat 3)).findSome? (fun p =>
    (s.mbHeadOf p).bind (fun h => if f h.2 then some (p, h) else none))

/-- Reserved kinds. -/
def badKind (w : List Word) : Bool := !decide (1 ≤ ufield (wd w 0) 0 4 ∧ ufield (wd w 0) 0 4 ≤ 8)

/-- A record with a reserved kind or field (R386, R387). -/
def badRec (w : List Word) : Bool :=
  let k := ufield (wd w 0) 0 4
  let lvl := ufield (wd w 0) 4 3
  let task := k == 2 && lvl == 0
  badKind w || ufield (wd w 0) 24 40 != 0 || (k != 2 && lvl != 0) || decide (4 < lvl) ||
  (decide (k ≤ 2) && (ufield (wd w 3) 32 32 != 0 || (!task && ufield (wd w 3) 0 32 != 0))) ||
  ((k == 5 || k == 6) && ufield (wd w 1) 12 52 != 0) ||
  (k == 7 && (ufield (wd w 1) 8 56 != 0 || (wd w 2).toNat % 32 != 0 || ufield (wd w 3) 20 44 != 0 || wd w 3 == 0)) ||
  (k == 8 && !handleOk (wd w 1))

/-- The device completes the slot it takes: OWN = 0 and STS, the word it returns, and the next slot. -/
def State.mbDone (s : State) (p : BitVec 3) (n : Nat) (w : List Word) (sts : Nat) (ret : Option Word) : State :=
  let fn := p.toNat
  let st := s.barAt fn regMBSTAT
  let w0 := (wd w 0 &&& 0xFF7F) ||| BitVec.ofNat 64 (65536 * sts)
  let next := (n + 1) % 256
  let seq := if n = 255 then (ufield st 8 8 + 1) % 256 else ufield st 8 8
  let s1 := s.setBar fn (slotOff n 0) w0
  let s2 := match ret with
    | some v => s1.setBar fn (slotOff n 1) v
    | none => s1
  (s2.setBar fn regMBSTAT ((st &&& 0x0000FFFF00000000) ||| BitVec.ofNat 64 (next + 256 * seq))).signal fn 0

/-- A partition's mailbox refuses every record: it is the twin of a pair (R404). -/
def State.isTwin (s : State) (p : BitVec 3) : Bool := s.twinOn && s.twinPart == p
/-- A function whose partition holds no group (R383). -/
def State.noGroup (s : State) (p : BitVec 3) : Bool := s.barAt 0 (0x30000 + 8 * p.toNat) == 0
/-- The partition in whose dispatcher a record of partition `p` is placed too (R404). -/
def State.mirrored (s : State) (p : BitVec 3) : Option (BitVec 3) := if s.twinOn && s.primary == p then some s.twinPart else none
/-- The record reaches the dispatcher of this core. What another partition's dispatcher does with its jobs is not this
core's (log entry 81). -/
def State.concerns (s : State) (p : BitVec 3) : Bool := p == s.part || s.mirrored p == some s.part

/-- What a record does: its status and the word it returns; or what stands while it waits. -/
inductive Taking where
  | done (sts : Nat) (ret : Option Word) (s : State)
  | waits (s : State)

/-- A record that a partition's mailbox and its twin's dispatcher both carry out; the partition's own answer counts. -/
def State.onBoth (s : State) (p : BitVec 3) (f : State → BitVec 3 → Taking) : Taking :=
  match s.mirrored p with
  | none => f s p
  | some q => match f s q with
    | .waits t => .waits t
    | .done _ _ t => f t p

/-- The device takes the next slot where it holds a record of a kind. -/
def State.takeSlot (s : State) (kind : Nat) (f : BitVec 3 → List Word → Taking) : State :=
  match s.mbTurn (fun w => ufield (wd w 0) 0 4 == kind) with
  | none => s
  | some (p, n, w) =>
    if s.noGroup p then s.mbDone p n w 3 none
    else if badRec w || s.isTwin p then s.mbDone p n w 2 none
    else match f p w with
      | .waits t => t
      | .done sts ret t => t.mbDone p n w sts ret

/-- BADREC: the next slot holds a reserved kind. -/
def execBadrec (s : State) : Out :=
  .next (match s.mbTurn badKind with
    | some (p, n, w) => s.mbDone p n w (if s.noGroup p then 3 else 2) none
    | none => s)

/-! ### Launch, cancel, pre-empt, resume -/

/-- LAUNCH: the record enters the launch table, and the twin's with it. -/
def execLaunch (s : State) : Out :=
  .next (s.takeSlot 1 (fun p w =>
    let (ok, t) := s.takeLaunch p (wd w 1) (wd w 2)
    if !ok then .done 1 none s
    else match t.mirrored p with
      | some q => .done 0 none (t.takeLaunch q (wd w 1) (wd w 2)).2
      | none => .done 0 none t))

/-- CANCEL. -/
def execCancel (s : State) : Out :=
  .next (s.takeSlot 2 (fun p w =>
    .done 0 none (if s.concerns p then s.queueCancel (ufield (wd w 0) 4 3) (wd w 1) (wd w 2) (ufield (wd w 3) 0 32) else s)))

/-- A job is pre-empted: its admitted tasks go back to ready, and an arrival at a phase is withdrawn (R140, R344). -/
def State.preemptJob (s : State) (jd : Word) : State :=
  let s1 : State := { s with preempted := if s.preempted.contains jd then s.preempted else s.preempted ++ [jd] }
  let mine (i : BitVec 2) : Bool := ((s.ctxAt i).task.map (·.jd)) == some jd
  let s2 := ([0, 1, 2, 3] : List (BitVec 2)).foldl (fun s i => if mine i then s.unadmit i true else s) s1
  match s2.phase with
  | some p => if mine p.ctx ∧ !p.started then s2.phaseEnd p else s2
  | none => s2

/-- PREEMPT. -/
def execPreempt (s : State) : Out :=
  .next (s.takeSlot 3 (fun p w => .done 0 none (if s.concerns p then s.preemptJob (wd w 1) else s)))
/-- RESUME. -/
def execResume (s : State) : Out :=
  .next (s.takeSlot 4 (fun p w =>
    .done 0 none (if s.concerns p then { s with preempted := s.preempted.filter (fun j => j != wd w 1) } else s)))

/-! ### TBIND, TUNBIND (R92) -/

/-- A descriptor that is not filled in, has a reserved field set, or has a field out of its values (R88, R89). That the
last of the three is NOTVALID too is a DESIGN CHOICE: R92 names the first two (log entry 58). -/
def badTensor (d : List Word) : Bool :=
  let w0 := wd d 0
  let l := ufield w0 16 4 + ufield w0 20 4
  let fmt := decodeFmt (BitVec.ofNat 4 (ufield w0 4 4))
  let tb := tileBytes (fmt.getD .f32) l
  !w0.getLsbD 0 || w0.getLsbD 3 || ufield w0 24 40 != 0 || fmt.isNone || (fmt == some .e2m1b && decide (l < 11)) ||
  decide (tb < 128 ∨ 65536 < tb) || tb % 128 != 0 || (wd d 1).toNat % 65536 != 0 || ufield (wd d 1) 56 8 != 0 ||
  ufield (wd d 2) 0 20 == 0 || ufield (wd d 2) 20 20 == 0 || ufield (wd d 2) 40 20 == 0 || ufield (wd d 2) 60 4 != 0 ||
  (wd d 3).toNat % 8 != 0 || [4, 5, 6, 7].any (fun i => wd d i != 0)

/-- The size of a tensor's region, and its tiles. -/
def tensorTiles (d : List Word) : Nat := ufield (wd d 2) 0 20 * ufield (wd d 2) 20 20 * ufield (wd d 2) 40 20
def tensorSize (d : List Word) : Nat :=
  tensorTiles d * tileBytes ((decodeFmt (BitVec.ofNat 4 (ufield (wd d 0) 4 4))).getD .f32) (ufield (wd d 0) 16 4 + ufield (wd d 0) 20 4)

/-- The 64 KiB units of a run of virtual addresses. -/
def unitsOfRun (base size : Nat) : List Word :=
  (List.range ((base + size + 65535) / 65536 - base / 65536)).map (fun i => BitVec.ofNat 64 ((base / 65536 + i) * 65536))

/-- The leaves of a run of ASID 0 of a partition, sealed or not; none where a page does not translate. -/
def State.leaves (s : State) (p : BitVec 3) (l : List Word) : Option (List Tlb) :=
  l.foldl (fun acc va => match acc, s.rawWalk 0 (s.sysRoot.get 0 p.toNat) va with
    | some r, .leaf t => some (r ++ [t])
    | _, _ => none) (some [])
/-- The leaves of a run that lies in the address space; none where it runs past its end (R66). -/
def State.runLeaves (s : State) (p : BitVec 3) (base size : Nat) : Option (List Tlb) :=
  if 2 ^ 56 < base + size then none else s.leaves p (unitsOfRun base size)
/-- A malformed entry among those of a run is a machine check (R72). -/
def State.reportBad (s : State) (p : BitVec 3) (l : List Word) : State :=
  match l.find? (fun va => match s.rawWalk 0 (s.sysRoot.get 0 p.toNat) va with | .bad => true | _ => false) with
  | some va => s.felReport p .pteBad va
  | none => s

/-- The runs of pages that a descriptor names: its map's, where it has one, and its region. -/
def tensorRuns (d : List Word) : List (Nat × Nat) :=
  (if (wd d 0).getLsbD 2 then [((wd d 3).toNat, 8 * tensorTiles d)] else []) ++ [((wd d 1).toNat, tensorSize d)]
/-- The status TBIND gives, and the leaves of the region. Where several statuses apply the first in the order of R92's table
is given (DESIGN CHOICE: R92 lists them and gives no precedence; log entry 58). A page whose entry is malformed counts
as absent (DESIGN CHOICE, log entry 58). -/
def State.bindCheck (s : State) (p : BitVec 3) (d : List Word) : Nat × List Tlb :=
  if badTensor d then (16, [])
  else if (wd d 0).getLsbD 1 then (17, [])
  else if (tensorRuns d).any (fun r => (s.runLeaves p r.1 r.2).isNone) then (18, [])
  else
    let l := (s.runLeaves p (wd d 1).toNat (tensorSize d)).getD []
    if l.any (fun t => t.kind != 0) then (19, []) else if l.any (·.sl) then (20, []) else (0, l)
/-- Malformed entries that the checks have met are reported. -/
def State.bindReport (s : State) (p : BitVec 3) (d : List Word) : State :=
  (tensorRuns d).foldl (fun s r => if 2 ^ 56 < r.1 + r.2 then s else s.reportBad p (unitsOfRun r.1 r.2)) s

/-- An access still to be performed whose address lies in one of some pages. -/
def State.pagesBusy (s : State) (l : List Tlb) : Bool :=
  let inside (pa : Nat) : Bool := l.any (fun t => decide (t.pa ≤ pa ∧ pa < t.pa + t.size))
  let staged (c : Ctx) : Bool := c.watch.staged.any (fun x => inside x.pa)
  s.reqs.any (fun q => inside q.pa) || s.zstores.any (fun z => z.seg.isNone && z.units.any (fun u => inside u.1)) ||
  staged s.ctx || s.others.any (fun c => staged c.2)
/-- A ZST that still writes tiles of a tensor of this core's partition, wherever they lie. -/
def State.tilesBusy (s : State) (p : BitVec 3) (idx : Nat) : Bool := p == s.part && s.zstores.any (fun z => z.tens == some idx)

/-- Drops the translations of a run of ASID 0 of a partition, and those that came from the same leaves under any address
space. -/
def State.dropRun (s : State) (p : BitVec 3) (base size : Nat) (ents : List Nat) : State :=
  let s1 := if p = s.part then s.dropTranslations (fun asid va n => asid == 0 && decide (va < base + size ∧ base < va + n)) else s
  { s1 with tlb := s1.tlb.filter (fun t => !ents.contains t.ent), tcache := s1.tcache.filter (fun t => !ents.contains t.ent) }

/-- The record of a tensor of a partition. -/
def State.boundRec (s : State) (p : BitVec 3) (idx : Nat) (f : Bound → Bool) : Option Bound :=
  s.bound.find? (fun b => b.part == p && b.idx == idx && f b)
def State.modBound (s : State) (p : BitVec 3) (idx : Nat) (f : Bound → Bound) : State :=
  { s with bound := s.bound.map (fun b => if b.part == p && b.idx == idx then f b else b) }
/-- The leaves of a tensor's region. -/
def State.regionOf (s : State) (p : BitVec 3) (d : List Word) : List Tlb :=
  (s.leaves p (unitsOfRun (wd d 1).toNat (tensorSize d))).getD []

/-- The last part of TBIND: once every access that translated before the seal is performed, BND is set. -/
def State.bindEnd (s : State) (p : BitVec 3) (idx : Nat) (d : List Word) (pa : Nat) : Taking :=
  .done 0 none (((s.sysDirty p (s.descVa p idx)).feltWrite pa (natBytes 8 (wd d 0 ||| 2).toNat) 0 false).modBound p idx (fun b => { b with opening := false }))
/-- TBIND has checked and sealed the region and dropped its translations. -/
def State.seal (s : State) (p : BitVec 3) (idx : Nat) (d : List Word) (l : List Tlb) : State :=
  let s2 := l.foldl (fun s t => s.orEntry t.ent 0x80) s
  let s3 := s2.dropRun p (wd d 1).toNat (tensorSize d) (l.map (·.ent))
  { s3 with bound := s3.bound ++ [⟨p, idx, (wd d 1).toNat, tensorSize d, true, false, l.map (·.ent)⟩] }

/-- TBIND: the region is checked and sealed, its translations are dropped, and after the accesses of before the tensor
is bound. A descriptor that cannot be read answers NOTMAPPED (DESIGN CHOICE, log entry 58); a malformed table entry on the
way is a machine check (R72). -/
def State.bind (s : State) (p : BitVec 3) (idx : Nat) : Taking :=
  match s.descriptorOf p idx false with
  | .waits s1 => .waits s1
  | .fault c a s1 => .done 18 none (if c = .pteBad then s1.felReport p c a else s1)
  | .ok (d, pa) s1 =>
    if (s1.boundRec p idx (·.opening)).isSome then (if s1.pagesBusy (s1.regionOf p d) then .waits s else s1.bindEnd p idx d pa)
    else match s1.bindCheck p d with
      | (0, l) =>
        let s2 := s1.seal p idx d l
        if s2.pagesBusy l then .waits s2 else s2.bindEnd p idx d pa
      | (e, _) => .done e none (if e = 18 then s1.bindReport p d else s1)
def execTbind (s : State) : Out := .next (s.takeSlot 5 (fun p w => s.onBoth p (fun s p => s.bind p (ufield (wd w 1) 0 12))))

/-- The last part of TUNBIND: once every tensor access in flight is performed, the region is unsealed and the
generation moves on. -/
def State.unbindEnd (s : State) (p : BitVec 3) (idx : Nat) (d : List Word) (pa : Nat) : Taking :=
  let l := s.regionOf p d
  let s2 := l.foldl (fun (s : State) t => s.feltWrite t.ent (natBytes 8 (s.memWord t.ent &&& ~~~(0x80#64)).toNat) 0 false) s
  let gen := (ufield (wd d 0) 8 8 + 1) % 256
  let w0 : Word := (wd d 0 &&& 0xFFFFFFFFFFFF00FD) ||| BitVec.ofNat 64 (256 * gen)
  let s3 := ((s2.dropRun p (wd d 1).toNat (tensorSize d) (l.map (·.ent))).sysDirty p (s.descVa p idx)).feltWrite pa (natBytes 8 w0.toNat) 0 false
  let mine (b : NsBlock) : Bool := b.tile && (b.block - 2 ^ 26) / 4 % 8 == p.toNat && (b.block - 2 ^ 26) / 32 % 4096 == idx
  .done 0 none { s3 with
    bound := s3.bound.filter (fun b => !(b.part == p && b.idx == idx))
    ns := s3.ns.filter (fun b => !mine b)
    mapCache := s3.mapCache.filter (fun m => !(m.part == p && ufield m.handle 0 12 == idx)) }

/-- TUNBIND: BND is cleared, so that new tensor accesses are STALE, and then the rest. A descriptor that cannot be read
answers NOTBOUND (DESIGN CHOICE, log entry 58). -/
def State.unbindTensor (s : State) (p : BitVec 3) (idx : Nat) : Taking :=
  let busy (s : State) (d : List Word) : Bool := s.pagesBusy (s.regionOf p d) || s.tilesBusy p idx
  match s.descriptorOf p idx false with
  | .waits s1 => .waits s1
  | .fault c a s1 => .done 21 none (if c = .pteBad then s1.felReport p c a else s1)
  | .ok (d, pa) s1 =>
    if (s1.boundRec p idx (·.closing)).isSome then (if busy s1 d then .waits s else s1.unbindEnd p idx d pa)
    else if !(wd d 0).getLsbD 1 then .done 21 none s1
    else
      let s2 := ((s1.sysDirty p (s.descVa p idx)).feltWrite pa (natBytes 8 (wd d 0 &&& ~~~(2#64)).toNat) 0 false).modBound p idx (fun b => { b with closing := true })
      if busy s2 d then .waits s2 else s2.unbindEnd p idx d pa
def execTunbind (s : State) : Out :=
  .next (s.takeSlot 6 (fun p w => s.onBoth p (fun s p => s.unbindTensor p (ufield (wd w 1) 0 12))))

/-! ### QCREATE, QDESTROY (R361, R386, R387) -/

/-- A queue's handle. -/
def handleOf (part : BitVec 3) (idx gen : BitVec 8) : Word := BitVec.ofNat 64 (idx.toNat + 256 * gen.toNat + 65536 * part.toNat)

/-- QCREATE: a queue that has been destroyed is reused under its new generation. -/
def State.createQ (s : State) (p : BitVec 3) (idx : BitVec 8) (ring : Word) (cap : Nat) : Taking :=
  match s.enqQ p idx with
  | some q =>
    if q.exists_ then .done 32 none s
    else .done 0 (some (handleOf p idx q.gen))
      (s.modEnqQ p idx (fun q => { q with exists_ := true, ringVa := ring, cap := cap }))
  | none => .done 0 (some (handleOf p idx 0)) { s with enqs := s.enqs ++ [⟨p, idx, 0, true, [], [], ring, cap⟩] }
def execQcreate (s : State) : Out :=
  .next (s.takeSlot 7 (fun p w => s.onBoth p (fun s p => s.createQ p (BitVec.ofNat 8 (ufield (wd w 1) 0 8)) (wd w 2) (ufield (wd w 3) 0 20))))

/-- A handle of partition `p` as it stands in the twin's dispatcher: the queue of that number and generation there. -/
def handleIn (p q : BitVec 3) (h : Word) : Word :=
  if ufield h 16 3 = p.toNat then handleOf q (BitVec.ofNat 8 (ufield h 0 8)) (BitVec.ofNat 8 (ufield h 8 8)) else h
/-- QDESTROY: the generation moves on; records delivered before are still served. -/
def State.destroyQ (s : State) (p : BitVec 3) (h : Word) : Taking :=
  let idx : BitVec 8 := BitVec.ofNat 8 (ufield h 0 8)
  match s.enqQ p idx with
  | some q =>
    if q.exists_ ∧ h = handleOf p idx q.gen then
      .done 0 none (s.modEnqQ p idx (fun q => { q with exists_ := false, gen := q.gen + 1 }))
    else .done 33 none s
  | none => .done 33 none s
def execQdestroy (s : State) : Out :=
  .next (s.takeSlot 8 (fun p w => s.onBoth p (fun s q => s.destroyQ q (if q = p then wd w 1 else handleIn p q (wd w 1)))))

end Sys2Proof.Machine
end

