-- ==== Sys2Proof/Machine/Registers.lean ====
section
/-! DEFINITION. The host's registers and windows: BAR0, BAR2, the remote window, partitions, debug, snapshot, trace
and loop counters (R7, R383 to R393, R400 to R404). -/

namespace Sys2Proof.Machine

/-! ### Windows onto memory (R389, R391) -/

/-- A word that an agent of scope sys reads at a physical address; no access of a core of the die (R83). -/
def State.sysRead (s : State) (pa : Nat) : State :=
  if s.layerOff pa || s.layerGone (pa + 7) then { (s.dropAccess pa).bump with hostRead := some (s.dropAccess pa).freeWord }
  else { s.feltLines pa 8 0 false with hostRead := some (s.memWord pa) }
/-- A word that it writes, in the 64-byte units that it meets. -/
def State.sysWrite (s : State) (pa : Nat) (v : Word) : State :=
  let bs := natBytes 8 v.toNat
  let n := 64 - pa % 64
  if 8 ≤ n then s.feltWrite pa bs 0 false else (s.feltWrite pa (bs.take n) 0 false).feltWrite (pa + n) (bs.drop n) 0 false

/-- A bank group of a near store that is reserved for the direct window (R82). -/
def State.nearReserved (s : State) (pa : Nat) : Bool :=
  (s.barAt 0 (0x20010 + 0x1000 * (nearGroup pa / 32))).getLsbD (nearGroup pa % 32)
/-- A byte that BAR2 may reach: in HBM4, or in the reserved near-store window. -/
def State.hostMay (s : State) (pa : Nat) : Bool := inHbm pa || (inNear pa && s.nearReserved pa)
/-- The physical address of 8 bytes at an offset in a function's BAR2, where all of them may be reached. -/
def State.bar2 (s : State) (p : RegPlace) : Option Nat :=
  let pa := (s.barAt p.fn.toNat 0x10600).toNat + p.off
  if p.off + 8 ≤ 2 ^ 36 ∧ s.hostMay pa ∧ s.hostMay (pa + 7) then some pa else none

/-- BAR2_READ: any other target is an Unsupported Request. -/
def execBar2Read (place : RegPlace) (s : State) : Out :=
  .next (match s.bar2 place with
    | some pa => s.sysRead pa
    | none => { s with hostRead := none })
/-- BAR2_WRITE: to any other target it is dropped. -/
def execBar2Write (place : RegPlace) (v : Word) (s : State) : Out :=
  .next (match s.bar2 place with
    | some pa => s.sysWrite pa v
    | none => s)

/-- REMOTE_WINDOW_ACCESS: a peer module reads or writes this module's memory. -/
def execRemoteWindowAccess (pa : Nat) (wr : Option Word) (s : State) : Out :=
  .next (if pa % 8 ≠ 0 then s
    else match wr with
      | none => s.sysRead pa
      | some v => s.sysWrite pa v)

/-! ### Partitions, twins, groups across modules (R392, R393, R404) -/

/-- PCFG_WRITE: refused unless the partitions concerned hold no job and the masks stay disjoint. -/
def State.writePcfg (s : State) (i : BitVec 3) (v : Word) : State :=
  let old (j : Nat) : Word := s.barAt 0 (0x30000 + 8 * j)
  let changed := old i.toNat ^^^ v
  let idle (j : Nat) : Bool := (s.jobsOf (BitVec.ofNat 3 j)).isEmpty
  let ok := (List.range 8).all (fun j => if j = i.toNat then changed == 0 || idle j
    else (old j &&& v) == 0 && ((old j &&& changed) == 0 || idle j))
  if ok then (s.setBar 0 (0x30000 + 8 * i.toNat) v).setBar 0 0x30040 0 else s.setBar 0 0x30040 1
def execPcfgWrite (i : BitVec 3) (v : Word) (s : State) : Out := .next (s.writePcfg i v)

/-- PCFGS_CLEAR. -/
def execPcfgsClear (s : State) : Out := .next (s.setBar 0 0x30040 0)

/-- Groups of a partition. -/
def State.groupCount (s : State) (p : Nat) : Nat := (List.range 64).countP (fun g => (s.barAt 0 (0x30000 + 8 * p)).getLsbD g)
/-- TWIN_WRITE: ignored while a partition that it pairs, or paired, holds a job. A pair of unequal group counts is ignored too
(DESIGN CHOICE: R404 pairs two of the same count and does not say what becomes of another write; log entry 27). -/
def State.writeTwin (s : State) (v : Word) : State :=
  let w := v &&& 0x7F
  let pair (w : Word) : List Nat := [ufield w 0 3, ufield w 3 3]
  let old := s.barAt 0 regTWIN
  let named := pair w ++ (if old.getLsbD 6 then pair old else [])
  if named.any (fun j => !(s.jobsOf (BitVec.ofNat 3 j)).isEmpty) || (w.getLsbD 6 && s.groupCount (ufield w 0 3) != s.groupCount (ufield w 3 3)) then s
  else ({ s with cmpKeys := [] }).setBar 0 regTWIN w
def execTwinWrite (v : Word) (s : State) : Out := .next (s.writeTwin v)

/-- CMPST_CLEAR: STOP and KIND become 0. -/
def execCmpstClear (s : State) : Out := .next (s.setBar 0 regCMPST (s.barAt 0 regCMPST &&& 0xC))

/-- CGSPAN of a partition is written: ignored while the identifier is active or draining there. -/
def State.writeSpan (s : State) (fn : BitVec 3) (g : BitVec 8) (v : Word) : State :=
  if s.groups.any (fun x => x.part == fn && x.gid == g) then s
  else s.setBar fn.toNat (0x10700 + 8 * g.toNat) (v &&& 0xFFFFFFFF001FFFFF)
/-- CGSPAN_WRITE, in the function of this core's partition. -/
def execCgspanWrite (g : BitVec 8) (v : Word) (s : State) : Out := .next (s.writeSpan s.part g v)

/-! ### Debug (R400) -/

/-- The context of this core that DBGSEL names. -/
def State.dbgCtx (s : State) : Option (BitVec 2) :=
  if ufield (s.bar 0x80008) 0 9 = s.core.toNat then some (BitVec.ofNat 2 (ufield (s.bar 0x80008) 9 2)) else none
/-- Acts on it while it holds a running task. -/
def State.onDbg (s : State) (f : Ctx → Ctx) : State :=
  match s.dbgCtx with
  | some i => s.modAt i (fun c => if c.phase = .running then f c else c)
  | none => s

/-- DBG_STOP: as at a trap, so that the watch set is lost (R109, R400). -/
def State.dbgStop (s : State) : State :=
  s.onDbg (fun c => if c.stopped then c else { c with stopped := true, stopCause := 0, watch := c.watch.lose })
def execDbgStop (s : State) : Out := .next s.dbgStop
/-- DBG_GO: a BRK at APC is ignored once. -/
def State.dbgGo (s : State) : State :=
  s.onDbg (fun c => if c.stopped then { c with stopped := false, brkOnce := true, stepTo := none } else c)
def execDbgGo (s : State) : Out := .next s.dbgGo
/-- DBG_STEP: the bundle at APC in both halves, once the X-half stands there. -/
def State.dbgStep (s : State) : State :=
  s.onDbg (fun c => if c.stopped then { c with stopped := false, brkOnce := true, stepTo := some (c.an + 1) } else c)
def execDbgStep (s : State) : Out := .next s.dbgStep

/-- Four halfwords of a word. -/
def halves (w : Word) : List (BitVec 16) := (List.range 4).map (fun i => BitVec.ofNat 16 (w.toNat / 65536 ^ i))
def joinHalves (f : Nat → BitVec 16) : Word := BitVec.ofNat 64 ((List.range 4).foldl (fun n i => n + (f i).toNat * 65536 ^ i) 0)

/-- Shape register `k` of the image: CSH, CSHS, MSH, MSHS, SSH, SSHS, four of each. -/
def ARegs.imgShape (r : ARegs) (k : Nat) : Word :=
  let i := k % 4
  match k / 4 with
  | 0 => r.csh.get 0 i | 1 => r.cshs.get 0 i | 2 => r.msh.get 0 i | 3 => r.mshs.get 0 i | 4 => r.ssh.get 0 i | _ => r.sshs.get 0 i
/-- The special register at that place. -/
def imgSr (k : Nat) : SR :=
  let i := BitVec.ofNat 2 k
  match k / 4 with
  | 0 => .csh i | 1 => .cshs i | 2 => .msh i | 3 => .mshs i | 4 => .ssh i | _ => .sshs i

/-- The word of a stopped context's image at a byte offset below its latches, its copies in flight given by CID (R376). -/
def Ctx.imgRead (c : Ctx) (flying : BitVec 16) (off : Nat) : Word :=
  let r := c.regs
  let k := off / 8
  if off = 0 then BitVec.ofNat 64 (2 + (if c.active then 4 else 0) + 8 * c.hmask.toNat + 65536 * c.vcnt + 2 ^ 32 * c.mcnt)
  else if off = 8 then (c.pend.map TrapInfo.word).getD 0
  else if off = 0x10 then c.pc
  else if off = 0x18 then c.xpc
  else if off = 0x20 then c.hpc
  else if off = 0x28 then c.hframe
  else if 0x40 ≤ off ∧ off < 0x240 then r.a.get 0 (k - 8)
  else if off = 0x240 then BitVec.ofNat 64 ((List.range 8).foldl (fun n i => n + (if r.rk (BitVec.ofNat 3 i) then 256 ^ i else 0)) 0)
  else if 0x248 ≤ off ∧ off < 0x258 then
    BitVec.ofNat 64 ((r.lc.get 0 (2 * (k - 0x49))).toNat + 2 ^ 32 * (r.lc.get 0 (2 * (k - 0x49) + 1)).toNat)
  else if 0x258 ≤ off ∧ off < 0x298 then joinHalves (fun i => r.g.get 0 (4 * (k - 0x4B) + i))
  else if 0x2C0 ≤ off ∧ off < 0x3C0 then joinHalves (fun i =>
    let n := 4 * (k - 0x58) + i
    c.pred (BitVec.ofNat 3 (n / 16)) (n % 16))
  else if 0x3C0 ≤ off ∧ off < 0x3F8 then [r.psel, c.qctl, r.rseed, c.rcnt, r.upk, r.sfault, r.cpcause].getD (k - 0x78) 0
  else if 0x3F8 ≤ off ∧ off < 0x4B8 then r.imgShape (k - 0x7F)
  else if off = 0x4B8 then c.cidWord 0xFFFF ||| (flying.setWidth 64 <<< 32)
  else if 0x500 ≤ off ∧ off < 0x4500 then
    BitVec.ofNat 64 ((c.z.get 0 (2 * (k - 0xA0))).toNat + 2 ^ 32 * (c.z.get 0 (2 * (k - 0xA0) + 1)).toNat)
  else 0

/-- The first word: handler active, class mask, VCNT and MCNT. Windows that would leave the core stay as they are (DESIGN
CHOICE: R400 does not say; log entry 57). -/
def Ctx.imgHead (c : Ctx) (v : Word) : Ctx :=
  let n := ufield v 16 10
  let m := ufield v 32 4
  { c with active := v.getLsbD 2, hmask := BitVec.ofNat 5 (ufield v 3 5)
           vcnt := if c.vbase + n ≤ 640 then n else c.vcnt, mcnt := if c.mbase + m ≤ 8 then m else c.mcnt }
/-- The host writes a word of it; APC, XPC and what no offset gives it stay. Reserved bits of a register stay zero
(R7). A reserved selector leaves PSEL its value, as MTSR does (DESIGN CHOICE: R206 says so of MTSR alone; log
entry 57). -/
def Ctx.imgWrite (c : Ctx) (off : Nat) (v : Word) : Ctx :=
  let r := c.regs
  let k := off / 8
  let lo : BitVec 32 := v.setWidth 32
  let hi : BitVec 32 := (v >>> 32).setWidth 32
  if off = 0 then c.imgHead v
  else if off = 8 then { c with pend := TrapInfo.ofWord v ((c.pend.map (·.detail)).getD 0) }
  else if off = 0x20 then { c with hpc := v }
  else if off = 0x28 then { c with hframe := v }
  else if 0x40 ≤ off ∧ off < 0x240 then { c with regs := r.wa (BitVec.ofNat 6 (k - 8)) v false }
  else if off = 0x240 then { c with regs := (List.range 8).foldl (fun r i => r.wk (BitVec.ofNat 3 i) (ufield v (8 * i) 8 != 0)) r }
  else if 0x248 ≤ off ∧ off < 0x258 then
    { c with regs := { r with lc := (r.lc.set 0 (2 * (k - 0x49)) lo).set 0 (2 * (k - 0x49) + 1) hi } }
  else if 0x258 ≤ off ∧ off < 0x298 then
    { c with regs := { r with g := ((halves v).zipIdx).foldl (fun m p => m.set 0 (4 * (k - 0x4B) + p.2) p.1) r.g } }
  else if 0x2C0 ≤ off ∧ off < 0x3C0 then
    { c with p := ((halves v).zipIdx).foldl (fun m p =>
        let n := 4 * (k - 0x58) + p.2
        if n % 16 = 0 then m else m.set 0 n p.1) c.p }
  else if off = 0x3C0 then (if 12 ≤ ufield v 0 4 then c else { c with regs := r.writeSR .psel v })
  else if off = 0x3C8 then { c with qctl := v &&& qctlMask }
  else if off = 0x3D0 then { c with regs := r.writeSR .rseed v }
  else if off = 0x3D8 then { c with rcnt := v }
  else if off = 0x3E0 then { c with regs := r.writeSR .upk v }
  else if off = 0x3E8 then { c with regs := r.writeSR .sfault v }
  else if off = 0x3F0 then { c with regs := r.writeSR .cpcause v }
  else if 0x3F8 ≤ off ∧ off < 0x4B8 then { c with regs := r.writeSR (imgSr (k - 0x7F)) v }
  else if off = 0x4B8 then { c with cidStat := (List.range 16).foldl (fun m i => m.set 0 i (ufield v (2 * i) 2)) c.cidStat }
  else if 0x500 ≤ off ∧ off < 0x4500 then { c with z := (c.z.set 0 (2 * (k - 0xA0)) lo).set 0 (2 * (k - 0xA0) + 1) hi }
  else c

/-- Replaces the 64-bit word at byte `b` of a value. -/
def putWord (n : Nat) (b : Nat) (v : Word) : Nat := n - n / 2 ^ (8 * b) % 2 ^ 64 * 2 ^ (8 * b) + v.toNat * 2 ^ (8 * b)

/-! #### The heavy part (R376): lag record, shelf, transit latches, queues, stream positions; and what a handler has set
aside. The spec gives their order and the size of the latches; the sizes of the others, and the place of what is set aside,
are a DESIGN CHOICE (log entry 37). -/

/-- Where the parts begin: 16 bundles of 1,280 bytes, 1,024 results of 128 bytes, 64 visibility counts, 8 KiB of latches, 50
queues of 1 KiB (8 entries of 128 bytes), and 48 words; then four words, lag record, shelf, counts and latches set aside. -/
def heavyShelf : Nat := 16 * 1280
def heavyCounts : Nat := heavyShelf + 1024 * 128
def heavyLatch : Nat := heavyCounts + 64 * 8
def heavyQueue : Nat := heavyLatch + 8192
def heavyStream : Nat := heavyQueue + 50 * 1024
def heavyAside : Nat := heavyStream + 48 * 8

/-- The entry of a queue that an offset in the queues' part names: queue, place, and byte in it. -/
def queuePlace (o : Nat) : Nat × Nat × Nat := (o / 1024, o % 1024 / 128, o % 128)
/-- A word of a value of 64 bytes. -/
def vecWord (v : Vec) (b : Nat) : Word := BitVec.ofNat 64 (v.toNat / 2 ^ (8 * b))

/-- A word of a lag record: of each bundle its position and, where the image holds registers, those that its X-half sees. -/
def Ctx.lagWord (c : Ctx) (l : List LagEntry) (o : Nat) : Word :=
  match l[o / 1280]? with
  | some e => if o % 1280 = 0 then e.pc else ({ c with regs := e.snap }).imgRead 0 (o % 1280)
  | none => 0
/-- What a result writes, its unit, cluster and guard. -/
def Flight.target (f : Flight) : Word :=
  let u : Nat := match f.unit with | .ia => 0 | .fm => 1 | .sf => 2 | .xm => 3
  let d : Nat := match f.dst with | .none => 0 | .reg n => 1 + 256 * n | .pred i => 2 + 256 * i | .queue id _ => 3 + 256 * id
  BitVec.ofNat 64 (d + 2 ^ 20 * u + 2 ^ 24 * f.cl.toNat + 2 ^ 32 * f.guard.toNat)
/-- A word of a shelf whose next X-half is bundle `xn`: of each result the bundles left until it lands, what it writes, and
its value. -/
def shelfWord (l : List Flight) (xn o : Nat) : Word :=
  match l[o / 128]? with
  | some f =>
    let b := o % 128
    if b = 0 then BitVec.ofNat 64 (f.due + 1 - xn) else if b = 8 then f.target else if 64 ≤ b then vecWord f.val (b - 64) else 0
  | none => 0
/-- A visibility count of an accumulator write: its bundles, and the accumulator. -/
def countWord (l : List ZHist) (xn o : Nat) : Word :=
  match (l.filter (fun h => h.due != heldForever))[o / 8]? with
  | some h => BitVec.ofNat 64 (h.due + 1 - xn + 2 ^ 32 * h.z.toNat)
  | none => 0
def Latches.word (l : Latches) (o : Nat) : Word := vecWord (l.vals.get 0 (o / 64)) (o % 64)
/-- A word of what a trap has set aside: its positions, frame and cause, then the parts. -/
def Ctx.asideWord (c : Ctx) (a : Aside) (o : Nat) : Word :=
  if o < 32 then [a.apc, a.xpc, a.frame, BitVec.ofNat 64 a.cause.code].getD (o / 8) 0
  else
    let o := o - 32
    if o < heavyShelf then c.lagWord a.lag o
    else if o < heavyCounts then shelfWord a.flight a.xn (o - heavyShelf)
    else if o < heavyLatch then countWord a.zhist a.xn (o - heavyCounts)
    else if o < heavyQueue then a.latches.word (o - heavyLatch)
    else 0
/-- The transit latches of a context, as it sees them. -/
def State.latchesOf (s : State) (i : BitVec 2) (c : Ctx) : Latches :=
  if i = s.cur then s.seenLatches else c.latches.getD ⟨[], []⟩
/-- A word of the heavy part of a context. -/
def State.imgHeavy (s : State) (i : BitVec 2) (c : Ctx) (o : Nat) : Word :=
  if o < heavyShelf then c.lagWord c.lag o
  else if o < heavyCounts then shelfWord c.flight c.xn (o - heavyShelf)
  else if o < heavyLatch then countWord c.zhist c.xn (o - heavyCounts)
  else if o < heavyQueue then (s.latchesOf i c).word (o - heavyLatch)
  else if o < heavyStream then
    let (q, n, b) := queuePlace (o - heavyQueue)
    match (c.queue q)[n]? with
    | some e => if b < 64 then vecWord (e.val.getD 0) b else if b = 64 ∧ e.val.isSome then 1 else 0
    | none => 0
  else if o < heavyAside then match s.streamAt i ((o - heavyStream) / 8) with
    | some t => BitVec.ofNat 64 t.next
    | none => 0
  else match c.aside with
    | some a => c.asideWord a (o - heavyAside)
    | none => 0

/-- Latches with a word replaced. -/
def Latches.put (l : Latches) (o : Nat) (v : Word) : Latches :=
  { l with vals := l.vals.set 0 (o / 64) (BitVec.ofNat 512 (putWord (l.vals.get 0 (o / 64)).toNat (o % 64) v)) }
/-- The host writes a word of it: latches, those set aside too, filled queue entries and stream positions. -/
def State.setImgHeavy (s : State) (i : BitVec 2) (o : Nat) (v : Word) : State :=
  let aside := heavyAside + 32 + heavyLatch
  if heavyLatch ≤ o ∧ o < heavyQueue then
    s.modAt i (fun c => { c with latches := some ((s.latchesOf i c).put (o - heavyLatch) v) })
  else if heavyQueue ≤ o ∧ o < heavyStream then
    let (q, n, b) := queuePlace (o - heavyQueue)
    if 64 ≤ b then s
    else s.modAt i (fun c => c.setQueue q (((c.queue q).zipIdx).map (fun p =>
      if p.2 = n then { p.1 with val := p.1.val.map (fun x => BitVec.ofNat 512 (putWord x.toNat b v)) } else p.1)))
  else if heavyStream ≤ o ∧ o < heavyAside then { s with streams := s.streams.map (fun t =>
    if t.ctx = i ∧ 6 * t.cl.toNat + t.q = (o - heavyStream) / 8 then { t with next := v.toNat } else t) }
  else if aside ≤ o ∧ o < aside + 8192 then
    s.modAt i (fun c => { c with aside := c.aside.map (fun a => { a with latches := a.latches.put (o - aside) v }) })
  else s

/-- The part of the image that lies in the core: latches, then vector registers, then the heavy part. -/
def State.imgCore (s : State) (i : BitVec 2) (c : Ctx) (off : Nat) : Word :=
  let o := off - 0x4500
  if o < 9216 * c.mcnt then
    let m := c.mbase + o / 9216
    let b := o % 9216
    if b < 8192 then BitVec.ofNat 64 ((s.m.get 0 (64 * m + b / 128)).toNat / 2 ^ (8 * (b % 128)))
    else joinHalves (fun i => s.mscale.get 0 (512 * m + (b - 8192) / 2 + i))
  else
    let q := o - 9216 * c.mcnt
    if q < 512 * c.vcnt then
      BitVec.ofNat 64 ((s.v.get 0 (640 * (q / (64 * c.vcnt)) + c.vbase + q / 64 % c.vcnt)).toNat / 2 ^ (8 * (q % 64)))
    else s.imgHeavy i c (q - 512 * c.vcnt)
def State.setImgCore (s : State) (i : BitVec 2) (c : Ctx) (off : Nat) (v : Word) : State :=
  let o := off - 0x4500
  if o < 9216 * c.mcnt then
    let m := c.mbase + o / 9216
    let b := o % 9216
    if b < 8192 then
      let k := 64 * m + b / 128
      { s with m := s.m.set 0 k (BitVec.ofNat 1024 (putWord (s.m.get 0 k).toNat (b % 128) v)) }
    else { s with mscale := ((halves v).zipIdx).foldl (fun m' p => m'.set 0 (512 * m + (b - 8192) / 2 + p.2) p.1) s.mscale }
  else
    let q := o - 9216 * c.mcnt
    if q < 512 * c.vcnt then
      let k := 640 * (q / (64 * c.vcnt)) + c.vbase + q / 64 % c.vcnt
      { s with v := s.v.set 0 k (BitVec.ofNat 512 (putWord (s.v.get 0 k).toNat (q % 64) v)) }
    else s.setImgHeavy i (q - 512 * c.vcnt) v

/-- The CIDs of a context's copies in flight. -/
def State.cidsFlying (s : State) (i : BitVec 2) : BitVec 16 :=
  BitVec.ofNat 16 ((List.range 16).foldl (fun n k => if s.cidBusy i (BitVec.ofNat 4 k) then n + 2 ^ k else n) 0)

/-- The host takes CIDs of a context out of those in flight: their copies stop, what they have written stays. A CID that no
copy has stays free (DESIGN CHOICE: R400 does not say what such a write does; log entry 57). -/
def State.landCids (s : State) (i : BitVec 2) (flying : BitVec 16) : State :=
  let gone (c : Copy) : Bool := c.ctx == i && c.cid.any (fun k => !flying.getLsbD k.toNat)
  let s1 := (s.copies.filter gone).foldl (fun s c => s.unpinCopy c) s
  { s1 with copies := s1.copies.filter (fun c => !gone c) }
/-- A write to the debug window: the selected context's image, while it is stopped. -/
def State.writeImage (s : State) (off : Nat) (v : Word) : State :=
  match s.dbgCtx with
  | none => s
  | some i =>
    let c := s.ctxAt i
    if !c.stopped then s
    else if 0x4500 ≤ off then s.setImgCore i c off v
    else (s.setCtxAt i (c.imgWrite off v)).landCids i (if off = 0x4B8 then BitVec.ofNat 16 (ufield v 32 16) else 0xFFFF)
/-- A read of it. -/
def State.readImage (s : State) (off : Nat) : Word :=
  match s.dbgCtx with
  | none => 0
  | some i =>
    let c := s.ctxAt i
    if !c.stopped then 0 else if off < 0x4500 then c.imgRead (s.cidsFlying i) off else s.imgCore i c off

/-! ### Snapshot, trace, loop counters (R385, R401 to R403) -/

/-- SNAPSHOT_FIRE: where the trigger is armed. -/
def execSnapshotFire (s : State) : Out := .next s.fireSnapshot

/-- A function's SNPCTL takes a value; FIRE fires. -/
def State.writeSnpctl (s : State) (fn : Nat) (v : Word) : State :=
  let s1 := s.setBar fn 0x80020 (v &&& 0xF)
  if v.getLsbD 31 then s1.fireFor fn else s1

/-- TRCBASE_WRITE: only while TRCEN is 0; the next record goes to the start of the ring. -/
def State.writeTrcbase (s : State) (fn : Nat) (v : Word) : State :=
  if s.barAt fn 0x80050 ≠ 0 then s
  else (({ s with trace := if fn = s.part.toNat then [] else s.trace }).setBar fn 0x80040 (v &&& 0x000FFFFFFFFFF000)).setBar fn 0x80058 0
def execTrcbaseWrite (v : Word) (s : State) : Out := .next (s.writeTrcbase s.part.toNat v)

/-- TRCLOST_CLEAR. -/
def execTrclostClear (s : State) : Out := .next (s.putBar 0x80060 0 0)

/-- LPSEL_WRITE: clears the three counters. -/
def State.writeLpsel (s : State) (fn : Nat) (v : Word) : State :=
  (((({ s with lpRun := if fn = s.part.toNat then [] else s.lpRun }).setBar fn 0x80080 (v &&& 0x3FFF)).setBar fn 0x80088 0).setBar
    fn 0x80090 0).setBar fn 0x80098 0
def execLpselWrite (v : Word) (s : State) : Out := .next (s.writeLpsel s.part.toNat v)

/-! ### BAR0 as a whole (R7, R384, R385) -/

/-- A function's register is written, reserved bits dropped. -/
def State.putOf (s : State) (fn off : Nat) (mask v : Word) : State := s.setBar fn off (v &&& mask)
/-- A value in a range is stored; another leaves the register. -/
def State.putRange (s : State) (fn off : Nat) (mask v : Word) (lo hi : Nat) : State :=
  let n := (v &&& mask).toNat
  if lo ≤ n ∧ n ≤ hi then s.putOf fn off mask v else s

/-- L2CMD: an operation raises BUSY, and writes while it stands are ignored (R103). -/
def State.writeL2cmd (s : State) (v : Word) : State :=
  if (s.bar regL2CMD).getLsbD 31 then s
  else s.putBar regL2CMD 0x80000003 ((v &&& 3) ||| (if ufield v 0 2 = 1 ∨ ufield v 0 2 = 2 then 0x80000000 else 0))

/-- DBGCMD. -/
def State.writeDbgcmd (s : State) (v : Word) : State :=
  match ufield v 0 2 with
  | 1 => s.dbgStop
  | 2 => s.dbgGo
  | 3 => s.dbgStep
  | _ => s

/-- The defined bits of the registers that only hold a value. -/
def plainMask (off : Nat) : Option Word :=
  if 0x10100 ≤ off ∧ off < 0x10180 then some 0xFFFF
  else ([(regXIVA, (0x00FFFFFFFFFF0000 : Word)), (regXIVN, 0xFFFFFFFF), (0x10200, 0xF01FF), (regCMPCTL, 1), (0x10500, 0x00FFFFFFFFFF0000),
    (0x10600, 0x000FFFF000000000), (0x80000, 1), (0x80008, 0x7FF), (0x80050, 0xFFE)].find? (·.1 == off)).map (·.2)

/-- A register that every function has and that acts in the same way whichever function it is. -/
def State.writeEach (s : State) (fn : BitVec 3) (off : Nat) (v : Word) : State :=
  let n := fn.toNat
  match plainMask off with
  | some m => s.putOf n off m v
  | none =>
    if off < 0x2000 then s.writeSlot fn (BitVec.ofNat 8 (off / 32)) (BitVec.ofNat 2 (off / 8)) v
    else if off = 0x10400 then s.putRange n off 7 v 1 4
    else if off = 0x10408 then s.putRange n off 0xFFFF v 1 65535
    else if 0x10700 ≤ off ∧ off < 0x10F00 then s.writeSpan fn (BitVec.ofNat 8 ((off - 0x10700) / 8)) v
    else if off = 0x80020 then s.writeSnpctl n v
    else if off = 0x80040 then s.writeTrcbase n v
    else if off = 0x80048 then (if s.barAt n 0x80050 = 0 then s.putRange n off 0xFFFFF v 1 1048575 else s)
    else if off = 0x80060 then (if v = 0 then s.putOf n off 0 0 else s)
    else if off = 0x80080 then s.writeLpsel n v
    else s
/-- A command of the function of this core's partition. -/
def State.writeOwn (s : State) (off : Nat) (v : Word) : State :=
  if off = regXIVC then s.xivcGo v
  else if off = regL2CMD then s.writeL2cmd v
  else if off = 0x10508 then s.dropMap v
  else if off = 0x80010 then s.writeDbgcmd v
  else if 0x100000 ≤ off ∧ off < 0x200000 then s.writeImage (off - 0x100000) v
  else s.writeEach s.part off v
/-- A command of another partition's function acts on that partition's cores and slices; the register holds what it was given
(log entry 81). -/
def State.writeOther (s : State) (fn : BitVec 3) (off : Nat) (v : Word) : State :=
  if off = regXIVC then s.putOf fn.toNat off 0x3FFF v
  else if off = regL2CMD then s.putOf fn.toNat off 3 v
  else s.writeEach fn off v

/-- A module-wide register of function 0. -/
def State.writeModule (s : State) (off : Nat) (v : Word) : State :=
  let die : BitVec 2 := BitVec.ofNat 2 ((off - 0x20000) / 0x1000)
  if 0x20000 ≤ off ∧ off < 0x24000 then
    (if off % 0x1000 = 0 then (let n := ufield v 0 8; if n = 0 then s else s.setBar 0 off (v &&& 0xFF))
     else if off % 0x1000 = 8 then
       (let n := ufield v 0 5; if 10 ≤ n ∧ n ≤ 30 then s.setBar 0 off (v &&& 0x1F) else s)
     else if off % 0x1000 = 0x10 then s.writeNsrsv die v else s)
  else if 0x30000 ≤ off ∧ off < 0x30040 then s.writePcfg (BitVec.ofNat 3 ((off - 0x30000) / 8)) v
  else if off = 0x30040 then (if v.getLsbD 0 then s else s.setBar 0 off 0)
  else if off = regTWIN then s.writeTwin v
  else if off = regCMPST then (if ufield v 0 4 = 0 then s.setBar 0 off (s.barAt 0 off &&& 0xC) else s)
  else if 0x30808 ≤ off ∧ off < 0x31000 then s.setBar 0 off (v &&& 0xFFFFFFFFFFFF0FFF)
  else if off = regPWRCAP then s.writePwrcap v
  else s

def isModule (off : Nat) : Bool := decide (0x20000 ≤ off ∧ off < 0x80000)

/-- REGISTER_WRITE: a write to the BAR0 of a function; accesses that are not of 8 aligned bytes, and reserved or read-only
offsets, are dropped. The module-wide registers are function 0's. -/
def State.writeReg (s : State) (fn : BitVec 3) (off : Nat) (v : Word) : State :=
  if off % 8 ≠ 0 then s
  else if isModule off then (if fn = 0 then s.writeModule off v else s)
  else if fn = s.part then s.writeOwn off v else s.writeOther fn off v
def execRegisterWrite (place : RegPlace) (v : Word) (s : State) : Out := .next (s.writeReg place.fn place.off v)

/-- Valid lines of a class: in one slice, or in the partition's. -/
def State.linesOfClass (s : State) (cls : Nat) (slice : Option Nat) : Nat :=
  s.l2.countP (fun l => l.cls.toNat == cls && s.partOf (groupOf l.slice) == some s.part &&
    (match slice with | some n => l.slice == n | none => true))
/-- Where the debug window shows the snapshot copies of L2OCC0 to L2OCC15 (DESIGN CHOICE: R384 gives no offset; log entry
37). -/
def snapOff : Nat := 0x1FFF80

/-- What a register of a function that counts or shows something reads as. Another partition's slices, cores and contexts are
not in the model: what its registers show of them is a free value (log entry 81). -/
def State.readLive (s : State) (fn : BitVec 3) (off : Nat) : Option Word :=
  let n (x : Nat) : Word := BitVec.ofNat 64 x
  let ours (x : Nat) (m : Nat) : Option Word :=
    if fn = s.part then some (n x) else some (n ((Config.freeWord (s.fresh + off)).toNat % m))
  if 0x10180 ≤ off ∧ off < 0x10200 then ours (s.linesOfClass ((off - 0x10180) / 8) none) (2 ^ 24)
  else if off = 0x10208 then
    ours (s.linesOfClass (ufield (s.barAt fn.toNat 0x10200) 16 4) (some (ufield (s.barAt fn.toNat 0x10200) 0 9))) (2 ^ 15)
  else if off = 0x10308 then some (s.cmpSaved.get 0 fn.toNat)
  else if off = 0x10410 then
    let ph (p : CtxPhase) : Nat := ([0, 1, 2, 3] : List (BitVec 2)).countP (fun i => (s.ctxAt i).phase == p)
    let l := s.launches.countP (fun l => l.part == fn && !l.done)
    if fn = s.part then some (n (l + 65536 * ph .admitted + 2 ^ 32 * ph .running))
    else some (n l + (Config.freeWord (s.fresh + off) &&& 0xFFF0FFF0000))
  else if off = 0x80018 then
    (match (if fn = s.part then s.dbgCtx else none) with
    | some i =>
      let c := s.ctxAt i
      some (n ((if c.stopped then 1 else 0) + 2 * c.stopCause.toNat + 2 ^ 32 * (c.pc.toNat % 2 ^ 32)))
    | none => ours 0 (2 ^ 64))
  else if snapOff ≤ off then some (s.snap.get 0 (16 * fn.toNat + (off - snapOff) / 8))
  else if 0x100000 ≤ off then (if fn = s.part then some (s.readImage (off - 0x100000)) else ours 0 (2 ^ 64))
  else none
/-- What a host read of an aligned word of a function's BAR0 returns (R384): before stage 7 only BOOTST is seen (R394). -/
def State.readWord (s : State) (p : RegPlace) : Word :=
  let off := p.off
  if isModule off && p.fn != 0 then 0
  else if off = 0x40000 then s.bootst
  else if s.boot.stage ≠ 7 ∨ 0x200000 ≤ off then 0
  else if 0x20000 ≤ off ∧ off < 0x24000 ∧ off % 0x1000 = 0x18 then BitVec.ofNat 64 (s.framesUsed (BitVec.ofNat 2 ((off - 0x20000) / 0x1000)))
  -- a temperature is a free value (log entry 28)
  else if 0x40100 ≤ off ∧ off < 0x401A8 then BitVec.ofNat 64 ((Config.freeWord (s.fresh + off)).toNat % 65536)
  else (s.readLive p.fn off).getD (s.barAt p.fn.toNat off)
/-- A host read; none is an Unsupported Request, which any access but one of 8 aligned bytes meets (R384). -/
def State.readReg (s : State) (p : RegPlace) : Option Word := if p.off % 8 = 0 then some (s.readWord p) else none

/-! ### Function-level reset (R388) -/

/-- Every job of this core's partition is cancelled at job level, those of launches not read yet too; where a job descriptor
cannot be read, the launch's first read discards it (R353, R388). -/
def State.cancelJobs (s : State) : State :=
  let job (s : State) (l : Launch) : Option Word × State := match l.job with
    | some j => (some j.jjcb, s)
    | none => match s.jobWords l.jd with
      | (.ok d, s1) => (some (jobOf d).jjcb, s1)
      | (.error _, s1) => (none, s1)
  (s.launches.filter (fun l => l.part == s.part && !l.done)).foldl (fun s l => match job s l with
    | (some va, s1) => if s1.cancelQ.contains (4, l.jd, va, 0) then s1 else s1.queueCancel 4 l.jd va 0
    | (none, s1) => s1) s
/-- Every job of a partition is cancelled; what another partition's dispatcher does with its own is not this core's (log
entry 81). -/
def State.cancelPart (s : State) (fn : BitVec 3) : State :=
  if fn = s.part then s.cancelJobs
  else { s with launches := s.launches.map (fun l => if l.part = fn ∧ !l.done then { l with cancelled := true } else l) }
/-- FUNCTION_LEVEL_RESET of the function that the host names: its partition's jobs are cancelled, its slots discarded, its
registers at their reset values; module-wide registers stay. -/
def execFunctionLevelReset (s : State) : Out :=
  .next (
    let cut (p : Nat × Word) : Bool := p.1 / 2097152 == s.flrFn.toNat && !isModule (p.1 % 2097152)
    let own := s.flrFn = s.part
    let s1 := s.cancelPart s.flrFn
    { s1 with bar0 := (bar0Reset.filter cut).foldl (fun m p => m.insert p.1 p.2) (s1.bar0.filter (fun p => !cut p))
              cmpSaved := s1.cmpSaved.set 0 s.flrFn.toNat 0
              lpRun := if own then [] else s1.lpRun, trace := if own then [] else s1.trace, inval := if own then none else s1.inval })

end Sys2Proof.Machine
end

