-- ==== Sys2Proof/Machine/Dispatch.lean ====
section
/-! DEFINITION. Which meaning each instruction has: one arm for each constructor. -/

namespace Sys2Proof.Machine

/-- The meaning of every instruction and event. -/
def exec (i : Instr) (s : State) : Host.Outcome State Fault Refusal :=
  match i with
  | .aHalfIssue => Sys2Proof.Machine.execAHalfIssue s
  | .xHalfIssue => Sys2Proof.Machine.execXHalfIssue s
  | .resultLanding => Sys2Proof.Machine.execResultLanding s
  | .yield => Sys2Proof.Machine.execYield s
  | .contextSwitch => Sys2Proof.Machine.execContextSwitch s
  | .quantumExpiry => Sys2Proof.Machine.execQuantumExpiry s
  | .bundleExpansion => Sys2Proof.Machine.execBundleExpansion s
  | .quireFetch x1 => Sys2Proof.Machine.execQuireFetch x1 s
  | .nop => Sys2Proof.Machine.execNop s
  | .bra x1 => Sys2Proof.Machine.execBra x1 s
  | .brf x1 x2 x3 => Sys2Proof.Machine.execBrf x1 x2 x3 s
  | .brq x1 x2 => Sys2Proof.Machine.execBrq x1 x2 s
  | .brp x1 x2 x3 => Sys2Proof.Machine.execBrp x1 x2 x3 s
  | .jmpr x1 x2 x3 x4 => Sys2Proof.Machine.execJmpr x1 x2 x3 x4 s
  | .call x1 x2 => Sys2Proof.Machine.execCall x1 x2 s
  | .ret x1 x2 x3 => Sys2Proof.Machine.execRet x1 x2 x3 s
  | .loop x1 x2 x3 => Sys2Proof.Machine.execLoop x1 x2 x3 s
  | .lend x1 x2 => Sys2Proof.Machine.execLend x1 x2 s
  | .jtab x1 x2 x3 x4 => Sys2Proof.Machine.execJtab x1 x2 x3 x4 s
  | .trap x1 x2 x3 => Sys2Proof.Machine.execTrap x1 x2 x3 s
  | .trapSet x1 x2 x3 => Sys2Proof.Machine.execTrapSet x1 x2 x3 s
  | .trapClr => Sys2Proof.Machine.execTrapClr s
  | .retire => Sys2Proof.Machine.execRetire s
  | .trig => Sys2Proof.Machine.execTrig s
  | .wvis => Sys2Proof.Machine.execWvis s
  | .eret => Sys2Proof.Machine.execEret s
  | .eretGo x1 => Sys2Proof.Machine.execEretGo x1 s
  | .bara x1 x2 x3 => Sys2Proof.Machine.execBara x1 x2 x3 s
  | .barw x1 x2 x3 => Sys2Proof.Machine.execBarw x1 x2 x3 s
  | .grow x1 => Sys2Proof.Machine.execGrow x1 s
  | .add x1 => Sys2Proof.Machine.execAdd x1 s
  | .sub x1 => Sys2Proof.Machine.execSub x1 s
  | .and x1 => Sys2Proof.Machine.execAnd x1 s
  | .or x1 => Sys2Proof.Machine.execOr x1 s
  | .xor x1 => Sys2Proof.Machine.execXor x1 s
  | .shl x1 => Sys2Proof.Machine.execShl x1 s
  | .shr x1 => Sys2Proof.Machine.execShr x1 s
  | .sra x1 => Sys2Proof.Machine.execSra x1 s
  | .mul x1 => Sys2Proof.Machine.execMul x1 s
  | .mulh x1 => Sys2Proof.Machine.execMulh x1 s
  | .mulhw x1 => Sys2Proof.Machine.execMulhw x1 s
  | .min x1 => Sys2Proof.Machine.execMin x1 s
  | .max x1 => Sys2Proof.Machine.execMax x1 s
  | .wmin x1 => Sys2Proof.Machine.execWmin x1 s
  | .wmax x1 => Sys2Proof.Machine.execWmax x1 s
  | .addi x1 => Sys2Proof.Machine.execAddi x1 s
  | .andi x1 => Sys2Proof.Machine.execAndi x1 s
  | .ori x1 => Sys2Proof.Machine.execOri x1 s
  | .xori x1 => Sys2Proof.Machine.execXori x1 s
  | .shli x1 => Sys2Proof.Machine.execShli x1 s
  | .shri x1 => Sys2Proof.Machine.execShri x1 s
  | .srai x1 => Sys2Proof.Machine.execSrai x1 s
  | .li x1 x2 x3 => Sys2Proof.Machine.execLi x1 x2 x3 s
  | .lih x1 => Sys2Proof.Machine.execLih x1 s
  | .lea x1 x2 x3 => Sys2Proof.Machine.execLea x1 x2 x3 s
  | .cmpeq x1 => Sys2Proof.Machine.execCmpeq x1 s
  | .cmplt x1 => Sys2Proof.Machine.execCmplt x1 s
  | .cmpltw x1 => Sys2Proof.Machine.execCmpltw x1 s
  | .cmpeqi x1 => Sys2Proof.Machine.execCmpeqi x1 s
  | .cmplti x1 => Sys2Proof.Machine.execCmplti x1 s
  | .selk x1 x2 => Sys2Proof.Machine.execSelk x1 x2 s
  | .kand x1 => Sys2Proof.Machine.execKand x1 s
  | .kor x1 => Sys2Proof.Machine.execKor x1 s
  | .kxor x1 => Sys2Proof.Machine.execKxor x1 s
  | .knot x1 x2 x3 => Sys2Proof.Machine.execKnot x1 x2 x3 s
  | .bfx x1 x2 x3 => Sys2Proof.Machine.execBfx x1 x2 x3 s
  | .bfi x1 x2 x3 => Sys2Proof.Machine.execBfi x1 x2 x3 s
  | .clz x1 => Sys2Proof.Machine.execClz x1 s
  | .ctz x1 => Sys2Proof.Machine.execCtz x1 s
  | .popc x1 => Sys2Proof.Machine.execPopc x1 s
  | .mfsr x1 x2 x3 => Sys2Proof.Machine.execMfsr x1 x2 x3 s
  | .mtsr x1 x2 x3 => Sys2Proof.Machine.execMtsr x1 x2 x3 s
  | .getg x1 x2 x3 => Sys2Proof.Machine.execGetg x1 x2 x3 s
  | .setg x1 x2 x3 => Sys2Proof.Machine.execSetg x1 x2 x3 s
  | .popsq x1 x2 => Sys2Proof.Machine.execPopsq x1 x2 s
  | .popbq x1 x2 => Sys2Proof.Machine.execPopbq x1 x2 s
  | .lda x1 x2 x3 => Sys2Proof.Machine.execLda x1 x2 x3 s
  | .ldaLocal x1 x2 x3 => Sys2Proof.Machine.execLdaLocal x1 x2 x3 s
  | .sta x1 x2 x3 => Sys2Proof.Machine.execSta x1 x2 x3 s
  | .staLocal x1 x2 x3 => Sys2Proof.Machine.execStaLocal x1 x2 x3 s
  | .ldq x1 x2 => Sys2Proof.Machine.execLdq x1 x2 s
  | .ldqLocal x1 x2 => Sys2Proof.Machine.execLdqLocal x1 x2 s
  | .ldqx x1 x2 => Sys2Proof.Machine.execLdqx x1 x2 s
  | .ldqxLocal x1 x2 => Sys2Proof.Machine.execLdqxLocal x1 x2 s
  | .stq x1 x2 => Sys2Proof.Machine.execStq x1 x2 s
  | .stqLocal x1 x2 => Sys2Proof.Machine.execStqLocal x1 x2 s
  | .loadDataArrival x1 => Sys2Proof.Machine.execLoadDataArrival x1 s
  | .storePerformed x1 => Sys2Proof.Machine.execStorePerformed x1 s
  | .atomAdd x1 x2 => Sys2Proof.Machine.execAtomAdd x1 x2 s
  | .atomMin x1 x2 => Sys2Proof.Machine.execAtomMin x1 x2 s
  | .atomMax x1 x2 => Sys2Proof.Machine.execAtomMax x1 x2 s
  | .atomWmin x1 x2 => Sys2Proof.Machine.execAtomWmin x1 x2 s
  | .atomWmax x1 x2 => Sys2Proof.Machine.execAtomWmax x1 x2 s
  | .atomAnd x1 x2 => Sys2Proof.Machine.execAtomAnd x1 x2 s
  | .atomOr x1 x2 => Sys2Proof.Machine.execAtomOr x1 x2 s
  | .atomXor x1 x2 => Sys2Proof.Machine.execAtomXor x1 x2 s
  | .atomSwap x1 x2 => Sys2Proof.Machine.execAtomSwap x1 x2 s
  | .atomCas x1 x2 => Sys2Proof.Machine.execAtomCas x1 x2 s
  | .atomFadd x1 x2 => Sys2Proof.Machine.execAtomFadd x1 x2 s
  | .atomQadd x1 x2 => Sys2Proof.Machine.execAtomQadd x1 x2 s
  | .atomLocal x1 x2 x3 => Sys2Proof.Machine.execAtomLocal x1 x2 x3 s
  | .clrd x1 x2 => Sys2Proof.Machine.execClrd x1 x2 s
  | .cmstStage x1 x2 => Sys2Proof.Machine.execCmstStage x1 x2 s
  | .cmstCommit x1 x2 x3 => Sys2Proof.Machine.execCmstCommit x1 x2 x3 s
  | .cmab => Sys2Proof.Machine.execCmab s
  | .fence x1 x2 => Sys2Proof.Machine.execFence x1 x2 s
  | .sbind x1 x2 x3 x4 => Sys2Proof.Machine.execSbind x1 x2 x3 x4 s
  | .sunb x1 => Sys2Proof.Machine.execSunb x1 s
  | .sfence => Sys2Proof.Machine.execSfence s
  | .segnew x1 x2 x3 x4 x5 => Sys2Proof.Machine.execSegnew x1 x2 x3 x4 x5 s
  | .segfree x1 => Sys2Proof.Machine.execSegfree x1 s
  | .segpin x1 => Sys2Proof.Machine.execSegpin x1 s
  | .segunpin x1 => Sys2Proof.Machine.execSegunpin x1 s
  | .segsz x1 x2 => Sys2Proof.Machine.execSegsz x1 x2 s
  | .segclr x1 x2 x3 x4 => Sys2Proof.Machine.execSegclr x1 x2 x3 x4 s
  | .segfmt x1 x2 x3 => Sys2Proof.Machine.execSegfmt x1 x2 x3 s
  | .shld x1 x2 x3 => Sys2Proof.Machine.execShld x1 x2 x3 s
  | .shst x1 x2 x3 => Sys2Proof.Machine.execShst x1 x2 x3 s
  | .cpss x1 x2 x3 x4 x5 x6 => Sys2Proof.Machine.execCpss x1 x2 x3 x4 x5 x6 s
  | .cpsp x1 x2 x3 x4 x5 x6 x7 => Sys2Proof.Machine.execCpsp x1 x2 x3 x4 x5 x6 x7 s
  | .cpgs x1 x2 x3 x4 x5 x6 => Sys2Proof.Machine.execCpgs x1 x2 x3 x4 x5 x6 s
  | .cpsg x1 x2 x3 x4 x5 x6 => Sys2Proof.Machine.execCpsg x1 x2 x3 x4 x5 x6 s
  | .cpts x1 x2 x3 x4 x5 x6 => Sys2Proof.Machine.execCpts x1 x2 x3 x4 x5 x6 s
  | .cpst x1 x2 x3 x4 x5 x6 => Sys2Proof.Machine.execCpst x1 x2 x3 x4 x5 x6 s
  | .cpwarm x1 x2 x3 x4 => Sys2Proof.Machine.execCpwarm x1 x2 x3 x4 s
  | .cpfill x1 x2 x3 x4 x5 => Sys2Proof.Machine.execCpfill x1 x2 x3 x4 x5 s
  | .cpwait x1 x2 => Sys2Proof.Machine.execCpwait x1 x2 s
  | .cpcan x1 => Sys2Proof.Machine.execCpcan x1 s
  | .copyUnitWrite x1 => Sys2Proof.Machine.execCopyUnitWrite x1 s
  | .copyCompletion x1 => Sys2Proof.Machine.execCopyCompletion x1 s
  | .parkedAccessRelease x1 x2 => Sys2Proof.Machine.execParkedAccessRelease x1 x2 s
  | .xpin x1 x2 x3 x4 x5 => Sys2Proof.Machine.execXpin x1 x2 x3 x4 x5 s
  | .xpout => Sys2Proof.Machine.execXpout s
  | .xmit x1 x2 => Sys2Proof.Machine.execXmit x1 x2 s
  | .xsel x1 x2 x3 => Sys2Proof.Machine.execXsel x1 x2 x3 s
  | .phaseStart => Sys2Proof.Machine.execPhaseStart s
  | .phasetimeout => Sys2Proof.Machine.execPhasetimeout s
  | .routerCycle => Sys2Proof.Machine.execRouterCycle s
  | .phaseabort x1 => Sys2Proof.Machine.execPhaseabort x1 s
  | .cgjoin x1 x2 x3 x4 => Sys2Proof.Machine.execCgjoin x1 x2 x3 x4 s
  | .cgred x1 x2 x3 x4 x5 x6 x7 x8 x9 x10 => Sys2Proof.Machine.execCgred x1 x2 x3 x4 x5 x6 x7 x8 x9 x10 s
  | .cgbc x1 x2 x3 x4 x5 x6 x7 x8 x9 => Sys2Proof.Machine.execCgbc x1 x2 x3 x4 x5 x6 x7 x8 x9 s
  | .cgleave x1 => Sys2Proof.Machine.execCgleave x1 s
  | .collectiveStart x1 => Sys2Proof.Machine.execCollectiveStart x1 s
  | .groupDrained x1 => Sys2Proof.Machine.execGroupDrained x1 s
  | .enq x1 x2 x3 x4 => Sys2Proof.Machine.execEnq x1 x2 x3 x4 s
  | .enqDelivery x1 => Sys2Proof.Machine.execEnqDelivery x1 s
  | .mld x1 x2 x3 x4 => Sys2Proof.Machine.execMld x1 x2 x3 x4 s
  | .zclr x1 => Sys2Proof.Machine.execZclr x1 s
  | .mma x1 x2 x3 x4 x5 x6 x7 => Sys2Proof.Machine.execMma x1 x2 x3 x4 x5 x6 x7 s
  | .zrd x1 x2 x3 => Sys2Proof.Machine.execZrd x1 x2 x3 s
  | .zst x1 x2 x3 x4 x5 => Sys2Proof.Machine.execZst x1 x2 x3 x4 x5 s
  | .tileFetch x1 => Sys2Proof.Machine.execTileFetch x1 s
  | .arrayAccept => Sys2Proof.Machine.execArrayAccept s
  | .zstWritePerformed x1 => Sys2Proof.Machine.execZstWritePerformed x1 s
  | .iadd x1 => Sys2Proof.Machine.execIadd x1 s
  | .isub x1 => Sys2Proof.Machine.execIsub x1 s
  | .imin x1 => Sys2Proof.Machine.execImin x1 s
  | .imax x1 => Sys2Proof.Machine.execImax x1 s
  | .vWmin x1 => Sys2Proof.Machine.execVWmin x1 s
  | .vWmax x1 => Sys2Proof.Machine.execVWmax x1 s
  | .iabs x1 => Sys2Proof.Machine.execIabs x1 s
  | .vAnd x1 => Sys2Proof.Machine.execVAnd x1 s
  | .vOr x1 => Sys2Proof.Machine.execVOr x1 s
  | .vXor x1 => Sys2Proof.Machine.execVXor x1 s
  | .andn x1 => Sys2Proof.Machine.execAndn x1 s
  | .vShl x1 => Sys2Proof.Machine.execVShl x1 s
  | .vShr x1 => Sys2Proof.Machine.execVShr x1 s
  | .vSra x1 => Sys2Proof.Machine.execVSra x1 s
  | .rol x1 => Sys2Proof.Machine.execRol x1 s
  | .iadds x1 => Sys2Proof.Machine.execIadds x1 s
  | .isubs x1 => Sys2Proof.Machine.execIsubs x1 s
  | .wadds x1 => Sys2Proof.Machine.execWadds x1 s
  | .wsubs x1 => Sys2Proof.Machine.execWsubs x1 s
  | .imul x1 => Sys2Proof.Machine.execImul x1 s
  | .imulh x1 => Sys2Proof.Machine.execImulh x1 s
  | .wmulh x1 => Sys2Proof.Machine.execWmulh x1 s
  | .vdot4 x1 x2 => Sys2Proof.Machine.execVdot4 x1 x2 s
  | .vPopc x1 => Sys2Proof.Machine.execVPopc x1 s
  | .vClz x1 => Sys2Proof.Machine.execVClz x1 s
  | .sel x1 => Sys2Proof.Machine.execSel x1 s
  | .mov x1 => Sys2Proof.Machine.execMov x1 s
  | .vBfx x1 => Sys2Proof.Machine.execVBfx x1 s
  | .vBfi x1 => Sys2Proof.Machine.execVBfi x1 s
  | .laneCompare x1 x2 x3 x4 x5 => Sys2Proof.Machine.execLaneCompare x1 x2 x3 x4 x5 s
  | .pand x1 => Sys2Proof.Machine.execPand x1 s
  | .por x1 => Sys2Proof.Machine.execPor x1 s
  | .pxor x1 => Sys2Proof.Machine.execPxor x1 s
  | .pnot x1 x2 x3 => Sys2Proof.Machine.execPnot x1 x2 x3 s
  | .pany x1 x2 x3 => Sys2Proof.Machine.execPany x1 x2 x3 s
  | .pcnt x1 x2 x3 => Sys2Proof.Machine.execPcnt x1 x2 x3 s
  | .lperm x1 => Sys2Proof.Machine.execLperm x1 s
  | .lbc x1 => Sys2Proof.Machine.execLbc x1 s
  | .lrot x1 => Sys2Proof.Machine.execLrot x1 s
  | .xmv x1 x2 x3 x4 => Sys2Proof.Machine.execXmv x1 x2 x3 x4 s
  | .xbc x1 x2 x3 x4 x5 => Sys2Proof.Machine.execXbc x1 x2 x3 x4 x5 s
  | .cvt x1 x2 => Sys2Proof.Machine.execCvt x1 x2 s
  | .cvtWiden x1 x2 x3 => Sys2Proof.Machine.execCvtWiden x1 x2 x3 s
  | .cvtNarrow x1 x2 x3 x4 x5 x6 => Sys2Proof.Machine.execCvtNarrow x1 x2 x3 x4 x5 x6 s
  | .qntE2m1b x1 => Sys2Proof.Machine.execQntE2m1b x1 s
  | .dqntE2m1b x1 x2 => Sys2Proof.Machine.execDqntE2m1b x1 x2 s
  | .fadd x1 => Sys2Proof.Machine.execFadd x1 s
  | .fsub x1 => Sys2Proof.Machine.execFsub x1 s
  | .fmul x1 => Sys2Proof.Machine.execFmul x1 s
  | .ffma x1 => Sys2Proof.Machine.execFfma x1 s
  | .ffms x1 => Sys2Proof.Machine.execFfms x1 s
  | .fnma x1 => Sys2Proof.Machine.execFnma x1 s
  | .fdiv x1 => Sys2Proof.Machine.execFdiv x1 s
  | .fsqrt x1 => Sys2Proof.Machine.execFsqrt x1 s
  | .fmin x1 => Sys2Proof.Machine.execFmin x1 s
  | .fmax x1 => Sys2Proof.Machine.execFmax x1 s
  | .fabs x1 => Sys2Proof.Machine.execFabs x1 s
  | .fneg x1 => Sys2Proof.Machine.execFneg x1 s
  | .fcps x1 => Sys2Proof.Machine.execFcps x1 s
  | .fclass x1 => Sys2Proof.Machine.execFclass x1 s
  | .vred x1 x2 => Sys2Proof.Machine.execVred x1 x2 s
  | .frcp x1 => Sys2Proof.Machine.execFrcp x1 s
  | .frsq x1 => Sys2Proof.Machine.execFrsq x1 s
  | .fexp2 x1 => Sys2Proof.Machine.execFexp2 x1 s
  | .flog2 x1 => Sys2Proof.Machine.execFlog2 x1 s
  | .fsin x1 => Sys2Proof.Machine.execFsin x1 s
  | .fcos x1 => Sys2Proof.Machine.execFcos x1 s
  | .ftanh x1 => Sys2Proof.Machine.execFtanh x1 s
  | .fsigm x1 => Sys2Proof.Machine.execFsigm x1 s
  | .specialFunction16 x1 x2 x3 => Sys2Proof.Machine.execSpecialFunction16 x1 x2 x3 s
  | .qenc x1 x2 => Sys2Proof.Machine.execQenc x1 x2 s
  | .qadd x1 => Sys2Proof.Machine.execQadd x1 s
  | .qsub x1 => Sys2Proof.Machine.execQsub x1 s
  | .qneg x1 => Sys2Proof.Machine.execQneg x1 s
  | .qmul x1 => Sys2Proof.Machine.execQmul x1 s
  | .qdiv x1 => Sys2Proof.Machine.execQdiv x1 s
  | .qinv x1 => Sys2Proof.Machine.execQinv x1 s
  | .qcmpeq x1 x2 x3 x4 => Sys2Proof.Machine.execQcmpeq x1 x2 x3 x4 s
  | .qdig x1 x2 => Sys2Proof.Machine.execQdig x1 x2 s
  | .qsetd x1 x2 => Sys2Proof.Machine.execQsetd x1 x2 s
  | .qdec x1 x2 => Sys2Proof.Machine.execQdec x1 x2 s
  | .qcvt x1 => Sys2Proof.Machine.execQcvt x1 s
  | .tlbMiss x1 x2 => Sys2Proof.Machine.execTlbMiss x1 x2 s
  | .pageWalk x1 x2 => Sys2Proof.Machine.execPageWalk x1 x2 s
  | .xivcGo x1 => Sys2Proof.Machine.execXivcGo x1 s
  | .invalidationComplete => Sys2Proof.Machine.execInvalidationComplete s
  | .nsEpochEnd x1 => Sys2Proof.Machine.execNsEpochEnd x1 s
  | .nsPromotion x1 x2 => Sys2Proof.Machine.execNsPromotion x1 x2 s
  | .nsDemotion x1 x2 => Sys2Proof.Machine.execNsDemotion x1 x2 s
  | .nsrsvWrite x1 x2 => Sys2Proof.Machine.execNsrsvWrite x1 x2 s
  | .layerPowerDown x1 => Sys2Proof.Machine.execLayerPowerDown x1 s
  | .hbmWake x1 => Sys2Proof.Machine.execHbmWake x1 s
  | .tminvWrite x1 => Sys2Proof.Machine.execTminvWrite x1 s
  | .l2wmWrite x1 x2 => Sys2Proof.Machine.execL2wmWrite x1 x2 s
  | .l2WriteBack => Sys2Proof.Machine.execL2WriteBack s
  | .l2WriteBackInvalidate => Sys2Proof.Machine.execL2WriteBackInvalidate s
  | .cmpctlWrite x1 => Sys2Proof.Machine.execCmpctlWrite x1 s
  | .linkReplay x1 => Sys2Proof.Machine.execLinkReplay x1 s
  | .linkRetrain x1 => Sys2Proof.Machine.execLinkRetrain x1 s
  | .segmentRecall => Sys2Proof.Machine.execSegmentRecall s
  | .pushOut x1 x2 => Sys2Proof.Machine.execPushOut x1 x2 s
  | .tamperMove x1 x2 x3 => Sys2Proof.Machine.execTamperMove x1 x2 x3 s
  | .deckleTakeWay => Sys2Proof.Machine.execDeckleTakeWay s
  | .deckleGiveWay => Sys2Proof.Machine.execDeckleGiveWay s
  | .deckleEpochEnd => Sys2Proof.Machine.execDeckleEpochEnd s
  | .streamFetch x1 => Sys2Proof.Machine.execStreamFetch x1 s
  | .streamWrite x1 => Sys2Proof.Machine.execStreamWrite x1 s
  | .admission x1 => Sys2Proof.Machine.execAdmission x1 s
  | .launchCheck x1 => Sys2Proof.Machine.execLaunchCheck x1 s
  | .lookaheadRevoke => Sys2Proof.Machine.execLookaheadRevoke s
  | .stagingStart x1 x2 => Sys2Proof.Machine.execStagingStart x1 x2 s
  | .stagingAbandon x1 => Sys2Proof.Machine.execStagingAbandon x1 s
  | .refill x1 x2 => Sys2Proof.Machine.execRefill x1 x2 s
  | .dispatch x1 => Sys2Proof.Machine.execDispatch x1 s
  | .taskRelease x1 => Sys2Proof.Machine.execTaskRelease x1 s
  | .jcbPost => Sys2Proof.Machine.execJcbPost s
  | .cancelApply => Sys2Proof.Machine.execCancelApply s
  | .enqueueTake x1 => Sys2Proof.Machine.execEnqueueTake x1 s
  | .drainPoint => Sys2Proof.Machine.execDrainPoint s
  | .heavySave x1 => Sys2Proof.Machine.execHeavySave x1 s
  | .preemptTask x1 => Sys2Proof.Machine.execPreemptTask x1 s
  | .taskResume x1 => Sys2Proof.Machine.execTaskResume x1 s
  | .trapEntry x1 => Sys2Proof.Machine.execTrapEntry x1 s
  | .trapToControlCore x1 => Sys2Proof.Machine.execTrapToControlCore x1 s
  | .softError x1 => Sys2Proof.Machine.execSoftError x1 s
  | .coreMigration x1 x2 => Sys2Proof.Machine.execCoreMigration x1 x2 s
  | .sliceSpare x1 x2 => Sys2Proof.Machine.execSliceSpare x1 x2 s
  | .thermalThrottle x1 => Sys2Proof.Machine.execThermalThrottle x1 s
  | .thermalShutdown x1 => Sys2Proof.Machine.execThermalShutdown x1 s
  | .pwrcapWrite x1 => Sys2Proof.Machine.execPwrcapWrite x1 s
  | .launch => Sys2Proof.Machine.execLaunch s
  | .cancel => Sys2Proof.Machine.execCancel s
  | .preempt => Sys2Proof.Machine.execPreempt s
  | .resume => Sys2Proof.Machine.execResume s
  | .tbind => Sys2Proof.Machine.execTbind s
  | .tunbind => Sys2Proof.Machine.execTunbind s
  | .qcreate => Sys2Proof.Machine.execQcreate s
  | .qdestroy => Sys2Proof.Machine.execQdestroy s
  | .functionLevelReset => Sys2Proof.Machine.execFunctionLevelReset s
  | .bar2Read x1 => Sys2Proof.Machine.execBar2Read x1 s
  | .bar2Write x1 x2 => Sys2Proof.Machine.execBar2Write x1 x2 s
  | .pcfgWrite x1 x2 => Sys2Proof.Machine.execPcfgWrite x1 x2 s
  | .twinWrite x1 => Sys2Proof.Machine.execTwinWrite x1 s
  | .cmpstClear => Sys2Proof.Machine.execCmpstClear s
  | .comparatorCheck x1 x2 => Sys2Proof.Machine.execComparatorCheck x1 x2 s
  | .cgspanWrite x1 x2 => Sys2Proof.Machine.execCgspanWrite x1 x2 s
  | .dbgStop => Sys2Proof.Machine.execDbgStop s
  | .dbgGo => Sys2Proof.Machine.execDbgGo s
  | .dbgStep => Sys2Proof.Machine.execDbgStep s
  | .snapshotFire => Sys2Proof.Machine.execSnapshotFire s
  | .trcbaseWrite x1 => Sys2Proof.Machine.execTrcbaseWrite x1 s
  | .trclostClear => Sys2Proof.Machine.execTrclostClear s
  | .lpselWrite x1 => Sys2Proof.Machine.execLpselWrite x1 s
  | .pcfgsClear => Sys2Proof.Machine.execPcfgsClear s
  | .registerWrite x1 x2 => Sys2Proof.Machine.execRegisterWrite x1 x2 s
  | .powerOn x1 => Sys2Proof.Machine.execPowerOn x1 s
  | .bootLinkUp x1 => Sys2Proof.Machine.execBootLinkUp x1 s
  | .bootDhcp x1 => Sys2Proof.Machine.execBootDhcp x1 s
  | .bootTftp x1 => Sys2Proof.Machine.execBootTftp x1 s
  | .imageVerify x1 => Sys2Proof.Machine.execImageVerify x1 s
  | .bootConfigure x1 => Sys2Proof.Machine.execBootConfigure x1 s
  | .mailboxSlotWrite x1 x2 x3 => Sys2Proof.Machine.execMailboxSlotWrite x1 x2 x3 s
  | .badrec => Sys2Proof.Machine.execBadrec s
  | .remoteWindowAccess x1 x2 => Sys2Proof.Machine.execRemoteWindowAccess x1 x2 s
  | .throttleRelease x1 => Sys2Proof.Machine.execThrottleRelease x1 s

end Sys2Proof.Machine
end

