-- ==== Sys2Proof/Machine/Load.lean ====
section
/-! DEFINITION. The load of a program from outside the machine: one bundle, placed where the next half issues. -/

namespace Sys2Proof.Machine

/-- The task that stands for a launch of a program from outside the machine. -/
def loadedTask : Task :=
  { launch := 0, x := 0, y := 0, part := 0, jd := 0, job := Task.zeroJob, h := 8192, rl := 0, anchored := 0, swlo := 1,
    swhi := 16, did := 0, dict := 0, trig := false, inp := false, dim2 := false, weight := 2 ^ 31, erl := [], ws := [],
    refills := [], staged := [], ljcb := 0, cmpw := false, st := .ok, seq := 0, adm := 0 }

/-- A quire of one literal bundle. -/
def oneBundle (asid : BitVec 12) (did : BitVec 16) (w : Nat) : Quire :=
  { asid := asid, frame := 0, hdr := [49, 0, 0, did.setWidth 64, 0, 0, 0, 0]
    body := 0xFFFF :: (List.range 48).map (fun i => BitVec.ofNat 16 (w / 65536 ^ i)) }

/-- The context on the core runs a task, and stands at the first position of the quire at address 0. -/
def Ctx.placed (c : Ctx) : Ctx :=
  let c : Ctx := if c.phase = .running then c else { Ctx.zero with phase := .running, task := some loadedTask, vcnt := 640, mcnt := 8 }
  let c : Ctx := if c.task.isNone then { c with task := some loadedTask } else c
  { c with pc := 64, npc := 64, lag := [], xn := c.an, stopped := false, brkOnce := false, yielding := false, quantum := 0
           latches := none, drained := none, halt := false, stepTo := none, aview := none, xview := none }

/-- A word stands as a literal bundle where the next half issues. The A-half of a bundle with slots of the X-half only
has issued, so that the next step is its X-half. -/
def State.placeWord (s : State) (w : Nat) : State :=
  let c := s.ctx.placed
  let s1 : State := { s with
    agenda := [], mark := .clear, inReset := false, frozen := false, online := true, reqs := [], parked := [], phase := none
    ctx := c, loopBuf := [oneBundle c.job.asid ((c.task.map (·.did)).getD 0) w] }
  match decodeBundle (BitVec.ofNat 768 w) with
  | .ok b => if (busy (slotsA b)).isEmpty && !(busy (slotsX b)).isEmpty then s1.aIssue else s1
  | .error _ => s1

end Sys2Proof.Machine
end

