-- ==== Sys2Proof/Machine/Schedule.lean ====
section
/-! DEFINITION. Which agent moves next where the agenda names none: the halves of the context on the core, the
engines, the dispatcher and the device side of the mailbox (R17, R32, R44, R131, R333, R336). -/

namespace Sys2Proof.Machine

/-- An operation or event of an agent: the meaning of its row of the opcode table. -/
abbrev Move := State → Out

/-- A move would change the state. -/
def State.changes (s : State) (f : Move) : Bool :=
  match f s with
  | .next t => decide (t ≠ s)
  | _ => false

def allCtx : List (BitVec 2) := [0, 1, 2, 3]

/-- The oldest outstanding request that may be performed. -/
def State.nextReq (s : State) : List Move :=
  match (List.range s.reqs.length).find? (fun i => (s.mayPerform i).isSome) with
  | some i => match s.reqs[i]? with
    | some q => [if q.act.isStore then execStorePerformed i else execLoadDataArrival i]
    | none => []
  | none => []

/-- Copies in the order in which the engine serves them: demand first, but one unit in eight is staging's (R131, R340); the
contexts round robin from the one after the last served, and each one's copies in issue order (R131). -/
def State.copyOrder (s : State) : List Nat :=
  let n := s.copies.length
  let staging := (List.range s.staging.length).map (· + n)
  let demand := (([1, 2, 3, 0] : List (BitVec 2)).map (fun d =>
    (List.range n).filter (fun i => s.copies[i]?.any (fun c => c.ctx == s.copyTurn + d)))).flatten
  if 7 ≤ s.grants then staging ++ demand else demand ++ staging

/-- What the engines of the core and the Felt may do. -/
def State.engines (s : State) : List Move :=
  (missesServed (missHeld [] s.misses)).map (fun m => execPageWalk m.asid m.va) ++
  s.nextReq ++ (if s.segs.any (fun e => e.st == .recalling) then [execSegmentRecall] else []) ++
  (s.segs.filter (fun e => e.st == .pushing)).map (fun e => execPushOut e.ctx e.name) ++
  (if s.zstores.isEmpty then [] else [execZstWritePerformed 0]) ++ (if s.arrayBusy then [execArrayAccept] else []) ++
  (if s.phase.isSome then [execRouterCycle, execPhaseStart] else []) ++
  (s.copyOrder.map (fun i => [execCopyCompletion (.own i), execEnqDelivery i, execCopyUnitWrite (.own i)])).flatten ++
  ((List.range s.streams.length).map (fun i => [execStreamFetch i, execStreamWrite i])).flatten ++
  (List.range s.ctx.lag.length).map execTileFetch ++
  (s.groups.map (fun g => [execCollectiveStart g.gid, execGroupDrained g.gid])).flatten ++
  [execInvalidationComplete] ++
  (if (s.bar regL2CMD).getLsbD 31 then [if ufield (s.bar regL2CMD) 0 2 = 1 then execL2WriteBack else execL2WriteBackInvalidate] else [])

/-- Puts a context among others by the admission of its task. -/
def State.insertCtx (s : State) (i : BitVec 2) : List (BitVec 2) → List (BitVec 2)
  | [] => [i]
  | j :: r =>
    let adm (k : BitVec 2) : Nat := ((s.ctxAt k).task.map (·.adm)).getD 0
    if adm i < adm j then i :: j :: r else j :: s.insertCtx i r
/-- The contexts in admission order (R338, R340). -/
def State.byAdmission (s : State) : List (BitVec 2) := allCtx.foldl (fun l i => s.insertCtx i l) []

/-- What the dispatcher may do. -/
def State.dispatcher (s : State) : List Move :=
  let entries (i : BitVec 2) : List Nat := List.range (((s.ctxAt i).task.map (·.ws.length)).getD 0)
  let refills (i : BitVec 2) : List Nat := ((s.ctxAt i).task.map (·.refills)).getD []
  (if s.cancelQ.isEmpty then [] else [execCancelApply]) ++ (if s.posts.isEmpty then [] else [execJcbPost]) ++
  (s.launches.filter (fun l => l.job.isNone)).map (fun l => execLaunchCheck l.id) ++
  (allCtx.map (fun i => execTaskRelease (.own i))) ++ allCtx.map execPreemptTask ++
  (if s.preempted.isEmpty && s.cancels.isEmpty then [] else allCtx.map execHeavySave) ++
  s.byAdmission.map execDispatch ++ (List.range s.images.length).map execTaskResume ++
  (s.byAdmission.map (fun i => (entries i).map (fun e => execStagingStart i e))).flatten ++
  (List.range s.staging.length).map execStagingAbandon ++
  (allCtx.map (fun i => (refills i).map (fun e => execRefill i e))).flatten ++
  s.byPriority.map (fun l => execAdmission l.id) ++ [execLookaheadRevoke]

/-- What the device does with records that wait for it, and firmware with those of the fault log. -/
def State.device (s : State) : List Move :=
  (if (s.mbTurn (fun _ => true)).isSome then
    [execLaunch, execCancel, execPreempt, execResume, execTbind, execTunbind, execQcreate, execQdestroy, execBadrec]
  else []) ++
  (s.enqs.filter (fun q => !q.ring.isEmpty)).map (fun q => execEnqueueTake q.idx) ++
  (if s.logNext.isSome then [firmwareLog] else [])

/-- What goes on in the Felt while the core is frozen: copies, and the requests that have left the core (R382). -/
def State.felt (s : State) : List Move :=
  (missesServed (missHeld [] s.misses)).map (fun m => execPageWalk m.asid m.va) ++ s.nextReq ++
  (s.copyOrder.map (fun i => [execCopyCompletion (.own i), execEnqDelivery i, execCopyUnitWrite (.own i)])).flatten

/-- The first of them that does something. -/
def State.service (s : State) : Option Move :=
  (if s.frozen then s.felt else s.engines ++ s.dispatcher ++ s.device).find? s.changes

/-- Another context takes the core. -/
def State.leave (s : State) : Option Move :=
  if s.mayLeave && s.nextReady.isSome then some execContextSwitch else none

/-- The X-half goes on where it can; else the A-half. -/
def State.half (s : State) : Move :=
  if s.ctx.lag.isEmpty then execAHalfIssue
  else if !s.xIssue.mark.isWait then execXHalfIssue
  else if s.mark.isWait || !s.aIssue.mark.isWait then execAHalfIssue
  else execXHalfIssue

/-- At a yield, and once in 64 X-halves, the engines, the dispatcher and the device move before the halves. -/
def State.engineTurn (s : State) : Option Move :=
  if s.mayIssue ∧ (s.ctx.yielding ∨ s.ctx.quantum % 64 = 63) then s.service else none

/-- The next move of the core and its engines where it is not the engines' turn. -/
def State.chooseHalf (s : State) : Option Move :=
  if s.ctx.yielding ∧ !s.holdsCore then some execYield
  else if 65536 ≤ s.ctx.quantum ∧ !s.holdsCore ∧ !s.standLL ∧ s.nextReady.isSome then some execQuantumExpiry
  else if s.mayIssue && !s.mark.isWait && s.aFree then some s.half
  else match (if s.mayIssue then none else s.leave) with
    | some i => some i
    | none => match s.service with
      | some i => some i
      | none => match s.leave with
        | some i => some i
        | none => if s.mayIssue && s.aFree then some s.half else none

/-- The next move. -/
def State.choose (s : State) : Option Move :=
  match s.engineTurn with
  | some f => some f
  | none => s.chooseHalf

end Sys2Proof.Machine
end

