-- ==== Sys2Proof/Machine/Step.lean ====
section
/-! DEFINITION. One step of the machine, and the placing of an instruction where the next step runs it. -/

namespace Sys2Proof.Machine

/-- One step: the first item of the agenda; else the move that the scheduler chooses; else nothing. A module that
holds itself in reset moves only for what the agenda says. -/
def step (s : State) : Host.Outcome State Fault Refusal :=
  match s.agenda with
  | i :: r => exec i { s with agenda := r }
  | [] =>
    if s.inReset then .fault .heldInReset
    else match s.choose with
      | some f => f s
      | none => .next s

/-- An instruction stands where the next step runs it. -/
def State.withFetchWord (s : State) (_ w : Nat) : State := s.placeWord w

end Sys2Proof.Machine
end

