-- ==== Sys2Proof/Safety.lean ====
section
/-! DEFINITION. What a safe run is, the invariants that statements speak of, and the words in which they say what
an instruction changes and what it leaves alone. -/

namespace Sys2Proof.Machine

/-- A step that goes on. -/
def Goes (s t : State) : Prop := step s = .next t

/-- States that a run reaches. -/
inductive Reaches (s : State) : State → Prop where
  | here : Reaches s s
  | more {t u : State} : Reaches s t → Goes t u → Reaches s u

/-- Memory keeps its canonical form: keys rise and no listed byte is what an unlisted address reads as. -/
def State.MemoryOk (s : State) : Prop := Memory.wf s.mem = true

/-- The deckle stands at 1 to 16 ways, and at 2 or more while one is being given up (R153, R155, R180). -/
def State.DeckleOk (s : State) : Prop := 1 ≤ s.sw ∧ s.sw ≤ 16 ∧ (s.deckMove = some false → 2 ≤ s.sw)

/-- No trace record of a kind is written (R402). -/
def State.untraced (s : State) (kind : Nat) : Prop := (s.bar 0x80050).getLsbD kind = false

/-! ### Registers -/

/-- No register of the list, as it stood before the bundle, is poisoned (R43, R379, R380). -/
def State.Clean (s : State) (l : List AReg) : Prop := ∀ a ∈ l, s.rd.aPoison.get false a.toNat = false

/-- What a write of a[d] changes: a[d] holds v, with the poison given, and every other register is as it was; an
older outstanding load of a[d] no longer writes it; a write to a0 changes no register (R36, R50, R200). Nothing
else of the state differs. -/
def State.WroteA (s t : State) (d : AReg) (v : Word) (poison : Bool) : Prop :=
  (d ≠ 0 → t.ctx.regs.ra d = v ∧ t.ctx.regs.aPoison.get false d.toNat = poison) ∧
  (∀ x : AReg, x ≠ d ∨ x = 0 → t.ctx.regs.ra x = s.ctx.regs.ra x ∧
    t.ctx.regs.aPoison.get false x.toNat = s.ctx.regs.aPoison.get false x.toNat) ∧
  t = { s with
    ctx := { s.ctx with regs := { s.ctx.regs with a := t.ctx.regs.a, aPoison := t.ctx.regs.aPoison } }
    reqs := dropPending s.cur d s.reqs }

/-- Every byte of memory outside the push-out slots of the segments that `s` holds reads the same in `t`. -/
def State.SameBeyondSlots (s t : State) : Prop :=
  ∀ a, (∀ e ∈ s.segs, a < s.slotUnit e 0 ∨ s.slotUnit e 0 + 128 * e.size ≤ a) → t.memByte a = s.memByte a
/-- Every anchored segment of a context has found all its lines. -/
def State.Seats (s : State) (i : BitVec 2) : Prop := ∀ e ∈ s.segs, e.ctx = i → e.anc = true → e.place.length = e.size
/-- Launch records that differ at most in when they became eligible. -/
def sameLaunches (l m : List Launch) : Prop :=
  l.map (fun x => { x with eligAt := none }) = m.map (fun x => { x with eligAt := none })

/-- `i` completes, with v as the new value of a[d] and no other effect. -/
def State.SetsA (s : State) (i : Instr) (d : AReg) (v : Word) : Prop :=
  ∃ t, exec i s = .next t ∧ s.WroteA t d v false

/-- `i` completes, with b as the new value of k[d] and no other effect; a write to k0 changes nothing (R50). -/
def State.SetsK (s : State) (i : Instr) (d : KReg) (b : Bool) : Prop :=
  ∃ t, exec i s = .next t ∧
    (d ≠ 0 → t.ctx.regs.rk d = b) ∧
    (∀ x : KReg, x ≠ d ∨ x = 0 → t.ctx.regs.rk x = s.ctx.regs.rk x) ∧
    t = { s with ctx := { s.ctx with regs := { s.ctx.regs with k := t.ctx.regs.k } } }

/-! ### Positions -/

/-- The next A-half issues at `target`. -/
def State.goTo (s : State) (target : Word) : State := s.modCtx (fun c => { c with npc := target })

/-- A jump to a target meets nothing: the target's quire is behind no miss that waits, and a bundle begins there (R56, R75). -/
def State.targetOk (s : State) (target : Word) : Prop := s.targetServed target = true ∧ s.targetFault target = none
/-- A jump to a target traps: its quire is behind no miss that waits, and the check raises a cause (R56, R75). -/
def State.targetBad (s : State) (target : Word) (c : Cause) : Prop :=
  s.targetServed target = true ∧ s.targetFault target = some c

/-- The positions of a quire's body that are an index or an escape, not inside a literal (R55, R56): the first, and
after each the next halfword, or the one 49 further on after an escape. -/
inductive QuirePos (body : List (BitVec 16)) : Nat → Prop where
  | first : 0 < body.length → QuirePos body 0
  | index {n : Nat} : QuirePos body n → body[n]? ≠ some 0xFFFF → n + 1 < body.length → QuirePos body (n + 1)
  | escape {n : Nat} : QuirePos body n → body[n]? = some 0xFFFF → n + 49 < body.length → QuirePos body (n + 49)

/-! ### Accesses -/

/-- An access of `w` bytes at an offset of the segment that g names meets nothing: the name resolves to `e`, the offset
is aligned and inside, the pin fits, the segment is resident, its line is full, and no acquire is outstanding
(R148, R152, R163, R167, R310). -/
def State.segReady (s : State) (g : GReg) (off : Word) (w : Nat) (e : SegEntry) : Prop :=
  s.seg s.cur (s.rd.rg g) = some e ∧ off.toNat % w = 0 ∧ off.toNat + w ≤ 128 * e.size ∧
  s.pinFate s.cur [e.name] = .fits ∧ (e.st = .resident ∨ e.st = .moving) ∧
  e.empty.get false (off.toNat / 128) = false ∧
  (∀ q ∈ s.reqs, q.ctx = s.cur → q.kind = kindUN ∨ q.ord.acq = false)

/-- An access of `w` bytes at a virtual address meets nothing before it becomes a request: it is aligned and below
2^56, a miss of it would be served, and it translates to `pa` under `tl`, leaving `s1` (R66, R68, R75). -/
def State.globReady (s : State) (va : Word) (w : Nat) (acc : Access) (pa : Nat) (tl : Tlb) (s1 : State) : Prop :=
  va.toNat < 2 ^ 56 ∧ va.toNat % w = 0 ∧ s.walkServed s.ctx.job.asid va false = true ∧
  s.translate s.ctx.job.asid s.ctx.job.root va acc = (.ok pa tl, s1)

/-- No earlier access of the context must be performed before one of `w` bytes at `pa` (R304 to R310). -/
def State.firstAt (s : State) (pa w : Nat) (kind : BitVec 2) (ord : MemOrd) : Prop :=
  ∀ q ∈ s.reqs, q.ctx = s.cur → q.precedes pa w kind ord = false

/-- As `segReady`, for a store: a store to an empty line does not wait (R152). -/
def State.segWritable (s : State) (g : GReg) (off : Word) (w : Nat) (e : SegEntry) : Prop :=
  s.seg s.cur (s.rd.rg g) = some e ∧ off.toNat % w = 0 ∧ off.toNat + w ≤ 128 * e.size ∧
  s.pinFate s.cur [e.name] = .fits ∧ (e.st = .resident ∨ e.st = .moving) ∧
  (∀ q ∈ s.reqs, q.ctx = s.cur → q.kind = kindUN ∨ q.ord.acq = false)

/-- The value a scalar load makes of its bytes (R183): sign-extended for i8 to i32, zero-extended for the others. -/
def LoadedAs (t : LdTy) (bs : List Byte) (v : Word) : Prop :=
  match t with
  | .i8 => v.toInt = (bytesNat bs : Int).bmod (2 ^ 8)
  | .i16 => v.toInt = (bytesNat bs : Int).bmod (2 ^ 16)
  | .i32 => v.toInt = (bytesNat bs : Int).bmod (2 ^ 32)
  | .i64 | .w8 | .w16 | .w32 => v.toNat = bytesNat bs

/-- A store of bytes into a segment of the running context: those bytes hold the new values, and no other byte, no
full bit, no other segment and nothing else of the state differs, but for when it was touched and for poison (R184). -/
def State.StoredSeg (s t : State) (name : BitVec 16) (off : Nat) (bs : List Byte) : Prop :=
  t = { s with segs := t.segs, fresh := s.fresh + 1 } ∧ t.segs.length = s.segs.length ∧
  ∀ (i : Nat) (e : SegEntry), s.segs[i]? = some e → ∃ f : SegEntry, t.segs[i]? = some f ∧
    (¬ (e.ctx = s.cur ∧ e.name = name) → f = e) ∧
    (e.ctx = s.cur ∧ e.name = name →
      f = { e with bytes := f.bytes, poison := f.poison, touched := s.fresh } ∧
      (∀ (j : Nat) (b : Byte), bs[j]? = some b → f.bytes.get 0 (off + j) = b) ∧
      (∀ a, a < off ∨ off + bs.length ≤ a → f.bytes.get 0 a = e.bytes.get 0 a))

/-- The global ATOM of an operation. -/
def atomOf (op : AtomOp) (x : AtomArg) (m : GMem) : Instr :=
  match op with
  | .add => .atomAdd x m | .min => .atomMin x m | .max => .atomMax x m | .wmin => .atomWmin x m
  | .wmax => .atomWmax x m | .and => .atomAnd x m | .or => .atomOr x m | .xor => .atomXor x m
  | .swap => .atomSwap x m | .cas => .atomCas x m | .fadd => .atomFadd x m | .qadd => .atomQadd x m

/-- The value of a rational word's digits, base p (R217, R268). -/
def qwordVal (p : Nat) (w : Word) : Nat :=
  ufield w 0 16 + p * (ufield w 16 16 + p * (ufield w 32 16 + p * ufield w 48 16))
/-- Every digit of a rational word is below p: the word is a value (R268). -/
def qwordOk (p : Nat) (w : Word) : Prop := ∀ i, i < 4 → ufield w (16 * i) 16 < p

/-- What R104 says the new word is, of the old word, the operand and the comparand. -/
def AtomSpec (op : AtomOp) (p : Nat) (cmp old v new : Word) : Prop :=
  match op with
  | .add => new.toNat = (old.toNat + v.toNat) % 2 ^ 64
  | .min => (new = old ∨ new = v) ∧ new.toInt ≤ old.toInt ∧ new.toInt ≤ v.toInt
  | .max => (new = old ∨ new = v) ∧ old.toInt ≤ new.toInt ∧ v.toInt ≤ new.toInt
  | .wmin => (new = old ∨ new = v) ∧ new.toNat ≤ old.toNat ∧ new.toNat ≤ v.toNat
  | .wmax => (new = old ∨ new = v) ∧ old.toNat ≤ new.toNat ∧ v.toNat ≤ new.toNat
  | .and => ∀ i, new.getLsbD i = (old.getLsbD i && v.getLsbD i)
  | .or => ∀ i, new.getLsbD i = (old.getLsbD i || v.getLsbD i)
  | .xor => ∀ i, new.getLsbD i = (old.getLsbD i != v.getLsbD i)
  | .swap => new = v
  | .cas => (old = cmp → new = v) ∧ (old ≠ cmp → new = old)
  | .fadd => new.toNat = (toF32 Prefix.default 0 (xadd .rne (f32 (old.setWidth 32)) (f32 (v.setWidth 32)))).toNat
  | .qadd => (qwordOk p old → qwordOk p v →
      qwordOk p new ∧ qwordVal p new = (qwordVal p old + qwordVal p v) % p ^ 4) ∧
    (¬ (qwordOk p old ∧ qwordOk p v) → new = 0xFFFFFFFFFFFFFFFF)

/-- The same of one lane of the vector form. -/
def LaneAtomSpec (op : AtomOp) (old v new : Lane) : Prop :=
  match op with
  | .add => new.toNat = (old.toNat + v.toNat) % 2 ^ 32
  | .min => (new = old ∨ new = v) ∧ new.toInt ≤ old.toInt ∧ new.toInt ≤ v.toInt
  | .max => (new = old ∨ new = v) ∧ old.toInt ≤ new.toInt ∧ v.toInt ≤ new.toInt
  | .wmin => (new = old ∨ new = v) ∧ new.toNat ≤ old.toNat ∧ new.toNat ≤ v.toNat
  | .wmax => (new = old ∨ new = v) ∧ old.toNat ≤ new.toNat ∧ v.toNat ≤ new.toNat
  | .and => ∀ i, new.getLsbD i = (old.getLsbD i && v.getLsbD i)
  | .or => ∀ i, new.getLsbD i = (old.getLsbD i || v.getLsbD i)
  | .xor => ∀ i, new.getLsbD i = (old.getLsbD i != v.getLsbD i)
  | .fadd => new = toF32 Prefix.default 0 (xadd .rne (f32 old) (f32 v))
  | .swap | .cas | .qadd => True
/-- The same of the block of the vector form: of its sixteen lanes, or of its eight rational words. -/
def BlockAtomSpec (op : AtomOp) (p : Nat) (old v new : Vec) : Prop :=
  (∀ l, l < 16 → LaneAtomSpec op (lane old l) (lane v l) (lane new l)) ∧
  (op = .qadd → ∀ i, i < 8 → AtomSpec op p 0 (word64 old i) (word64 v i) (word64 new i))

/-! ### Copies -/

/-- The rows of a copy: one without a shape; those of the shape register, which is not poisoned and not of zero rows,
with one (R118). -/
def State.RowsOf (s : State) (o : CopyOpt) (r : Rows) : Prop :=
  if o.sh then
    let w := s.rd.csh.get 0 o.csh.toNat
    s.rd.shPoison.get false o.csh.toNat = false ∧ 1 ≤ ufield w 0 16 ∧ r.n = ufield w 0 16 ∧ r.s = sfield w 16 24 ∧
      r.d = sfield w 40 24
  else r.n = 1 ∧ r.s = 0 ∧ r.d = 0

/-- The engine has room, and the context no copy in flight under the CID (R115). -/
def State.engineFree (s : State) (cid : BitVec 4) : Prop :=
  s.copies.countP (fun c => c.cid.isSome) < 16 ∧ ∀ c ∈ s.copies, c.ctx = s.cur → c.cid ≠ some cid

/-- A segment operand of a copy: the name resolves, offset and stride are multiples of 64, the offset is not negative,
and every byte of every row is inside (R119). -/
def State.SegEnd (s : State) (g : GReg) (off : Word) (n : Nat) (str : Int) (len : Nat) (e : SegEntry) : Prop :=
  s.seg s.cur (s.rd.rg g) = some e ∧ 0 ≤ off.toInt ∧ off.toNat % 64 = 0 ∧ str % 64 = 0 ∧
  ∀ i : Nat, i < n → 0 ≤ off.toInt + i * str ∧ off.toInt + i * str + len ≤ 128 * e.size

/-- A global operand: every row below 2^56, address and stride multiples of 64 (R119). -/
def State.GlobEnd (_ : State) (va : Word) (n : Nat) (str : Int) (len : Nat) : Prop :=
  va.toNat % 64 = 0 ∧ str % 64 = 0 ∧
  ∀ i : Nat, i < n → 0 ≤ (va.toNat : Int) + i * str ∧ (va.toNat : Int) + i * str + len ≤ 2 ^ 56

/-- What a copy captures at issue (R116). -/
def State.Captures (s : State) (c : Copy) (o : CopyOpt) (r : Rows) : Prop :=
  c.id = s.fresh ∧ c.ctx = s.cur ∧ c.cid = some o.cid ∧ c.nrow = r.n ∧ c.sstr = r.s ∧ c.dstr = r.d ∧ c.be = o.be ∧
  c.bar = o.bar ∧ c.pfx = s.ctx.apfx ∧ c.psel = s.rd.psel ∧ c.rseed = s.rd.rseed ∧ c.task = s.ctx.task ∧ c.done = 0 ∧
  c.parked = [] ∧ c.fault = none ∧ c.after = s.fresh ∧ c.result = none ∧ c.got = []

/-- The engine accepts a copy: it stands behind the others, the named segments of the context are pinned once more, the
task has issued one more memory-writing instruction, and nothing else differs (R122, R162, R404). -/
def State.TakesCopy (s : State) (i : Instr) (names : List (BitVec 16)) (c : Copy) : Prop :=
  exec i s = .next { s with
    copies := s.copies ++ [c]
    segs := s.segs.map (fun e => if e.ctx = s.cur ∧ names.contains e.name then { e with cpins := e.cpins + 1 } else e)
    ctx := { s.ctx with task := s.ctx.task.map (fun t => { t with seq := t.seq + 1 }) }
    fresh := s.fresh + 1 }

/-- Element `e` of a row that begins at an offset of a segment, in a format: in canonical packing, or in groups of 2,048
elements with their headers behind them (R88, R151, R215, R216). -/
def SegEntry.elemFrom (x : SegEntry) (f : ElemFmt) (off e : Nat) : Elem :=
  if f = .e2m1b then
    let group := off + 1152 * (e / 2048)
    let r := e % 2048
    .flt (dequant (bytesNat (x.read (group + r / 2) 1) / 16 ^ (r % 2) % 16) (bytesNat (x.read (group + 1024 + 2 * (r / 32)) 2)))
  else elemOf f (bytesNat (x.read (off + fmtBits f / 8 * e) (fmtBits f / 8)))
/-- Block `b` of a row that a copy quantises, with the draws of its elements and of its special (R123, R228). -/
def SegEntry.blockFrom (x : SegEntry) (f : ElemFmt) (off : Nat) (c : Copy) (b : Nat) : List Nat × Nat :=
  quantise c.pfx.rm (fun i => drawOf c.rseed (2 ^ 63 + (32 * b + i))) (drawOf c.rseed (2 ^ 63 + 2 ^ 62 + b))
    ((List.range 32).map (fun i => ((x.elemFrom f off (32 * b + i)).frac (primeOf (ufield c.psel 0 4))).1))

/-! ### Cluster slots -/

/-- A source of a cluster slot that can be read: a register of the window, the filled head of a queue reserved by an
earlier bundle, and nothing poisoned (R191, R201, R380). -/
def State.srcThere (s : State) (cl : BitVec 3) : VSrc → Prop
  | .reg n => n.toNat < s.ctx.vcnt ∧ s.vPoison.get false (vKey cl (s.ctx.vbase + n.toNat)) = false
  | .latch u t => s.vPoison.get false (latchPoisonKey cl u t.toNat) = false
  | .queue _ q => ∃ e r, s.queue (qIdIn cl q) = e :: r ∧ e.bun < s.ctx.xn ∧ e.val ≠ none ∧ e.poison = false
  | .scalar a => s.xrd.aPoison.get false a.toNat = false
  | .imm _ => True

/-- The queue a destination names, if it names one. -/
def SlotDst.queue (h : VHd) : SlotDst → Option Nat
  | .vec d => dstQueue h d
  | .pred _ => none

/-- A destination that can take a result: a register of the window, or a queue with room (R191, R196, R201). -/
def State.dstFree (s : State) (h : VHd) (d : SlotDst) : Prop :=
  (∀ n, d = .vec (.reg n) → n.toNat < s.ctx.vcnt) ∧
  ∀ id, d.queue h = some id → (s.queue id).length < 8 ∧ ∀ x, s.streamAt s.cur id = some x → x.pushed < x.n0 * x.n1 ∨ s.ctx.xn ≤ x.bun

/-- A cluster slot that neither waits nor traps. -/
def State.slotFree (s : State) (h : VHd) (d : SlotDst) (l : List VSrc) : Prop :=
  (∀ x ∈ l, s.srcThere h.cl x) ∧ (h.nw = true ∨ s.dstFree h d)

/-- What a cluster slot does at its bundle: its pops, the reservation of its destination queue, QCTL, and a result v that
lands `lat` bundles on under the guard g; with NW the result goes to the latch only. Nothing else of the state differs
but the count of a bound output stream (R37, R42, R43, R190, R207). -/
def State.IssuedV (s t : State) (h : VHd) (d : SlotDst) (l : List VSrc) (u : VUnit) (lat : Nat) (g : BitVec 16) (v : Vec)
    (qctl : Word) : Prop :=
  ∃ (n tick : Nat) (dst : FDst),
    t = { s with
      ctx := { s.ctx with
        flight := s.ctx.flight ++ [⟨s.ctx.xn + lat, n, u, h.cl, dst, g, v, false⟩], queues := t.ctx.queues, qctl := qctl }
      streams := t.streams, fresh := t.fresh } ∧
    (h.nw = true → dst = .none) ∧
    (h.nw = false →
      (∀ i, d = .pred i → dst = .pred i.toNat) ∧ (∀ i, d = .vec (.reg i) → dst = .reg i.toNat) ∧
      (∀ id, d.queue h = some id → dst = .queue id tick)) ∧
    (∀ id, t.queue id = (if (popIds h.cl l).contains id then (s.queue id).tail else s.queue id) ++
      (if h.nw = false ∧ d.queue h = some id then [⟨tick, s.ctx.xn, .slot, none, false⟩] else [])) ∧
    t.streams = s.streams.map (fun x =>
      if h.nw = false ∧ d.queue h = some (6 * x.cl.toNat + x.q) ∧ x.ctx = s.cur then { x with pushed := x.pushed + 1 }
      else x)

/-- `i` issues as a cluster slot with the result v, without setting a flag. -/
def State.VSlot (s : State) (i : Instr) (h : VHd) (d : SlotDst) (l : List VSrc) (u : VUnit) (lat : Nat) (g : BitVec 16)
    (P : Vec → Prop) : Prop :=
  s.slotFree h d l → ∃ (t : State) (v : Vec), exec i s = .next t ∧ s.IssuedV t h d l u lat g v s.ctx.qctl ∧ P v

/-- `i` maps the lanes of one source, read as `ty`, to the lanes of its result. -/
def State.Map1 (s : State) (i : Instr) (o : V1) (u : VUnit) (lat : Nat) (ty : OpTy) (f : Lane → Lane) : Prop :=
  s.VSlot i o.h (.vec o.d) [o.a] u lat (s.guard o.h) (fun v => ∀ n, n < 16 → lane v n = f (lane (s.src o.h.cl ty o.a) n))
/-- The same of two sources. -/
def State.Map2 (s : State) (i : Instr) (o : V2) (u : VUnit) (lat : Nat) (ty : OpTy) (f : Lane → Lane → Lane) : Prop :=
  s.VSlot i o.h (.vec o.d) [o.a, o.b] u lat (s.guard o.h) (fun v => ∀ n, n < 16 →
    lane v n = f (lane (s.src o.h.cl ty o.a) n) (lane (s.src o.h.cl ty o.b) n))
/-- The same of three. -/
def State.Map3 (s : State) (i : Instr) (o : V3) (u : VUnit) (lat : Nat) (ty : OpTy) (f : Lane → Lane → Lane → Lane) :
    Prop :=
  s.VSlot i o.h (.vec o.d) [o.a, o.b, o.c] u lat (s.guard o.h) (fun v => ∀ n, n < 16 →
    lane v n = f (lane (s.src o.h.cl ty o.a) n) (lane (s.src o.h.cl ty o.b) n) (lane (s.src o.h.cl ty o.c) n))

/-- An integer result under SAT (R220, R222): reduced modulo 2^32 under WRAP, else clamped to lo..hi. -/
def State.satLane (s : State) (lo hi x : Int) : Lane :=
  BitVec.ofInt 32 (if s.ctx.xpfx.sat = .wrap then x else max lo (min hi x))
/-- Clamped whatever SAT says. -/
def clampLane (lo hi x : Int) : Lane := BitVec.ofInt 32 (max lo (min hi x))

end Sys2Proof.Machine
end

