-- ==== Sys2Proof/Certificates/Slice0/Obligations.lean ====
section
/-! DEFINITION. The statements about the model: each formalises rules of the spec, named in its docstring. -/

open Sys2Proof Sys2Proof.Machine

/-- R285: what each register to register operation leaves in a[D]. R285: the words of the register to register
operations: OP 0x01 to 0x0F in the table's order, with IMM14 zero; with any other IMM14 the word is no instruction. -/
def Obligations.ScalarRegisterOperations : Prop :=
  (∀ (o : SRRR) (s : State), s.Clean [o.a, o.b] →
     let x : Word := s.rd.ra o.a
     let y : Word := s.rd.ra o.b
     let n : Nat := y.toNat % 64
     (∃ v : Word, s.SetsA (.add o) o.d v ∧ v.toNat = (x.toNat + y.toNat) % 2 ^ 64) ∧
     (∃ v : Word, s.SetsA (.sub o) o.d v ∧ (v.toNat + y.toNat) % 2 ^ 64 = x.toNat) ∧
     (∃ v : Word, s.SetsA (.and o) o.d v ∧ ∀ i, v.getLsbD i = (x.getLsbD i && y.getLsbD i)) ∧
     (∃ v : Word, s.SetsA (.or o) o.d v ∧ ∀ i, v.getLsbD i = (x.getLsbD i || y.getLsbD i)) ∧
     (∃ v : Word, s.SetsA (.xor o) o.d v ∧ ∀ i, v.getLsbD i = (x.getLsbD i != y.getLsbD i)) ∧
     (∃ v : Word, s.SetsA (.shl o) o.d v ∧ v.toNat = x.toNat * 2 ^ n % 2 ^ 64) ∧
     (∃ v : Word, s.SetsA (.shr o) o.d v ∧ v.toNat = x.toNat / 2 ^ n) ∧
     (∃ v : Word, s.SetsA (.sra o) o.d v ∧ v.toInt = x.toInt / 2 ^ n) ∧
     (∃ v : Word, s.SetsA (.mul o) o.d v ∧ v.toNat = x.toNat * y.toNat % 2 ^ 64) ∧
     (∃ v : Word, s.SetsA (.mulh o) o.d v ∧ v.toInt = x.toInt * y.toInt / 2 ^ 64) ∧
     (∃ v : Word, s.SetsA (.mulhw o) o.d v ∧ v.toNat = x.toNat * y.toNat / 2 ^ 64) ∧
     (∃ v : Word, s.SetsA (.min o) o.d v ∧ (v = x ∨ v = y) ∧ v.toInt ≤ x.toInt ∧ v.toInt ≤ y.toInt) ∧
     (∃ v : Word, s.SetsA (.max o) o.d v ∧ (v = x ∨ v = y) ∧ x.toInt ≤ v.toInt ∧ y.toInt ≤ v.toInt) ∧
     (∃ v : Word, s.SetsA (.wmin o) o.d v ∧ (v = x ∨ v = y) ∧ v.toNat ≤ x.toNat ∧ v.toNat ≤ y.toNat) ∧
     (∃ v : Word, s.SetsA (.wmax o) o.d v ∧ (v = x ∨ v = y) ∧ x.toNat ≤ v.toNat ∧ y.toNat ≤ v.toNat)) ∧
  (∀ (sl : SSlot) (d a b : AReg) (imm : BitVec 14),
     let o : SRRR := ⟨sl, d, a, b⟩
     let w : BitVec 8 → SlotBits := fun op => .s sl (op ++ d ++ a ++ b ++ imm)
     (imm = 0 → decodeSlot (w 1) = .ok (.add o) ∧ decodeSlot (w 2) = .ok (.sub o) ∧ decodeSlot (w 3) = .ok (.and o) ∧
       decodeSlot (w 4) = .ok (.or o) ∧ decodeSlot (w 5) = .ok (.xor o) ∧ decodeSlot (w 6) = .ok (.shl o) ∧
       decodeSlot (w 7) = .ok (.shr o) ∧ decodeSlot (w 8) = .ok (.sra o) ∧ decodeSlot (w 9) = .ok (.mul o) ∧
       decodeSlot (w 10) = .ok (.mulh o) ∧ decodeSlot (w 11) = .ok (.mulhw o) ∧ decodeSlot (w 12) = .ok (.min o) ∧
       decodeSlot (w 13) = .ok (.max o) ∧ decodeSlot (w 14) = .ok (.wmin o) ∧ decodeSlot (w 15) = .ok (.wmax o)) ∧
     (imm ≠ 0 → ∀ op : BitVec 8, 1 ≤ op.toNat → op.toNat ≤ 15 → ∃ e, decodeSlot (w op) = .error e))

/-- R286: what each immediate operation leaves in a[D]. R288, and SELK of R287: bit fields, counts and the selection
by a flag. R287: what each flag operation leaves in k[D]. R286: the words of the immediate operations, whose unused
fields are zero, and are no instruction otherwise; and LI with four LIH after it builds any constant, as in the
example of 0x4B456. R287: the words of the flag operations, whose unused fields are zero, and are no instruction
otherwise. R288: the words of the bit-field and count operations, whose unused fields are zero, and are no instruction
otherwise. -/
def Obligations.ScalarImmediateFieldAndFlagOperations : Prop :=
  ((∀ (o : SRRI) (s : State), s.Clean [o.a] →
     let x : Word := s.rd.ra o.a
     let i : Word := o.imm.signExtend 64
     (∃ v : Word, s.SetsA (.addi o) o.d v ∧ v.toInt = (x.toInt + o.imm.toInt).bmod (2 ^ 64)) ∧
     (∃ v : Word, s.SetsA (.andi o) o.d v ∧ ∀ j, v.getLsbD j = (x.getLsbD j && i.getLsbD j)) ∧
     (∃ v : Word, s.SetsA (.ori o) o.d v ∧ ∀ j, v.getLsbD j = (x.getLsbD j || i.getLsbD j)) ∧
     (∃ v : Word, s.SetsA (.xori o) o.d v ∧ ∀ j, v.getLsbD j = (x.getLsbD j != i.getLsbD j)) ∧
     (∃ v : Word, s.SetsA (.lih o) o.d v ∧ v.toNat = (x.toNat * 2 ^ 14 + o.imm.toNat) % 2 ^ 64)) ∧
   (∀ (o : SRRC) (s : State), s.Clean [o.a] →
     let x : Word := s.rd.ra o.a
     let n : Nat := o.cnt.toNat
     (∃ v : Word, s.SetsA (.shli o) o.d v ∧ v.toNat = x.toNat * 2 ^ n % 2 ^ 64) ∧
     (∃ v : Word, s.SetsA (.shri o) o.d v ∧ v.toNat = x.toNat / 2 ^ n) ∧
     (∃ v : Word, s.SetsA (.srai o) o.d v ∧ v.toInt = x.toInt / 2 ^ n)) ∧
   (∀ (sl : SSlot) (d : AReg) (imm : BitVec 14) (s : State),
     ∃ v : Word, s.SetsA (.li sl d imm) d v ∧ v.toInt = imm.toInt) ∧
   (∀ (o : SRRR) (sh : BitVec 3) (off : BitVec 11) (s : State), s.Clean [o.a, o.b] →
     ∃ v : Word, s.SetsA (.lea o sh off) o.d v ∧
       v.toInt = ((s.rd.ra o.a).toInt + (s.rd.ra o.b).toInt * 2 ^ sh.toNat + off.toInt).bmod (2 ^ 64))) ∧
  ((∀ (o : SRR) (pos : BitVec 6) (len : BitVec 7) (s : State), s.Clean [o.a] →
     let x : Word := s.rd.ra o.a
     let n : Nat := Nat.min len.toNat 64
     ∃ v : Word, s.SetsA (.bfx o pos len) o.d v ∧
       ∀ i, v.getLsbD i = (decide (i < n) && x.getLsbD (pos.toNat + i))) ∧
   (∀ (o : SRRR) (pos : BitVec 6) (len : BitVec 7) (s : State), s.Clean [o.a, o.b] →
     let x : Word := s.rd.ra o.a
     let y : Word := s.rd.ra o.b
     let n : Nat := Nat.min len.toNat 64
     ∃ v : Word, s.SetsA (.bfi o pos len) o.d v ∧
       ∀ i, i < 64 → v.getLsbD i =
         if pos.toNat ≤ i ∧ i < pos.toNat + n then x.getLsbD (i - pos.toNat) else y.getLsbD i) ∧
   (∀ (o : SRR) (s : State), s.Clean [o.a] →
     let x : Word := s.rd.ra o.a
     (∃ v : Word, s.SetsA (.clz o) o.d v ∧ v.toNat ≤ 64 ∧ (∀ i, 64 ≤ i + v.toNat → x.getLsbD i = false) ∧
       (v.toNat < 64 → x.getLsbD (63 - v.toNat) = true)) ∧
     (∃ v : Word, s.SetsA (.ctz o) o.d v ∧ v.toNat ≤ 64 ∧ (∀ i, i < v.toNat → x.getLsbD i = false) ∧
       (v.toNat < 64 → x.getLsbD v.toNat = true)) ∧
     (∃ v : Word, s.SetsA (.popc o) o.d v ∧ v.toNat = (List.range 64).countP (fun i => x.getLsbD i))) ∧
   (∀ (o : SRRR) (k : KReg) (s : State), s.Clean [o.a, o.b] →
     s.SetsA (.selk o k) o.d (if s.rd.rk k then s.rd.ra o.a else s.rd.ra o.b))) ∧
  ((∀ (o : SKRR) (s : State), s.Clean [o.a, o.b] →
     s.SetsK (.cmpeq o) o.d (decide (s.rd.ra o.a = s.rd.ra o.b)) ∧
     s.SetsK (.cmplt o) o.d (decide ((s.rd.ra o.a).toInt < (s.rd.ra o.b).toInt)) ∧
     s.SetsK (.cmpltw o) o.d (decide ((s.rd.ra o.a).toNat < (s.rd.ra o.b).toNat))) ∧
   (∀ (o : SKRI) (s : State), s.Clean [o.a] →
     s.SetsK (.cmpeqi o) o.d (decide ((s.rd.ra o.a).toInt = o.imm.toInt)) ∧
     s.SetsK (.cmplti o) o.d (decide ((s.rd.ra o.a).toInt < o.imm.toInt))) ∧
   (∀ (o : SKKK) (s : State),
     s.SetsK (.kand o) o.d (s.rd.rk o.a && s.rd.rk o.b) ∧
     s.SetsK (.kor o) o.d (s.rd.rk o.a || s.rd.rk o.b) ∧
     s.SetsK (.kxor o) o.d (s.rd.rk o.a != s.rd.rk o.b)) ∧
   (∀ (sl : SSlot) (d a : KReg) (s : State), s.SetsK (.knot sl d a) d (!s.rd.rk a))) ∧
  ((∀ (sl : SSlot) (d a b : AReg) (imm : BitVec 14),
     let o : SRRI := ⟨sl, d, a, imm⟩
     let c : SRRC := ⟨sl, d, a, imm.setWidth 6⟩
     let w : BitVec 8 → SlotBits := fun op => .s sl (op ++ d ++ a ++ b ++ imm)
     (b = 0 → decodeSlot (w 0x10) = .ok (.addi o) ∧ decodeSlot (w 0x11) = .ok (.andi o) ∧
       decodeSlot (w 0x12) = .ok (.ori o) ∧ decodeSlot (w 0x13) = .ok (.xori o) ∧ decodeSlot (w 0x18) = .ok (.lih o)) ∧
     (b = 0 → imm.toNat < 64 → decodeSlot (w 0x14) = .ok (.shli c) ∧ decodeSlot (w 0x15) = .ok (.shri c) ∧
       decodeSlot (w 0x16) = .ok (.srai c)) ∧
     (a = 0 → b = 0 → decodeSlot (w 0x17) = .ok (.li sl d imm)) ∧
     decodeSlot (w 0x19) = .ok (.lea ⟨sl, d, a, b⟩ (imm.setWidth 3) ((imm >>> 3).setWidth 11)) ∧
     (b ≠ 0 → ∀ op : BitVec 8, 0x10 ≤ op.toNat → op.toNat ≤ 0x18 → ∃ e, decodeSlot (w op) = .error e) ∧
     (64 ≤ imm.toNat → ∀ op : BitVec 8, 0x14 ≤ op.toNat → op.toNat ≤ 0x16 → ∃ e, decodeSlot (w op) = .error e) ∧
     (a ≠ 0 → ∃ e, decodeSlot (w 0x17) = .error e)) ∧
   (∀ v : Word, ∃ i j k l m : BitVec 14, v.toNat =
     (((((i.signExtend 64).toNat * 2 ^ 14 + j.toNat) * 2 ^ 14 + k.toNat) * 2 ^ 14 + l.toNat) * 2 ^ 14 + m.toNat) % 2 ^ 64) ∧
   (∀ s : State, s.SetsA (.li 0 5 0x12) 5 0x12) ∧
   (∀ s : State, s.Clean [5] → s.rd.ra 5 = 0x12 → s.SetsA (.lih ⟨0, 5, 5, 0x3456⟩) 5 0x4B456)) ∧
  (∀ (sl : SSlot) (d a b : AReg) (imm : BitVec 14),
     let kd : KReg := d.setWidth 3
     let o : SKRR := ⟨sl, kd, a, b⟩
     let i : SKRI := ⟨sl, kd, a, imm⟩
     let k : SKKK := ⟨sl, kd, a.setWidth 3, b.setWidth 3⟩
     let w : BitVec 8 → SlotBits := fun op => .s sl (op ++ d ++ a ++ b ++ imm)
     (d.toNat < 8 → imm = 0 → decodeSlot (w 0x1A) = .ok (.cmpeq o) ∧ decodeSlot (w 0x1B) = .ok (.cmplt o) ∧
       decodeSlot (w 0x1C) = .ok (.cmpltw o)) ∧
     (d.toNat < 8 → b = 0 → decodeSlot (w 0x1D) = .ok (.cmpeqi i) ∧ decodeSlot (w 0x1E) = .ok (.cmplti i)) ∧
     (imm.toNat < 8 → decodeSlot (w 0x1F) = .ok (.selk ⟨sl, d, a, b⟩ (imm.setWidth 3))) ∧
     (d.toNat < 8 → a.toNat < 8 → b.toNat < 8 → imm = 0 → decodeSlot (w 0x29) = .ok (.kand k) ∧
       decodeSlot (w 0x2A) = .ok (.kor k) ∧ decodeSlot (w 0x2B) = .ok (.kxor k) ∧
       (b = 0 → decodeSlot (w 0x2C) = .ok (.knot sl kd (a.setWidth 3)))) ∧
     (8 ≤ d.toNat → ∀ op : BitVec 8, op.toNat ∈ [0x1A, 0x1B, 0x1C, 0x1D, 0x1E, 0x29, 0x2A, 0x2B, 0x2C] →
       ∃ e, decodeSlot (w op) = .error e) ∧
     (imm ≠ 0 → ∀ op : BitVec 8, op.toNat ∈ [0x1A, 0x1B, 0x1C, 0x29, 0x2A, 0x2B, 0x2C] → ∃ e, decodeSlot (w op) = .error e) ∧
     (b ≠ 0 → ∀ op : BitVec 8, op.toNat ∈ [0x1D, 0x1E, 0x2C] → ∃ e, decodeSlot (w op) = .error e) ∧
     (8 ≤ imm.toNat → ∃ e, decodeSlot (w 0x1F) = .error e) ∧
     (8 ≤ a.toNat ∨ 8 ≤ b.toNat → ∀ op : BitVec 8, op.toNat ∈ [0x29, 0x2A, 0x2B, 0x2C] → ∃ e, decodeSlot (w op) = .error e)) ∧
  (∀ (sl : SSlot) (d a b : AReg) (imm : BitVec 14),
     let pos : BitVec 6 := imm.setWidth 6
     let len : BitVec 7 := (imm >>> 6).setWidth 7
     let w : BitVec 8 → SlotBits := fun op => .s sl (op ++ d ++ a ++ b ++ imm)
     (imm.toNat < 2 ^ 13 → decodeSlot (w 0x21) = .ok (.bfi ⟨sl, d, a, b⟩ pos len) ∧
       (b = 0 → decodeSlot (w 0x20) = .ok (.bfx ⟨sl, d, a⟩ pos len))) ∧
     (b = 0 → imm = 0 → decodeSlot (w 0x22) = .ok (.clz ⟨sl, d, a⟩) ∧ decodeSlot (w 0x23) = .ok (.ctz ⟨sl, d, a⟩) ∧
       decodeSlot (w 0x24) = .ok (.popc ⟨sl, d, a⟩)) ∧
     (2 ^ 13 ≤ imm.toNat → ∀ op : BitVec 8, op.toNat ∈ [0x20, 0x21] → ∃ e, decodeSlot (w op) = .error e) ∧
     (b ≠ 0 → ∀ op : BitVec 8, op.toNat ∈ [0x20, 0x22, 0x23, 0x24] → ∃ e, decodeSlot (w op) = .error e) ∧
     (imm ≠ 0 → ∀ op : BitVec 8, op.toNat ∈ [0x22, 0x23, 0x24] → ∃ e, decodeSlot (w op) = .error e))

/-- R206, R289: MFSR reads the register as it stood before the bundle; a read-only register gives what the spec says
it shows. QCTL is read once the X-half has issued every earlier bundle; that rational results in flight are not waited
for (R206 waits, R271 makes the value the same) is the model's DESIGN CHOICE (log entry 68). When SFAULT takes the
cause that MFSR reads is the model's reading (log entry 16). R206, R207, R289: MTSR changes the register it names,
keeping no reserved bit, and no other register of the A side; a reserved prime selector raises BADSR and PSEL keeps
its value. A write of QCTL waits for the X-half. R290, R291: segment names, and the queues that the X-half fills. A
queue that is empty of filled entries is waited for while the X-half is behind, and raises QEMPTY where it is not. -/
def Obligations.SpecialRegistersAndNames : Prop :=
  (∀ (sl : SSlot) (d : AReg) (s : State),
     (s.realigned = true → s.SetsA (.mfsr sl d .qctl) d s.ctx.qctl) ∧
     (s.realigned = false → exec (.mfsr sl d .qctl) s = .next (s.wait .realign)) ∧
     s.SetsA (.mfsr sl d .psel) d s.rd.psel ∧
     s.SetsA (.mfsr sl d .rseed) d s.rd.rseed ∧
     s.SetsA (.mfsr sl d .upk) d s.rd.upk ∧
     s.SetsA (.mfsr sl d .sfault) d s.rd.sfault ∧
     s.SetsA (.mfsr sl d .cpcause) d s.rd.cpcause ∧
     (∀ i : BitVec 2,
       (∃ v : Word, s.SetsA (.mfsr sl d (.lc i)) d v ∧ v.toNat = (s.rd.rlc i).toNat) ∧
       s.SetsA (.mfsr sl d (.csh i)) d (s.rd.csh.get 0 i.toNat) ∧
       s.SetsA (.mfsr sl d (.cshs i)) d (s.rd.cshs.get 0 i.toNat) ∧
       s.SetsA (.mfsr sl d (.msh i)) d (s.rd.msh.get 0 i.toNat) ∧
       s.SetsA (.mfsr sl d (.mshs i)) d (s.rd.mshs.get 0 i.toNat) ∧
       s.SetsA (.mfsr sl d (.ssh i)) d (s.rd.ssh.get 0 i.toNat) ∧
       s.SetsA (.mfsr sl d (.sshs i)) d (s.rd.sshs.get 0 i.toNat)) ∧
     (s.sw ≤ 16 → ∃ v : Word, s.SetsA (.mfsr sl d .deck) d v ∧ ufield v 0 5 = s.sw ∧
       ufield v 8 1 = (if s.deckMove.isSome then 1 else 0) ∧ ufield v 9 1 = (if s.deckMove = some true then 1 else 0)) ∧
     (s.swlo ≤ 16 → s.swhi ≤ 16 → s.rclLast < 2 ^ 32 → ∃ v : Word, s.SetsA (.mfsr sl d .dklim) d v ∧
       ufield v 0 5 = s.swlo ∧ ufield v 8 5 = s.swhi ∧ ufield v 32 32 = s.rclLast) ∧
     (∃ v : Word, s.SetsA (.mfsr sl d .l1smp) d v ∧ ufield v 0 16 = Nat.min s.smpLast.hits 65535 ∧
       ufield v 16 16 = Nat.min s.smpLast.miss 65535 ∧ ufield v 32 16 = Nat.min s.smpLast.ghost 65535 ∧
       ufield v 48 16 = Nat.min s.smpLast.lruh 65535) ∧
     (s.ctx.vbase < 1024 → s.ctx.vcnt < 1024 → ∃ v : Word, s.SetsA (.mfsr sl d .vwin) d v ∧
       ufield v 0 10 = s.ctx.vbase ∧ ufield v 16 10 = s.ctx.vcnt) ∧
     (s.ctx.mbase < 8 → s.ctx.mcnt < 16 → s.ctx.dbase < 1024 → s.ctx.dlim < 2048 →
       ∃ v : Word, s.SetsA (.mfsr sl d .mwin) d v ∧ ufield v 0 3 = s.ctx.mbase ∧ ufield v 8 4 = s.ctx.mcnt ∧
         ufield v 16 10 = s.ctx.dbase ∧ ufield v 32 11 = s.ctx.dlim) ∧
     (∃ v : Word, s.SetsA (.mfsr sl d .ctxid) d v ∧ ufield v 0 2 = s.cur.toNat ∧
       ufield v 4 9 = s.core.toNat ∧ ufield v 13 3 = memberOf s.core.toNat ∧
       ufield v 16 6 = groupOf s.core.toNat ∧ ufield v 24 3 = s.part.toNat) ∧
     (∀ t : Task, s.ctx.task = some t → t.x < 65536 → t.y < 65536 →
       (∃ v : Word, s.SetsA (.mfsr sl d .tidx) d v ∧ ufield v 0 16 = t.x ∧ ufield v 16 16 = t.y) ∧
       s.SetsA (.mfsr sl d .tstat) d (if t.inp then 1 else 0))) ∧
  (∀ (sl : SSlot) (a : AReg) (s : State), s.Clean [a] →
     let v : Word := s.rd.ra a
     (∀ r : SR, (r = .psel → ufield v 0 4 < 12) → ∃ t, exec (.mtsr sl r a) s = .next t ∧
       t = { s with ctx := { s.ctx with regs := t.ctx.regs, xpend := t.ctx.xpend, hwrote := t.ctx.hwrote } } ∧
       t.ctx.regs.a = s.ctx.regs.a ∧ t.ctx.regs.aPoison = s.ctx.regs.aPoison ∧ t.ctx.regs.k = s.ctx.regs.k ∧
       t.ctx.regs.g = s.ctx.regs.g ∧
       t.ctx.regs.psel = (if r = .psel then v &&& 15 else s.ctx.regs.psel) ∧
       t.ctx.regs.rseed = (if r = .rseed then v else s.ctx.regs.rseed) ∧
       t.ctx.regs.upk = (if r = .upk then v else s.ctx.regs.upk) ∧
       t.ctx.regs.sfault = (if r = .sfault then v &&& 0xFF3FFFFFFF else s.ctx.regs.sfault) ∧
       t.ctx.regs.cpcause = (if r = .cpcause then v &&& 0xFF1F else s.ctx.regs.cpcause) ∧
       (∀ i, t.ctx.regs.rlc i = if r = .lc i then v.setWidth 32 else s.ctx.regs.rlc i) ∧
       (∀ i : BitVec 2, t.ctx.regs.csh.get 0 i.toNat = (if r = .csh i then v else s.ctx.regs.csh.get 0 i.toNat) ∧
         t.ctx.regs.cshs.get 0 i.toNat = (if r = .cshs i then v else s.ctx.regs.cshs.get 0 i.toNat) ∧
         t.ctx.regs.msh.get 0 i.toNat = (if r = .msh i then v &&& mshMask else s.ctx.regs.msh.get 0 i.toNat) ∧
         t.ctx.regs.mshs.get 0 i.toNat = (if r = .mshs i then v &&& mshMask else s.ctx.regs.mshs.get 0 i.toNat) ∧
         t.ctx.regs.ssh.get 0 i.toNat = (if r = .ssh i then v else s.ctx.regs.ssh.get 0 i.toNat) ∧
         t.ctx.regs.sshs.get 0 i.toNat = (if r = .sshs i then v else s.ctx.regs.sshs.get 0 i.toNat)) ∧
       t.ctx.xpend = s.ctx.xpend ++ (if r = .qctl then [(s.ctx.an, .qctl (v &&& 0x301))]
         else if r = .rseed then [(s.ctx.an, .rcnt0)] else []) ∧
       t.ctx.hwrote = (if s.ctx.active then r :: s.ctx.hwrote else s.ctx.hwrote)) ∧
     (12 ≤ ufield v 0 4 → exec (.mtsr sl .psel a) s = .next (s.raise ⟨.badSr, false, 1 + sl.toNat, 0, 0⟩))) ∧
  ((∀ (sl : SSlot) (d : AReg) (g : GReg) (s : State),
     ∃ v : Word, s.SetsA (.getg sl d g) d v ∧ v.toNat = (s.rd.rg g).toNat) ∧
   (∀ (sl : SSlot) (g : GReg) (a : AReg) (s : State), s.Clean [a] →
     ∃ t, exec (.setg sl g a) s = .next t ∧
       t = { s with ctx := { s.ctx with regs := { s.ctx.regs with g := t.ctx.regs.g } } } ∧
       t.ctx.regs.rg g = (s.rd.ra a).extractLsb' 0 16 ∧ ∀ h, h ≠ g → t.ctx.regs.rg h = s.ctx.regs.rg h) ∧
   (∀ (sl : SSlot) (d : AReg) (s : State) (i : Instr) (id : Nat),
     (i = .popsq sl d ∧ id = qIdSq) ∨ (i = .popbq sl d ∧ id = qIdBq) →
     (∀ (e : QEntry) (r : List QEntry) (v : Vec), s.queue id = e :: r → e.val = some v →
       ∃ t, exec i s = .next t ∧ t.queue id = r ∧
         (s.modCtx (fun c => c.pop id)).WroteA t d (v.setWidth 64) e.poison) ∧
     ((∀ e r v, s.queue id = e :: r → e.val ≠ some v) →
       (s.ctx.lag ≠ [] → exec i s = .next (s.wait .queue)) ∧
       (s.ctx.lag = [] → exec i s = .next (s.raise ⟨.qEmpty, false, 1 + sl.toNat, 0, 0⟩)))))

/-- R292, R293: a branch or call to a target that R56 allows sets where the next A-half issues, CALL writes its link,
and nothing else changes; one that is not taken changes nothing. R56, R75, R292, R293: a target is allowed exactly
where its frame lies below 2^56, its quire can be fetched, and it names an index or an escape of the body. Any other
target of BRA, BRF, JMPR, CALL or RET, taken, raises BADTARGET in the A-half, or, where it could name one but its
quire cannot be fetched, what the fetch raises: CODEFAULT for a page that is absent or not executable, with the target
as its detail. A branch whose target's quire is behind a miss that waits, waits. -/
def Obligations.BranchesCallsAndTargets : Prop :=
  ((∀ s : State, exec .nop s = .next s) ∧
   (∀ (disp : BitVec 24) (s : State), s.targetOk (s.rel disp) →
     exec (.bra disp) s = .next (s.goTo (s.rel disp))) ∧
   (∀ (k : KReg) (neg : Bool) (disp : BitVec 24) (s : State),
     (s.rd.rk k = neg → exec (.brf k neg disp) s = .next s) ∧
     (s.rd.rk k ≠ neg → s.targetOk (s.rel disp) →
       exec (.brf k neg disp) s = .next (s.goTo (s.rel disp)))) ∧
   (∀ (k : KReg) (neg : Bool) (a : AReg) (disp : BitVec 24) (s : State), s.Clean [a] →
     (s.rd.rk k = neg → exec (.jmpr k neg a disp) s = .next s ∧ exec (.ret k neg a) s = .next s) ∧
     (s.rd.rk k ≠ neg →
       (s.targetOk (s.rd.ra a + disp.signExtend 64 * 2) →
         exec (.jmpr k neg a disp) s = .next (s.goTo (s.rd.ra a + disp.signExtend 64 * 2))) ∧
       (s.targetOk (s.rd.ra a) → exec (.ret k neg a) s = .next (s.goTo (s.rd.ra a))))) ∧
   (∀ (a : AReg) (disp : BitVec 24) (s : State), s.targetOk (s.rel disp) →
     ∃ t, exec (.call a disp) s = .next t ∧ (s.goTo (s.rel disp)).WroteA t a s.link false)) ∧
  ((∀ (s : State) (frame : Word) (off : Nat) (q : Quire) (t : State), frame.toNat % 512 = 0 → frame.toNat < 2 ^ 56 →
     off < 512 → s.quireAt frame = .ok (q, t) →
     (s.targetFault (frame + BitVec.ofNat 64 off) = none ↔
       1 ≤ q.cnt ∧ q.cnt ≤ 128 ∧ 64 ≤ off ∧ off % 2 = 0 ∧ QuirePos q.body ((off - 64) / 2)) ∧
     (s.targetFault (frame + BitVec.ofNat 64 off) ≠ none →
       s.targetFault (frame + BitVec.ofNat 64 off) = some .badTarget)) ∧
   (∀ (s : State) (frame : Word) (off : Nat) (c : Cause), frame.toNat % 512 = 0 → frame.toNat < 2 ^ 56 → 64 ≤ off →
     off < 512 → off % 2 = 0 → s.quireAt frame = .error c → s.targetFault (frame + BitVec.ofNat 64 off) = some c) ∧
   (∀ (s : State) (frame : Word) (c : Cause) (t : State), (∀ q ∈ s.loopBuf, q.asid = s.ctx.job.asid → q.frame ≠ frame) →
     s.translate s.ctx.job.asid s.ctx.job.root frame .exec = (.fault c, t) →
     s.quireAt frame = .error (if c = .pgAbsent ∨ c = .pgPerm then .codeFault else c)) ∧
   (∀ (s : State) (target : Word), 2 ^ 56 ≤ target.toNat → s.targetBad target .badTarget) ∧
   (∀ (s : State) (k : KReg) (neg : Bool) (a : AReg) (disp : BitVec 24) (target : Word),
     let taken (i : Instr) : Prop := (i = .bra disp ∧ target = s.rel disp) ∨ (i = .call a disp ∧ target = s.rel disp) ∨
       (i = .brf k neg disp ∧ s.rd.rk k ≠ neg ∧ target = s.rel disp) ∨
       (i = .jmpr k neg a disp ∧ s.Clean [a] ∧ s.rd.rk k ≠ neg ∧ target = s.rd.ra a + disp.signExtend 64 * 2) ∨
       (i = .ret k neg a ∧ s.Clean [a] ∧ s.rd.rk k ≠ neg ∧ target = s.rd.ra a)
     ∀ i, taken i →
       (∀ c, s.targetBad target c → c ≠ .poison →
         exec i s = .next (s.raise ⟨c, false, 0, 0, if c = .codeFault then target else 0⟩)) ∧
       (s.targetServed target = false → exec i s = .next (s.awaitPage (frameOf target)))))

/-- R294, R295: BRQ pops bq and branches on its head; BRP, with the two halves aligned, branches on a predicate that
is the same in every lane, and raises NONUNIFORM on any other. R296: LOOP loads a counter and skips the body on zero;
LEND counts down and goes back while it is not zero. R297: JTAB with a table in a segment, or in global memory: the
entry's displacement, or the default's for an index that is not below the length; and what it raises where the header
lies beyond the segment or is misaligned. That the table is read at issue is the model's choice, DEDUCED (log entry
14), and so is the detail word of a fault in a segment, the offset (log entry 50). -/
def Obligations.LoopsTablesAndBranchesOnTheXHalf : Prop :=
  ((∀ (neg : Bool) (disp : BitVec 24) (s : State) (e : QEntry) (r : List QEntry) (v : Vec),
     s.queue qIdBq = e :: r → e.val = some v →
     ((v ≠ 0) = (neg = true) → exec (.brq neg disp) s = .next (s.modCtx (fun c => c.pop qIdBq))) ∧
     ((v ≠ 0) ≠ (neg = true) → s.targetOk (s.rel disp) →
       exec (.brq neg disp) s = .next ((s.goTo (s.rel disp)).modCtx (fun c => c.pop qIdBq)))) ∧
   (∀ (p : BitVec 4) (neg : Bool) (disp : BitVec 24) (s : State), s.realigned = true →
     let seen : BitVec 3 → BitVec 16 := fun cl => (s.landAt s.ctx.an).ctx.pred cl p.toNat
     ((∀ cl, seen cl = 0xFFFF) →
       (neg = true → exec (.brp p neg disp) s = .next s) ∧
       (neg = false → s.targetOk (s.rel disp) → exec (.brp p neg disp) s = .next (s.goTo (s.rel disp)))) ∧
     ((∀ cl, seen cl = 0) →
       (neg = false → exec (.brp p neg disp) s = .next s) ∧
       (neg = true → s.targetOk (s.rel disp) → exec (.brp p neg disp) s = .next (s.goTo (s.rel disp)))) ∧
     ((¬ ∀ cl, seen cl = 0xFFFF) → (¬ ∀ cl, seen cl = 0) →
       ∃ detail, exec (.brp p neg disp) s = .next (s.raise ⟨.nonUniform, false, 0, 0, detail⟩)))) ∧
  ((∀ (lc : BitVec 2) (a : AReg) (disp : BitVec 24) (s : State), s.Clean [a] →
     let n : BitVec 32 := (s.rd.ra a).setWidth 32
     (n ≠ 0 → exec (.loop lc a disp) s = .next (s.setLc lc n)) ∧
     (n = 0 → s.targetOk (s.rel disp) →
       exec (.loop lc a disp) s = .next ((s.goTo (s.rel disp)).setLc lc 0))) ∧
   (∀ (lc : BitVec 2) (disp : BitVec 24) (s : State),
     let old : BitVec 32 := s.rd.rlc lc
     (old.toNat ≤ 1 → exec (.lend lc disp) s = .next (s.setLc lc 0)) ∧
     (2 ≤ old.toNat → s.targetOk (s.rel disp) →
       exec (.lend lc disp) s = .next ((s.goTo (s.rel disp)).setLc lc (old - 1)))) ∧
   (∀ (s : State) (lc : BitVec 2) (n : BitVec 32), (s.setLc lc n).ctx.regs.rlc lc = n ∧
     ∀ i, i ≠ lc → (s.setLc lc n).ctx.regs.rlc i = s.ctx.regs.rlc i)) ∧
  ((∀ (a idx : AReg) (g : GReg) (s : State) (e : SegEntry), s.Clean [a, idx] →
     s.segReady g (s.rd.ra a) 8 e → e.poisoned (s.rd.ra a).toNat 8 = false →
     let hdr : Word := BitVec.ofNat 64 (bytesNat (e.read (s.rd.ra a).toNat 8))
     let s1 := s.touchSeg s.cur e.name
     ((s.rd.ra idx).toNat ≥ ufield hdr 0 32 →
       let target := s.ctx.pc + 2 * BitVec.ofInt 64 (sfield hdr 32 32)
       s1.targetOk target → exec (.jtab a idx g true) s = .next (s1.goTo target)) ∧
     ((s.rd.ra idx).toNat < ufield hdr 0 32 →
       let at_ := s.rd.ra a + 8 + 4 * s.rd.ra idx
       ∀ e1, s1.segReady g at_ 4 e1 → e1.poisoned at_.toNat 4 = false →
       let d : BitVec 32 := BitVec.ofNat 32 (bytesNat (e1.read at_.toNat 4))
       let target := s.ctx.pc + 2 * d.signExtend 64
       let s2 := s1.touchSeg s.cur e1.name
       s2.targetOk target → exec (.jtab a idx g true) s = .next (s2.goTo target))) ∧
   (∀ (a idx : AReg) (g : GReg) (s s1 : State) (pa : Nat) (tl : Tlb), s.Clean [a, idx] →
     let readable (u v : State) (va : Word) (n p : Nat) (t : Tlb) : Prop := u.globReady va n .read p t v ∧
       v.firstAt p n t.kind .plain ∧ v.reqs.length < 1024 ∧ v.layerOff p = false ∧ v.memPoisoned p n = false
     let after (v : State) (p : Nat) (t : Tlb) : State := (v.noteAccess p).l2Access p 0 s.ctx.job.ten (t.kind == kindUN) false
     readable s s1 (s.rd.ra a) 8 pa tl →
     let hdr : Word := BitVec.ofNat 64 (bytesNat (s1.memBytes pa 8))
     let s2 := after s1 pa tl
     ((s.rd.ra idx).toNat ≥ ufield hdr 0 32 →
       let target := s.ctx.pc + 2 * BitVec.ofInt 64 (sfield hdr 32 32)
       s2.targetOk target → exec (.jtab a idx g false) s = .next (s2.goTo target)) ∧
     ((s.rd.ra idx).toNat < ufield hdr 0 32 → ∀ (s3 : State) (pb : Nat) (tm : Tlb),
       readable s2 s3 (s.rd.ra a + 8 + 4 * s.rd.ra idx) 4 pb tm →
       let d : BitVec 32 := BitVec.ofNat 32 (bytesNat (s3.memBytes pb 4))
       let target := s.ctx.pc + 2 * d.signExtend 64
       let s4 := after s3 pb tm
       s4.targetOk target → exec (.jtab a idx g false) s = .next (s4.goTo target))) ∧
   (∀ (a idx : AReg) (g : GReg) (s : State) (e : SegEntry), s.Clean [a, idx] → s.seg s.cur (s.rd.rg g) = some e →
     ((s.rd.ra a).toNat % 8 ≠ 0 →
       exec (.jtab a idx g true) s = .next (s.raise ⟨.misalign, false, 0, 0, s.rd.ra a⟩)) ∧
     ((s.rd.ra a).toNat % 8 = 0 → 128 * e.size < (s.rd.ra a).toNat + 8 →
       exec (.jtab a idx g true) s = .next (s.raise ⟨.segBound, false, 0, 0, s.rd.ra a⟩))))

/-- R183: a load of a segment leaves the extended bytes in a[D]; a global load becomes one more request, which will
read its bytes at the translated address into a[D]. R185, R188, R189: a queue load of a segment pushes one filled
entry to each queue it names: the 64 bytes, or for LDQX the fields that the unpack pattern selects, sign- or zero-
extended; a global one reserves the entries. -/
def Obligations.LoadsIntoRegistersAndQueues : Prop :=
  ((∀ (t : LdTy) (d : AReg) (m : LMem) (s : State) (e : SegEntry), s.Clean m.a.areads →
     s.segReady m.g (s.rd.addr m.a) t.bytes e →
     let off := (s.rd.addr m.a).toNat
     ∃ (u : State) (v : Word), exec (.ldaLocal t d m) s = .next u ∧ LoadedAs t (e.read off t.bytes) v ∧
       (s.touchSeg s.cur e.name).WroteA u d v (e.poisoned off t.bytes)) ∧
   (∀ (t : LdTy) (d : AReg) (m : GMem) (s s1 : State) (pa : Nat) (tl : Tlb), s.Clean m.a.areads →
     s.globReady (s.rd.addr m.a) t.bytes .read pa tl s1 → s1.reqs.length < 1024 →
     ∃ (u : State) (q : Req), exec (.lda t d m) s = .next u ∧
       u = { s1 with fresh := s1.fresh + 1, reqs := dropPending s1.cur d s1.reqs ++ [q] } ∧
       q.ctx = s1.cur ∧ q.act = .areg d t ∧ q.pa = pa ∧ q.width = t.bytes ∧ q.kind = tl.kind ∧ q.hint = m.hint ∧
       q.w = m.w ∧ q.ord = m.ord ∧ q.scope = m.scope)) ∧
  ((∀ (q : InQ) (m : LMem) (s : State) (e : SegEntry) (i : Instr) (va : Word) (un : Option (Word × Nat)),
     (i = .ldqLocal q m ∧ va = s.rd.addr m.a ∧ un = none) ∨
       (i = .ldqxLocal q m ∧ va = s.rd.addrNoIdx m.a ∧ un = some (s.rd.upk, s.rd.bitStart m.a)) →
     s.Clean m.a.areads → s.segReady m.g va 64 e → (∀ id ∈ q.ids, s.boundQ id = false) →
     (∀ u b, un = some (u, b) → (unpackOf u b).isSome = true) → (∀ id ∈ q.ids, (s.queue id).length < 8) →
     ∃ u, exec i s = .next u ∧
       u = { s with ctx := { s.ctx with queues := u.ctx.queues }, segs := u.segs, fresh := u.fresh } ∧
       u.segs = s.segs.map (fun x => if x.ctx = s.cur ∧ x.name = e.name then
         { x with touched := s.fresh + q.ids.length } else x) ∧
       (∀ id ∈ q.ids, (u.queue id).length = (s.queue id).length + 1 ∧
         ∃ x, (u.queue id).getLast? = some x ∧ x.poison = e.poisoned va.toNat 64 ∧
           x.val = some (deliver un (bytesVec (e.read va.toNat 64)))) ∧
       (∀ id, id ∉ q.ids → u.queue id = s.queue id)) ∧
   (∀ (q : InQ) (m : GMem) (s s1 : State) (pa : Nat) (tl : Tlb) (i : Instr) (va : Word) (un : Option (Word × Nat)),
     (i = .ldq q m ∧ va = s.rd.addr m.a ∧ un = none) ∨
       (i = .ldqx q m ∧ va = s.rd.addrNoIdx m.a ∧ un = some (s.rd.upk, s.rd.bitStart m.a)) →
     s.Clean m.a.areads → s.globReady va 64 .read pa tl s1 → (∀ id ∈ q.ids, s1.boundQ id = false) →
     (∀ u b, un = some (u, b) → (unpackOf u b).isSome = true) → (∀ id ∈ q.ids, (s1.queue id).length < 8) →
     s1.reqs.length < 1024 →
     ∃ (u : State) (r : Req) (dst : List (Nat × Nat)), exec i s = .next u ∧
       u = { s1 with ctx := { s1.ctx with queues := u.ctx.queues }, fresh := u.fresh, reqs := s1.reqs ++ [r] } ∧
       r.ctx = s1.cur ∧ r.act = .queue dst un ∧ dst.map (·.1) = q.ids ∧ r.pa = pa ∧ r.width = 64 ∧ r.ord = m.ord ∧
       (∀ d ∈ dst, ∃ x, u.queue d.1 = s1.queue d.1 ++ [x] ∧ x.tick = d.2 ∧ x.val = none)) ∧
   (∀ (upk : Word) (b : Nat) (blk : Vec) (u : Unpack), unpackOf upk b = some u →
     ∀ e, e < u.nout →
       let bit := b + e / u.nf * u.per + u.foff + e % u.nf * u.fst
       let f : BitVec u.w := blk.extractLsb' bit u.w
       (deliver (some (upk, b)) blk).extractLsb' (u.osz * e) u.osz =
         if u.sgn then f.signExtend u.osz else f.setWidth u.osz))

/-- R184, R186: a store to a segment changes the bytes it names and no other byte of any segment, and no full bit; a
global store becomes one more request, with its data. STQ takes its data from the head of its queue and pops it. -/
def Obligations.StoresToSegmentsAndMemory : Prop :=
  (∀ (t : StTy) (d : AReg) (m : LMem) (s : State) (e : SegEntry), s.Clean m.a.areads →
    s.segWritable m.g (s.rd.addr m.a) t.bytes e →
    ∃ u, exec (.staLocal t d m) s = .next u ∧
      s.StoredSeg u e.name (s.rd.addr m.a).toNat (natBytes t.bytes (s.rd.ra d).toNat)) ∧
  (∀ (q : OutQ) (m : LMem) (s : State) (e : SegEntry) (x : QEntry) (r : List QEntry) (v : Vec), s.Clean m.a.areads →
    s.segWritable m.g (s.rd.addr m.a) 64 e → s.boundQ (OutQ.id q) = false → s.queue (OutQ.id q) = x :: r →
    x.val = some v →
    ∃ u, exec (.stqLocal q m) s = .next u ∧
      (s.modCtx (fun c => c.pop (OutQ.id q))).StoredSeg u e.name (s.rd.addr m.a).toNat (vecBytes v)) ∧
  (∀ (t : StTy) (d : AReg) (m : GMem) (s s1 : State) (pa : Nat) (tl : Tlb), s.Clean m.a.areads →
    s.globReady (s.rd.addr m.a) t.bytes .write pa tl s1 → s1.reqs.length < 1024 →
    ∃ (u : State) (q : Req), exec (.sta t d m) s = .next u ∧
      u = { s1.nextSeq with fresh := s1.fresh + 1, reqs := s1.reqs ++ [q] } ∧ q.ctx = s1.cur ∧
      q.act = .store ((s.rd.ra d).setWidth 512) (s.rd.aPoison.get false d.toNat) ∧ q.pa = pa ∧ q.width = t.bytes ∧
      q.kind = tl.kind ∧ q.hint = m.hint ∧ q.ord = m.ord ∧ q.scope = m.scope) ∧
  (∀ (o : OutQ) (m : GMem) (s s1 : State) (pa : Nat) (tl : Tlb) (x : QEntry) (r : List QEntry) (v : Vec),
    s.Clean m.a.areads → s.globReady (s.rd.addr m.a) 64 .write pa tl s1 → s1.reqs.length < 1024 →
    s1.boundQ (OutQ.id o) = false → s1.queue (OutQ.id o) = x :: r → x.val = some v →
    ∃ (u : State) (q : Req), exec (.stq o m) s = .next u ∧
      u = { (s1.modCtx (fun c => c.pop (OutQ.id o))).nextSeq with fresh := s1.fresh + 1, reqs := s1.reqs ++ [q] } ∧
      u.queue (OutQ.id o) = r ∧ q.ctx = s1.cur ∧ q.act = .store v x.poison ∧ q.pa = pa ∧ q.width = 64)

/-- R182, R184, R303: a load request that is performed below the L1 delivers the bytes that memory holds to its
register; a store request writes its bytes, and no byte outside them changes; each leaves the list. -/
def Obligations.LoadAndStoreRequests : Prop :=
  (∀ (s : State) (i : Nat) (q : Req) (d : AReg) (t : LdTy), s.mayPerform i = some q → q.act = .areg d t →
    q.ctx = s.cur → q.w = true ∨ q.kind ≠ kindRC ∨ q.ord ≠ .plain → s.layerOff q.pa = false →
    ∃ (u : State) (v : Word), exec (.loadDataArrival i) s = .next u ∧ LoadedAs t (s.memBytes q.pa q.width) v ∧
      (d ≠ 0 → u.ctx.regs.ra d = v ∧
        u.ctx.regs.aPoison.get false d.toNat = s.memPoisoned q.pa q.width) ∧
      (∀ x : AReg, x ≠ d ∨ x = 0 → u.ctx.regs.ra x = s.ctx.regs.ra x) ∧
      u.reqs = s.reqs.eraseIdx i ∧ u.mem = s.mem ∧ u.segs = s.segs ∧
      u.ctx = { s.ctx with regs := { s.ctx.regs with a := u.ctx.regs.a, aPoison := u.ctx.regs.aPoison } }) ∧
  (∀ (s : State) (i : Nat) (q : Req) (v : Vec) (p : Bool), s.mayPerform i = some q → q.act = .store v p →
    s.layerOff q.pa = false → 1 ≤ q.width → q.width ≤ 64 →
    ∃ u, exec (.storePerformed i) s = .next u ∧ u.reqs = s.reqs.eraseIdx i ∧ u.ctx = s.ctx ∧ u.segs = s.segs ∧
      (∀ j, j < q.width → (u.memByte (q.pa + j)).toNat = v.toNat / 256 ^ j % 256) ∧
      (∀ a, a < q.pa ∨ q.pa + q.width ≤ a → u.memByte a = s.memByte a)) ∧
  (∀ (s : State) (i : Nat) (q : Req), s.mayPerform i = some q →
    ∀ p ∈ s.reqs.take i, p.ctx = q.ctx → p.precedes q.pa q.width q.kind q.ord = false)

/-- R104, R105: the scalar form performs the read and the write of its operation as one event: the word becomes what
the operation makes of it, every other byte keeps its value, and a[D] receives the old word. That the event is the
issue of the instruction is the model's choice, DEDUCED (log entry 14). An atomic of a partition whose unmatched keys
are full waits, before it has any effect (R404). R104 to R106: the vector form updates every lane of the block by the
same operation, or each of its rational words, pops its operand and writes no register, with a poisoned operand too
(the model's reading, DEDUCED: log entry 20); the local form does the same to a segment of the task, in both its
forms. -/
def Obligations.AtomicOperations : Prop :=
  (∀ (op : AtomOp) (d : AReg) (m : GMem) (s s1 : State) (pa : Nat) (tl : Tlb),
     let n := if op = .fadd then 4 else 8
     let va := if op = .cas then s.rd.addrNoIdx m.a else s.rd.addr m.a
     s.Clean (d :: m.a.areads) → s.globReady va n .atomic pa tl s1 → inHost pa = false → inJirum pa = false →
     s1.firstAt pa n tl.kind m.ord → s1.reqs.length < 1024 →
     (s1.cmpHeld = true → exec (atomOf op (.scalar d) m) s = .next (s1.wait .engine)) ∧
     (s1.cmpHeld = false → s1.layerOff pa = false → s1.memPoisoned pa n = false →
     ∃ (u : State) (new : Word), exec (atomOf op (.scalar d) m) s = .next u ∧
       AtomSpec op (primeOf (ufield s.rd.psel 0 4)) (s.rd.ra m.a.idx) (BitVec.ofNat 64 (s1.memNat pa n)) (s.rd.ra d) new ∧
       (∀ j, j < n → (u.memByte (pa + j)).toNat = new.toNat / 256 ^ j % 256) ∧
       (∀ a, a < pa ∨ pa + n ≤ a → u.memByte a = s1.memByte a) ∧
       (d ≠ 0 → u.ctx.regs.ra d = BitVec.ofNat 64 (s1.memNat pa n) ∧ u.ctx.regs.aPoison.get false d.toNat = false) ∧
       (∀ x : AReg, x ≠ d ∨ x = 0 → u.ctx.regs.ra x = s1.ctx.regs.ra x) ∧
       u.ctx = { s1.ctx with
         task := u.ctx.task
         regs := { s1.ctx.regs with a := u.ctx.regs.a, aPoison := u.ctx.regs.aPoison } } ∧
       u.segs = s1.segs)) ∧
  ((∀ (op : AtomOp) (q : OutQ) (m : GMem) (s s1 : State) (pa : Nat) (tl : Tlb) (x : QEntry) (r : List QEntry) (v : Vec),
     op ≠ .swap → op ≠ .cas → s.Clean m.a.areads → s.globReady (s.rd.addr m.a) 64 .atomic pa tl s1 → inHost pa = false → inJirum pa = false →
     s1.boundQ (OutQ.id q) = false → s1.queue (OutQ.id q) = x :: r → x.val = some v →
     s1.firstAt pa 64 tl.kind m.ord → s1.reqs.length < 1024 → s1.cmpHeld = false → s1.layerOff pa = false → s1.memPoisoned pa 64 = false →
     ∃ u, exec (atomOf op (.vector q) m) s = .next u ∧
       BlockAtomSpec op (primeOf (ufield s.rd.psel 0 4)) (bytesVec (s1.memBytes pa 64)) v (bytesVec (u.memBytes pa 64)) ∧
       (∀ a, a < pa ∨ pa + 64 ≤ a → u.memByte a = s1.memByte a) ∧
       u.queue (OutQ.id q) = r ∧ u.ctx.regs = s1.ctx.regs ∧ u.segs = s1.segs) ∧
   (∀ (op : AtomOp) (d : AReg) (m : LMem) (s : State) (e : SegEntry),
     let n := if op = .fadd then 4 else 8
     let va := if op = .cas then s.rd.addrNoIdx m.a else s.rd.addr m.a
     s.Clean (d :: m.a.areads) → s.segReady m.g va n e → e.poisoned va.toNat n = false →
     let old : Word := BitVec.ofNat 64 (bytesNat (e.read va.toNat n))
     ∃ (u : State) (new : Word), exec (.atomLocal op (.scalar d) m) s = .next u ∧
       AtomSpec op (primeOf (ufield s.rd.psel 0 4)) (s.rd.ra m.a.idx) old (s.rd.ra d) new ∧
       (∃ w : State, s.StoredSeg w e.name va.toNat (natBytes n new.toNat) ∧
         u = { w with reqs := dropPending s.cur d s.reqs
                      ctx := { s.ctx with regs := { s.ctx.regs with a := u.ctx.regs.a, aPoison := u.ctx.regs.aPoison } } }) ∧
       (d ≠ 0 → u.ctx.regs.ra d = old) ∧ (∀ x : AReg, x ≠ d ∨ x = 0 → u.ctx.regs.ra x = s.ctx.regs.ra x)) ∧
   (∀ (op : AtomOp) (q : OutQ) (m : LMem) (s : State) (e : SegEntry) (x : QEntry) (r : List QEntry) (v : Vec),
     op ≠ .swap → op ≠ .cas → s.Clean m.a.areads → s.segReady m.g (s.rd.addr m.a) 64 e →
     e.poisoned (s.rd.addr m.a).toNat 64 = false →
     s.boundQ (OutQ.id q) = false → s.queue (OutQ.id q) = x :: r → x.val = some v →
     ∃ (u : State) (new : Vec), exec (.atomLocal op (.vector q) m) s = .next u ∧ u.queue (OutQ.id q) = r ∧
       BlockAtomSpec op (primeOf (ufield s.rd.psel 0 4)) (bytesVec (e.read (s.rd.addr m.a).toNat 64)) v new ∧
       (s.modCtx (fun c => c.pop (OutQ.id q))).StoredSeg u e.name (s.rd.addr m.a).toNat (vecBytes new)))

/-- R168, R169: SEGNEW creates an absent segment of zeros, full or empty, with a slot of its own in the push-out area,
and answers OK; where a row of its status table applies it creates nothing and answers that row. R170 to R172, R174:
SEGFREE removes the segment, SEGPIN and SEGUNPIN set and clear its pin, SEGSZ reports it and never traps, SEGFMT
changes its descriptor; nothing else of the table changes. That NOSEG and SEGBUSY have the detail word 0 is the
model's reading (log entry 50). R173: SEGCLR sets or clears the full bits of a run of lines, and with actions 2 and 3
their bytes become zero; no other line and no other segment changes. -/
def Obligations.SegmentTable : Prop :=
  (∀ (d : AReg) (g : GReg) (size : AReg) (fmt : ElemFmt) (empty : Bool) (s : State), s.Clean [size] →
     let name := s.rd.rg g
     let n := (s.rd.ra size).toNat
     let h := (s.ctx.task.map (·.h)).getD 0
     (name = 0 → s.SetsA (.segnew d g size fmt empty) d 4) ∧
     (name ≠ 0 → (s.seg s.cur name).isSome → s.SetsA (.segnew d g size fmt empty) d 1) ∧
     (name ≠ 0 → s.seg s.cur name = none →
       (n = 0 ∨ 4096 < n ∨ (fmt = .e2m1b ∧ n % 9 ≠ 0) → s.SetsA (.segnew d g size fmt empty) d 3) ∧
       (1 ≤ n → n ≤ 4096 → (fmt = .e2m1b → n % 9 = 0) →
         (h < n → s.SetsA (.segnew d g size fmt empty) d 5) ∧
         (n ≤ h → 256 ≤ s.segs.length → s.SetsA (.segnew d g size fmt empty) d 2) ∧
         (n ≤ h → (∀ at_, s.runFree at_ n = false) → s.SetsA (.segnew d g size fmt empty) d 2) ∧
         (n ≤ h → s.segs.length < 256 → (s.freeRun n).isSome →
           ∃ (t : State) (e : SegEntry), exec (.segnew d g size fmt empty) s = .next t ∧
             (State.WroteA { s with segs := s.segs ++ [e], fresh := s.fresh + 1 } t d 0 false) ∧
             e.name = name ∧ e.ctx = s.cur ∧ e.fmt = fmt ∧ e.size = n ∧ e.st = .absent ∧ e.zimg = true ∧ e.anc = false ∧
             e.ppin = false ∧ e.mpin = false ∧ e.cpins = 0 ∧ e.spins = 0 ∧ e.bytes = [] ∧ e.poison = [] ∧
             (∀ l, l < n → e.empty.get false l = empty) ∧ e.spoff + n ≤ 32768 ∧
             (∀ x ∈ s.segs, e.spoff + n ≤ x.spoff ∨ x.spoff + x.size ≤ e.spoff))))) ∧
  ((∀ (g : GReg) (s : State) (e : SegEntry), s.seg s.cur (s.rd.rg g) = some e →
     (e.ppin = false → e.spins = 0 → e.cpins = 0 → ∃ t, exec (.segfree g) s = .next t ∧ t = { s with segs := t.segs } ∧
       ∀ x, x ∈ t.segs ↔ x ∈ s.segs ∧ ¬ (x.ctx = s.cur ∧ x.name = e.name)) ∧
     (e.ppin = true ∨ e.spins ≠ 0 → exec (.segfree g) s = .next (s.raise ⟨.segBusy, false, 3, 0, 0⟩)) ∧
     (e.ppin = false → s.pinFate s.cur [e.name] = .fits → e.st = .resident →
       ∃ t, exec (.segpin g) s = .next t ∧ t = { s with segs := t.segs, fresh := s.fresh + 1 } ∧
         t.segs = s.segs.map (fun x => if x.ctx = s.cur ∧ x.name = e.name then { x with ppin := true, touched := s.fresh } else x)) ∧
     (e.ppin = true → exec (.segpin g) s = .next s) ∧
     (∃ t, exec (.segunpin g) s = .next t ∧ t = { s with segs := t.segs } ∧
       t.segs = s.segs.map (fun x => if x.ctx = s.cur ∧ x.name = e.name then { x with ppin := false } else x)) ∧
     (∀ (d : AReg) (fmt : ElemFmt), e.cpins = 0 →
       (fmt = .e2m1b → e.size % 9 = 0 → ∃ t, exec (.segfmt d g fmt) s = .next t ∧
         State.WroteA { s with segs := s.segs.map (fun x => if x.ctx = s.cur ∧ x.name = e.name then
           { x with fmt := fmt } else x) } t d 0 false) ∧
       (fmt ≠ .e2m1b → ∃ t, exec (.segfmt d g fmt) s = .next t ∧
         State.WroteA { s with segs := s.segs.map (fun x => if x.ctx = s.cur ∧ x.name = e.name then
           { x with fmt := fmt } else x) } t d 0 false) ∧
       (fmt = .e2m1b → e.size % 9 ≠ 0 → s.SetsA (.segfmt d g fmt) d 3)) ∧
     (∀ d : AReg, e.size ≤ 4096 → ∃ v : Word, s.SetsA (.segsz d g) d v ∧ ufield v 0 13 = e.size ∧
       ufield v 16 4 = (encodeFmt e.fmt).toNat ∧
       (v.getLsbD 20 = true ↔ e.st = .resident ∨ e.st = .moving) ∧ v.getLsbD 21 = e.anc ∧ v.getLsbD 22 = e.ppin ∧
       (v.getLsbD 23 = true ↔ e.mpin = true ∨ e.cpins + e.spins ≠ 0))) ∧
   (∀ (g : GReg) (s : State), s.seg s.cur (s.rd.rg g) = none →
     (∀ d, s.SetsA (.segsz d g) d 0) ∧ (∀ d fmt, exec (.segfmt d g fmt) s = .next (s.raise ⟨.noSeg, false, 3, 0, 0⟩)) ∧
     exec (.segfree g) s = .next (s.raise ⟨.noSeg, false, 3, 0, 0⟩) ∧
     exec (.segpin g) s = .next (s.raise ⟨.noSeg, false, 3, 0, 0⟩) ∧
     exec (.segunpin g) s = .next (s.raise ⟨.noSeg, false, 3, 0, 0⟩))) ∧
  (∀ (g : GReg) (off cnt : AReg) (act : BitVec 2) (s : State) (e : SegEntry), s.Clean [off, cnt] →
     let o := (s.rd.ra off).toNat
     let n := (s.rd.ra cnt).toNat
     let l := o / 128
     s.seg s.cur (s.rd.rg g) = some e → o % 128 = 0 → 1 ≤ n → l + n ≤ e.size → e.spins = 0 → e.cpins = 0 →
     s.pinFate s.cur [e.name] = .fits → e.st = .resident →
     ∃ t, exec (.segclr g off cnt act) s = .next t ∧ t = { s with segs := t.segs, fresh := s.fresh + 1 } ∧
       ∀ (i : Nat) (x : SegEntry), s.segs[i]? = some x → ∃ y : SegEntry, t.segs[i]? = some y ∧
         (¬ (x.ctx = s.cur ∧ x.name = e.name) → y = x) ∧
         (x.ctx = s.cur ∧ x.name = e.name →
           y = { x with empty := y.empty, bytes := y.bytes, poison := y.poison, touched := s.fresh } ∧
           (∀ k, y.empty.get false k =
             if l ≤ k ∧ k < l + n then decide (act = 0 ∨ act = 3) else x.empty.get false k) ∧
           (∀ a, y.bytes.get 0 a =
             if 128 * l ≤ a ∧ a < 128 * (l + n) ∧ (act = 2 ∨ act = 3) then 0 else x.bytes.get 0 a)))

/-- R156, R158, R165: a recall places the segment in free lines of the segment store and makes it resident, with zeros
where its image is zero and otherwise with what its slot in the push-out area holds. R156, R157: a push-out begins on
the next victim where room is needed, and ends with the segment's bytes in its slot, its lines free and its full bits
kept. R159: the tamper moves a line behind the line before it, or down. R155, R180, R181: the deckle moves within the
effective range, and an epoch's end clears the counts; that a move still running then ends without effect is the
model's choice, DEDUCED (log entry 17), and so is where the push-out area lies (DESIGN CHOICE, log entry 21). -/
def Obligations.SegmentResidency : Prop :=
  (∀ (s : State) (e : SegEntry), s.segs.filter (fun x => x.st == .recalling) = [e] → s.untraced 5 →
    ((s.ctxAt e.ctx).task.map (·.rl)).getD 0 = 0 → s.usedLines.length + e.size ≤ 512 * s.sw →
    e.size ≤ s.freeLines.length →
    (e.zimg = true →
      ∃ (t : State) (place : List Nat), exec .segmentRecall s = .next t ∧ place.length = e.size ∧
        (∀ p ∈ place, p < 512 * s.sw ∧ p ∉ s.usedLines) ∧
        t.segs = s.segs.map (fun x => if x.ctx = e.ctx ∧ x.name = e.name then
          { x with st := .resident, place := place, touched := s.fresh, bytes := e.bytes, poison := e.poison } else x) ∧
        t = { s with segs := t.segs, fresh := s.fresh + 1, rcl := s.rcl + e.size }) ∧
    (e.zimg = false → (∀ u, u < 2 * e.size → s.layerOff (s.slotUnit e u) = false) →
      ∃ (t : State) (y : SegEntry), exec .segmentRecall s = .next t ∧ y.place.length = e.size ∧
        (∀ p ∈ y.place, p < 512 * s.sw ∧ p ∉ s.usedLines) ∧ y.st = .resident ∧
        t.segs = s.segs.map (fun x => if x.ctx = e.ctx ∧ x.name = e.name then
          { x with st := .resident, place := y.place, touched := y.touched, bytes := y.bytes, poison := y.poison } else x) ∧
        (∀ u, u < 2 * e.size → y.read (64 * u) 64 = s.memBytes (s.slotUnit e u) 64 ∧
          y.poison.get false u = s.memPoisoned (s.slotUnit e u) 64) ∧
        t.rcl = s.rcl + e.size ∧ t.mem = s.mem ∧ t.memPoison = s.memPoison ∧ t.ctx = s.ctx ∧ t.others = s.others)) ∧
  (∀ (s : State) (ctx : BitVec 2) (name : BitVec 16) (e : SegEntry), s.seg ctx name = some e →
    (∀ (only : Option (BitVec 2)) (v : SegEntry), e.st ≠ .pushing → s.roomNeed = some only → s.nextVictim only = some v →
      (v.ctx = ctx → v.name = name →
        ∃ t, exec (.pushOut ctx name) s = .next t ∧ t = { s with segs := t.segs } ∧
          t.segs = s.segs.map (fun x => if x.ctx = ctx ∧ x.name = name then { x with st := .pushing } else x)) ∧
      (¬ (v.ctx = ctx ∧ v.name = name) → exec (.pushOut ctx name) s = .next s)) ∧
    (e.st ≠ .pushing → s.roomNeed = none → exec (.pushOut ctx name) s = .next s) ∧
    (e.st = .pushing → s.pushArea % 64 = 0 → (∀ u, u < 2 * e.size → s.layerOff (s.slotUnit e u) = false) →
      ∃ t, exec (.pushOut ctx name) s = .next t ∧
        t.segs = s.segs.map (fun x => if x.ctx = ctx ∧ x.name = name then
          { x with st := .absent, place := [], zimg := false, bytes := [], poison := [] } else x) ∧
        (∀ u, u < 2 * e.size → t.memBytes (s.slotUnit e u) 64 = e.read (64 * u) 64 ∧
          t.memPoisoned (s.slotUnit e u) 64 = e.poisoned (64 * u) 64) ∧
        (∀ a, ¬ (s.slotUnit e 0 ≤ a ∧ a < s.slotUnit e 0 + 128 * e.size) → t.memByte a = s.memByte a) ∧
        t.ctx = s.ctx ∧ t.others = s.others) ∧
    (∀ (line old new : Nat), e.st = .resident → e.ppin = false → e.mpin = false → e.cpins = 0 → e.spins = 0 →
      e.place[line]? = some old →
      (line = 0 ∧ s.freeLines.head? = some new ∧ new < old) ∨
      (∃ k p, line = k + 1 ∧ e.place[k]? = some p ∧ p + 1 ≠ old ∧
        ((p + 1 ∈ s.freeLines ∧ new = p + 1) ∨ (p + 1 ∉ s.freeLines ∧ s.freeLines.head? = some new ∧ new < old))) →
      ∃ t, exec (.tamperMove ctx name line) s = .next t ∧ t = { s with segs := t.segs } ∧
        t.segs = s.segs.map (fun x => if x.ctx = ctx ∧ x.name = name then
          { x with place := e.place.set line new, st := if line + 1 = e.size then .resident else .moving } else x))) ∧
  (∀ s : State, s.deckMove = none → s.sw < s.swhi → s.untraced 10 → ∃ t, exec .deckleTakeWay s = .next t ∧ t.sw = s.sw + 1 ∧
    t.segs = s.segs ∧ t.deckMove = none ∧ (∀ x ∈ t.l1, x ∈ s.l1) ∧
    t = { s with sw := s.sw + 1, l1 := t.l1, fresh := s.fresh + 512 }) ∧
  (∀ s : State, s.deckMove = none → s.swlo < s.sw → s.floors ≤ 512 * (s.sw - 1) →
    (∀ l ∈ s.usedLines, l < 512 * (s.sw - 1)) → s.untraced 10 →
    ∃ t, exec .deckleGiveWay s = .next t ∧
      t = { s with sw := s.sw - 1
                   segs := s.segs.map (fun x => if x.st = .moving then { x with st := .resident } else x) }) ∧
  (∀ s : State, ∃ t, exec .deckleEpochEnd s = .next t ∧ t.smpLast = s.smp ∧ t.rclLast = s.rcl ∧ t.smp = ⟨0, 0, 0, 0⟩ ∧
    t.rcl = 0 ∧ t.segs.map (·.empty) = s.segs.map (·.empty) ∧
    (s.deckMove = none → s.sw < s.swhi → 16 * s.smp.lruh < s.rcl → t.sw = s.sw + 1 ∧ t.segs = s.segs) ∧
    (s.deckMove = none → ¬ (s.sw < s.swhi ∧ 16 * s.smp.lruh < s.rcl) → ¬ (s.swlo < s.sw ∧ s.rcl = 0 ∧ 16 ≤ s.smp.ghost) →
      t.sw = s.sw ∧ t.deckMove = none ∧ t.segs = s.segs) ∧
    (s.deckMove ≠ none → t.sw = s.sw ∧ t.deckMove = none ∧ t.segs.map (·.bytes) = s.segs.map (·.bytes)))

/-- R194, R195, R198: SBIND captures base and shape and binds the queue, a segment stream only where every element
lies inside the segment; SUNB unbinds, discarding what an input stream reserved and nobody popped; SFENCE sends an
input stream back to the first element it discards. The detail word of a segment's fault is its offset (DEDUCED, log
entry 50); that SFENCE waits for the filled entries at the heads of output streams alone is the model's choice (log
entries 19 and 78). R194, R196: an input stream in a segment delivers its next element into a new entry of its queue;
an output stream writes its filled head entry to its next element and pops it. Element e lies at base + (e mod N0) ×
S0 + floor(e / N0) × S1. -/
def Obligations.Streams : Prop :=
  ((∀ (q : StreamQ) (b : StreamBase) (base : AReg) (ssh : BitVec 2) (s : State), s.Clean [base] →
     let w := s.rd.ssh.get 0 ssh.toNat
     let id := 6 * (streamQ q).1.toNat + (streamQ q).2
     let n0 := ufield w 0 12
     let n1 := ufield w 12 12
     let s0 := sfield w 24 20
     let s1 := sfield w 44 20
     let va := s.rd.ra base
     s.rd.shPoison.get false (16 + ssh.toNat) = false → 1 ≤ n0 → 1 ≤ n1 → s0 % 64 = 0 → s1 % 64 = 0 →
     va.toNat % 64 = 0 → s.streamAt s.cur id = none →
     (∀ hint, b = .glob hint → va.toNat < 2 ^ 56 →
       ∃ (t : State) (x : Stream), exec (.sbind q b base ssh) s = .next t ∧
         t = { s with streams := s.streams ++ [x], fresh := s.fresh + 1, ctx := s.nextSeq.ctx } ∧ x.ctx = s.cur ∧ 6 * x.cl.toNat + x.q = id ∧
         x.seg = none ∧ x.base = va ∧ x.n0 = n0 ∧ x.n1 = n1 ∧ x.s0 = s0 ∧ x.s1 = s1 ∧ x.hint = hint ∧ x.next = 0 ∧
         x.stop = none ∧ x.pushed = (s.queue id).length ∧ x.bun = s.ctx.an ∧ x.after = s.fresh) ∧
     (∀ (g : GReg) (e : SegEntry), b = .loc g → s.seg s.cur (s.rd.rg g) = some e → s.pinFate s.cur [e.name] = .fits →
       ((∀ i j : Nat, i < n0 → j < n1 → 0 ≤ va.toInt + i * s0 + j * s1 ∧
           va.toInt + i * s0 + j * s1 + 64 ≤ 128 * e.size) →
         ∃ (t : State) (x : Stream), exec (.sbind q b base ssh) s = .next t ∧
           t = { s with streams := s.streams ++ [x], segs := t.segs, fresh := s.fresh + 1, ctx := s.nextSeq.ctx } ∧
           t.segs = s.segs.map (fun y => if y.ctx = s.cur ∧ y.name = e.name then { y with spins := y.spins + 1 } else y) ∧
           x.ctx = s.cur ∧ 6 * x.cl.toNat + x.q = id ∧ x.seg = some e.name ∧ x.base = va ∧ x.n0 = n0 ∧ x.n1 = n1 ∧
           x.s0 = s0 ∧ x.s1 = s1 ∧ x.next = 0 ∧ x.stop = none ∧ x.bun = s.ctx.an) ∧
       ((∃ i j : Nat, i < n0 ∧ j < n1 ∧ (va.toInt + i * s0 + j * s1 < 0 ∨
           128 * (e.size : Int) < va.toInt + i * s0 + j * s1 + 64)) →
         exec (.sbind q b base ssh) s = .next (s.raise ⟨.segBound, false, 3, 0, va⟩)))) ∧
   (∀ (q : StreamQ) (s : State), s.realigned = true →
     let id := 6 * (streamQ q).1.toNat + (streamQ q).2
     (∀ y ∈ s.streams, y.ctx = s.cur → 4 ≤ y.q → y.stop ≠ none → y.told = true) →
     (s.streamAt s.cur id = none → exec (.sunb q) s = .next s) ∧
     (∀ x : Stream, s.streamAt s.cur id = some x → x.q < 4 →
       ∃ t, exec (.sunb q) s = .next t ∧
         t = { s with ctx := { s.ctx with queues := t.ctx.queues }, streams := t.streams, parked := t.parked
                      segs := t.segs } ∧ (x.seg = none → t.segs = s.segs) ∧
         (∀ n, x.seg = some n → t.segs = s.segs.map (fun e => if e.ctx = x.ctx ∧ e.name = n then
           { e with spins := e.spins - 1 } else e)) ∧
         (∀ y, y ∈ t.streams ↔ y ∈ s.streams ∧ ¬ (y.ctx = x.ctx ∧ y.cl = x.cl ∧ y.q = x.q)) ∧
         t.queue id = (s.queue id).filter (fun e => e.src != .stream) ∧ (∀ j, j ≠ id → t.queue j = s.queue j)) ∧
     (∀ x : Stream, s.streamAt s.cur id = some x → 4 ≤ x.q → x.stop = none → s.queue id = [] →
       ∃ t, exec (.sunb q) s = .next t ∧ t = { s with streams := t.streams, parked := t.parked, segs := t.segs } ∧
         (x.seg = none → t.segs = s.segs) ∧
         (∀ n, x.seg = some n → t.segs = s.segs.map (fun e => if e.ctx = x.ctx ∧ e.name = n then
           { e with spins := e.spins - 1 } else e)) ∧
         (∀ y, y ∈ t.streams ↔ y ∈ s.streams ∧ ¬ (y.ctx = x.ctx ∧ y.cl = x.cl ∧ y.q = x.q)))) ∧
   (∀ (s : State) (x : Stream), s.realigned = true → s.streams = [x] → x.ctx = s.cur → x.q < 4 →
     (∀ z ∈ s.zstores, z.ctx ≠ s.cur) → (∀ r ∈ s.reqs, r.ctx ≠ s.cur) →
     let id := 6 * x.cl.toNat + x.q
     ∃ (t : State) (y : Stream), exec .sfence s = .next t ∧
       t = { s with ctx := { s.ctx with queues := t.ctx.queues }, streams := [y], parked := t.parked } ∧
       y = { x with next := x.next - (s.queue id).countP (fun e => e.src == .stream), after := s.fresh } ∧
       t.queue id = (s.queue id).filter (fun e => e.src != .stream)) ∧
   (∀ s : State, s.realigned = true → (∀ x ∈ s.streams, x.ctx ≠ s.cur) → (∀ z ∈ s.zstores, z.ctx ≠ s.cur) →
     exec .sfence s = .next s) ∧
   (∀ (q : StreamQ) (s : State), s.realigned = false →
     exec (.sunb q) s = .next (s.wait .realign) ∧ exec .sfence s = .next (s.wait .realign))) ∧
  ((∀ (s : State) (i : Nat) (x : Stream) (n : BitVec 16) (e : SegEntry), s.streams[i]? = some x → x.q < 4 → x.ctx = s.cur →
     x.stop = none → x.next < x.n0 * x.n1 → x.seg = some n → s.seg s.cur n = some e → e.st = .resident →
     (∀ r ∈ s.reqs, r.ctx = s.cur → x.after ≤ r.id) → s.frozen = false →
     let id := 6 * x.cl.toNat + x.q
     let off := (x.base.toInt + (x.next % x.n0 : Nat) * x.s0 + (x.next / x.n0 : Nat) * x.s1).toNat
     (s.queue id).length < 8 → e.empty.get false (off / 128) = false →
     ∃ (t : State) (y : QEntry), exec (.streamFetch i) s = .next t ∧
       t = { s with ctx := { s.ctx with queues := t.ctx.queues }, segs := (s.touchSeg s.cur n).segs, fresh := s.fresh + 2
                    streams := t.streams } ∧
       (t.queue id).length = (s.queue id).length + 1 ∧ (t.queue id).getLast? = some y ∧ y.src = .stream ∧
       y.val = some (bytesVec (e.read off 64)) ∧ y.poison = e.poisoned off 64 ∧ y.bun = x.bun ∧
       (∀ j, j ≠ id → t.queue j = s.queue j) ∧
       t.streams[i]? = some { x with next := x.next + 1 } ∧ (∀ j, j ≠ i → t.streams[j]? = s.streams[j]?)) ∧
   (∀ (s : State) (i : Nat) (x : Stream) (n : BitVec 16) (e : SegEntry) (h : QEntry) (r : List QEntry) (v : Vec),
     s.streams[i]? = some x → 4 ≤ x.q → x.ctx = s.cur → x.stop = none → x.next < x.n0 * x.n1 → x.seg = some n →
     s.seg s.cur n = some e → e.st = .resident → (∀ r ∈ s.reqs, r.ctx = s.cur → x.after ≤ r.id) → s.frozen = false →
     let id := 6 * x.cl.toNat + x.q
     let off := (x.base.toInt + (x.next % x.n0 : Nat) * x.s0 + (x.next / x.n0 : Nat) * x.s1).toNat
     s.queue id = h :: r → h.val = some v →
     ∃ t u, exec (.streamWrite i) s = .next t ∧ s.StoredSeg u n off (vecBytes v) ∧
       t = { u with ctx := { s.ctx with queues := t.ctx.queues }, streams := t.streams } ∧ t.queue id = r ∧
       t.streams[i]? = some { x with next := x.next + 1 } ∧ (∀ j, j ≠ i → t.streams[j]? = s.streams[j]?)) ∧
   (∀ (s : State) (i : Nat) (x : Stream), s.streams[i]? = some x → x.n0 * x.n1 ≤ x.next → x.stop = none →
     exec (.streamFetch i) s = .next s ∧ exec (.streamWrite i) s = .next s))

/-- R116 to R119, R124 to R127: a copy whose operands pass every check of R427 is accepted: it joins the engine's
copies with its operands, shape, prefix and options captured, its segments are pinned, and the A-half goes on. R119,
R123: a CPSS between segments of two formats converts: its rows take the destination format's bytes, an element count
that E2M1B or whole units do not allow raises BADLEN, and q64 to an integer format raises BADCONV. That a tile copy is
checked for its bounds at issue is log entry 18, and that these causes carry the detail 0 is log entry 50: choices of
the model. R118, R119, R427: a shape of no rows raises BADSHAPE, and a length outside 64 to 1,048,576 or no multiple
of 64 raises BADLEN, in the A-half, whatever the other operands are; no copy exists. The detail 0 is log entry 50. -/
def Obligations.CopiesAccepted : Prop :=
  (∀ (s : State) (sa da len : AReg) (o : CopyOpt) (r : Rows), s.Clean [sa, da, len] → s.RowsOf o r → s.engineFree o.cid →
     let n := (s.rd.ra len).toNat
     let src := s.rd.ra sa
     let dst := s.rd.ra da
     (64 ≤ n → n ≤ 1048576 → n % 64 = 0 →
       (∀ (sg dg : GReg) (a b : SegEntry), s.SegEnd sg src r.n r.s n a → s.SegEnd dg dst r.n r.d n b → a.fmt = b.fmt →
         s.pinFate s.cur [a.name, b.name] = .fits →
         ∃ c : Copy, s.TakesCopy (.cpss sg dg sa da len o) [a.name, b.name] c ∧ s.Captures c o r ∧ c.kind = .seg ∧
           c.src = .own s.cur a.name src.toNat ∧ c.dst = .own s.cur b.name dst.toNat ∧ c.len = n ∧ c.conv = none ∧ c.drow = n) ∧
       (∀ (sg dg : GReg) (a b : SegEntry),
         let m := fmtBytes b.fmt (fmtCount a.fmt n)
         let uneven := (a.fmt = .e2m1b ∧ n % 1152 ≠ 0) ∨ (b.fmt = .e2m1b ∧ fmtCount a.fmt n % 2048 ≠ 0) ∨ m % 64 ≠ 0
         let integral := b.fmt = .i8 ∨ b.fmt = .i32 ∨ b.fmt = .w8 ∨ b.fmt = .w32
         s.SegEnd sg src r.n r.s n a → s.SegEnd dg dst r.n r.d m b → a.fmt ≠ b.fmt →
         (uneven → exec (.cpss sg dg sa da len o) s = .next (s.raise ⟨.badLen, false, 4, 0, 0⟩)) ∧
         (¬ uneven → a.fmt = .q64 ∧ integral →
           exec (.cpss sg dg sa da len o) s = .next (s.raise ⟨.badConv, false, 4, 0, 0⟩)) ∧
         (¬ uneven → ¬ (a.fmt = .q64 ∧ integral) → s.pinFate s.cur [a.name, b.name] = .fits →
           ∃ c : Copy, s.TakesCopy (.cpss sg dg sa da len o) [a.name, b.name] c ∧ s.Captures c o r ∧ c.kind = .seg ∧
             c.src = .own s.cur a.name src.toNat ∧ c.dst = .own s.cur b.name dst.toNat ∧ c.len = n ∧
             c.conv = some (a.fmt, b.fmt) ∧ c.drow = m)) ∧
       (∀ (hint : BitVec 2) (dg : GReg) (b : SegEntry), s.GlobEnd src r.n r.s n → s.SegEnd dg dst r.n r.d n b →
         s.pinFate s.cur [b.name] = .fits →
         ∃ c : Copy, s.TakesCopy (.cpgs hint dg sa da len o) [b.name] c ∧ s.Captures c o r ∧ c.kind = .load ∧
           c.src = .glob src ∧ c.dst = .own s.cur b.name dst.toNat ∧ c.len = n ∧ c.hint = hint ∧ c.drow = n) ∧
       (∀ (hint : BitVec 2) (sg : GReg) (a : SegEntry), s.SegEnd sg src r.n r.s n a → s.GlobEnd dst r.n r.d n →
         s.pinFate s.cur [a.name] = .fits →
         ∃ c : Copy, s.TakesCopy (.cpsg hint sg sa da len o) [a.name] c ∧ s.Captures c o r ∧ c.kind = .store ∧
           c.src = .own s.cur a.name src.toNat ∧ c.dst = .glob dst ∧ c.len = n ∧ c.hint = hint ∧ c.drow = n) ∧
       (∀ hint : BitVec 2, s.GlobEnd src r.n r.s n →
         ∃ c : Copy, s.TakesCopy (.cpwarm hint sa len o) [] c ∧ s.Captures c o r ∧ c.kind = .warm ∧ c.src = .glob src ∧
           c.dst = .none ∧ c.len = n ∧ c.hint = hint) ∧
       (∀ (dg : GReg) (b : SegEntry), s.SegEnd dg dst r.n r.d n b → s.pinFate s.cur [b.name] = .fits →
         ∃ c : Copy, s.TakesCopy (.cpfill dg sa da len o) [b.name] c ∧ s.Captures c o r ∧ c.kind = .fill ∧ c.src = .pat src ∧
           c.dst = .own s.cur b.name dst.toNat ∧ c.len = n ∧ c.drow = n) ∧
       (∀ (mbr : BitVec 3) (sg dg : GReg) (a : SegEntry), s.SegEnd sg src r.n r.s n a → s.pinFate s.cur [a.name] = .fits →
         let core := coreAt (groupOf s.core.toNat) mbr.toNat
         let pinned := (s.pin s.cur [a.name]).segs
         ∃ (t : State) (c : Copy), exec (.cpsp mbr sg dg sa da len o) s = .next t ∧ s.Captures c o r ∧ c.kind = .peer ∧
           c.src = .own s.cur a.name src.toNat ∧
           c.dst = .peer core (s.rd.rg dg) dst ∧ c.len = n ∧ c.known = false ∧
           (c.peerPin = true ↔ (s.peerSeg core (s.rd.rg dg) s.ctx.jd).isSome) ∧
           t = { s with copies := s.copies ++ [c], segs := t.segs, peers := t.peers
                        ctx := s.nextSeq.ctx, fresh := s.fresh + 1 } ∧
           (core ≠ s.core.toNat → t.segs = pinned) ∧
           (core = s.core.toNat → t.peers = s.peers ∧ t.segs = pinned.map (fun e =>
             if c.peerPin = true ∧ e.anc = true ∧ e.name = s.rd.rg dg ∧ e.job = s.ctx.jd then { e with cpins := e.cpins + 1 }
             else e)))) ∧
     (o.sh = false →
       (∀ (hint : BitVec 2) (dg : GReg) (b : SegEntry), s.SegEnd dg dst 1 0 (s.tensorSide src b) b → s.pinFate s.cur [b.name] = .fits →
         ∃ c : Copy, s.TakesCopy (.cpts hint dg sa da len o) [b.name] c ∧ s.Captures c o r ∧ c.kind = .tileIn ∧
           c.src = .tile src (s.rd.ra len) ∧ c.dst = .own s.cur b.name dst.toNat ∧ c.hint = hint ∧ c.known = false) ∧
       (∀ (hint : BitVec 2) (sg : GReg) (a : SegEntry), s.SegEnd sg src 1 0 (s.tensorSide dst a) a → s.pinFate s.cur [a.name] = .fits →
         ∃ c : Copy, s.TakesCopy (.cpst hint sg sa da len o) [a.name] c ∧ s.Captures c o r ∧ c.kind = .tileOut ∧
           c.src = .own s.cur a.name src.toNat ∧ c.dst = .tile dst (s.rd.ra len) ∧ c.hint = hint ∧ c.known = false))) ∧
  (∀ (s : State) (sa da len : AReg) (o : CopyOpt) (i : Instr), s.Clean [sa, da, len] →
     (∃ sg dg hint, i = .cpss sg dg sa da len o ∨ i = .cpgs hint dg sa da len o ∨ i = .cpsg hint sg sa da len o ∨
       i = .cpfill dg sa da len o) →
     (o.sh = true → s.rd.shPoison.get false o.csh.toNat = false → ufield (s.rd.csh.get 0 o.csh.toNat) 0 16 = 0 →
       exec i s = .next (s.raise ⟨.badShape, false, 4, 0, 0⟩)) ∧
     (∀ r, s.RowsOf o r →
       (s.rd.ra len).toNat < 64 ∨ 1048576 < (s.rd.ra len).toNat ∨ (s.rd.ra len).toNat % 64 ≠ 0 →
       exec i s = .next (s.raise ⟨.badLen, false, 4, 0, 0⟩)))

/-- R120, R152: the engine's next unit of a linear copy between segments of one format: the 64 destination bytes are
the source's, no other byte of any segment changes, and the line is full once this copy's part of it is written. R122,
R148, R382: a unit that a group peer's copy writes here changes its 64 bytes of the anchored segment, and waits while
the core is frozen. R123: a unit of a converting copy holds its elements, each rounded once from the exact source
element with its own draw, or the codes or headers of its quantised blocks; a failed decode sets QRO. That the units
come in ascending order is the model's choice (log entry 8). R120, R128, R129: a copy all of whose units are written
ends: its pins go, its CID is free with status OK, and with BE its bytes are added to the barrier of its group. CPWAIT
waits for the CIDs it names and reports their statuses; CPCAN ends copies CANCELLED, without an arrival. A group
peer's copy that ends releases its pin here and posts its arrival. R79 to R81: the control core releases a parked
access: with a mapping, which it writes where the walk stopped, the access leaves the table and is tried again, and
the translations that came from an entry it replaced are dropped; with none, the fault is turned into PGPERM. -/
def Obligations.CopyEngine : Prop :=
  ((∀ (s : State) (i : Nat) (c : Copy) (a b : BitVec 16) (so dst : Nat) (x y : SegEntry),
     s.copyNo i = some c → s.copies.find? (fun d => d.id == c.id) = some c → c.kind = .seg →
     c.src = .own s.cur a so → c.dst = .own s.cur b dst → c.nrow = 1 → c.sstr = 0 → c.dstr = 0 → c.conv = none →
     c.result = none → c.entry = none → c.known = true → c.fault = none → c.parked = [] → c.done < c.drow / 64 →
     (∀ r ∈ s.reqs, r.ctx = s.cur → c.after ≤ r.id) → c.ctx = s.cur → s.frozen = false →
     s.seg s.cur a = some x → x.st = .resident → x.empty.get false ((so + 64 * c.done) / 128) = false →
     s.seg s.cur b = some y → y.st = .resident →
     (∀ e ∈ s.segs, e.ctx = s.cur → e.name = a ∨ e.name = b → e.st ≠ .absent) →
     let off := dst + 64 * c.done
     let last := decide (c.drow / 64 ≤ c.done + 1 ∨ (off + 64) / 128 ≠ off / 128)
     ∃ t, exec (.copyUnitWrite (.own i)) s = .next t ∧
       t = { s with segs := t.segs, copies := t.copies, staging := t.staging, grants := t.grants, copyTurn := t.copyTurn
                    fresh := s.fresh + 2 } ∧
       (∀ d ∈ s.copies, d.id ≠ c.id → d ∈ t.copies) ∧ { c with done := c.done + 1 } ∈ t.copies ∧
       ∀ (k : Nat) (e : SegEntry), s.segs[k]? = some e → ∃ f : SegEntry, t.segs[k]? = some f ∧
         (¬ (e.ctx = s.cur ∧ e.name = b) → f = { e with touched := f.touched }) ∧
         (e.ctx = s.cur ∧ e.name = b →
           f = { e with bytes := f.bytes, poison := f.poison, empty := f.empty, touched := f.touched } ∧
           (∀ j, j < 64 → f.bytes.get 0 (off + j) = x.bytes.get 0 (so + 64 * c.done + j)) ∧
           (∀ p, p < off ∨ off + 64 ≤ p → f.bytes.get 0 p = e.bytes.get 0 p) ∧
           (∀ l, f.empty.get false l = if l = off / 128 ∧ last then false else e.empty.get false l))) ∧
   (∀ (s : State) (i : Nat) (c : Copy) (cid : BitVec 4) (a b : BitVec 16) (so dst : Nat) (x y : SegEntry) (sf df : ElemFmt),
     s.copyNo i = some c → s.copies.find? (fun d => d.id == c.id) = some c → c.kind = .seg → c.cid = some cid →
     c.src = .own s.cur a so → c.dst = .own s.cur b dst → c.nrow = 1 → c.sstr = 0 → c.dstr = 0 → c.conv = some (sf, df) →
     sf ≠ df → convOk sf df c.len = true → badConv sf df = false → c.drow = fmtBytes df (fmtCount sf c.len) →
     c.len % 64 = 0 → so % 64 = 0 → dst % 64 = 0 →
     c.result = none → c.entry = none → c.known = true → c.fault = none → c.parked = [] → c.done < c.drow / 64 →
     (∀ r ∈ s.reqs, r.ctx = s.cur → c.after ≤ r.id) → c.ctx = s.cur → s.frozen = false →
     s.seg s.cur a = some x → x.st = .resident → (∀ l, so / 128 ≤ l → 128 * l < so + c.len → x.empty.get false l = false) →
     s.seg s.cur b = some y → y.st = .resident →
     (∀ e ∈ s.segs, e.ctx = s.cur → e.name = a ∨ e.name = b → e.st ≠ .absent) →
     let p := primeOf (ufield c.psel 0 4)
     let u := c.done
     let w := fmtBits df / 8
     let at_ := dst + 64 * u
     let fails (e : Nat) : Prop := ((x.elemFrom sf so e).frac p).2 = true
     ∃ (t : State) (f : SegEntry), exec (.copyUnitWrite (.own i)) s = .next t ∧ t.seg s.cur b = some f ∧
       { c with done := u + 1 } ∈ t.copies ∧ t.mem = s.mem ∧
       (∀ n, n < at_ ∨ at_ + 64 ≤ n → f.bytes.get 0 n = y.bytes.get 0 n) ∧
       (df ≠ .e2m1b → ∀ j, j < 512 / fmtBits df → let e := 512 / fmtBits df * u + j
         bytesNat (f.read (at_ + w * j) w) = ((x.elemFrom sf so e).to df c.pfx (drawOf c.rseed (2 ^ 63 + e)) p).1) ∧
       (df = .e2m1b → u % 18 < 16 → ∀ j, j < 128 → bytesNat (f.read (at_ + j / 2) 1) / 16 ^ (j % 2) % 16 =
         (x.blockFrom sf so c (64 * (u / 18) + 4 * (u % 18) + j / 32)).1.getD (j % 32) 0) ∧
       (df = .e2m1b → 16 ≤ u % 18 → ∀ j, j < 32 → bytesNat (f.read (at_ + 2 * j) 2) =
         (x.blockFrom sf so c (64 * (u / 18) + 32 * (u % 18 - 16) + j)).2) ∧
       ((∃ j, j < (unitElems df u).2 ∧ fails ((unitElems df u).1 + j)) → t.ctx.qctl = qctlSet s.ctx.qctl false true) ∧
       ((∀ j, j < (unitElems df u).2 → ¬ fails ((unitElems df u).1 + j)) → t.ctx = s.ctx)) ∧
   (∀ (s : State) (u : PeerUnit) (x : SegEntry), s.peerSeg s.core.toNat u.name u.job = some x →
     x.st = .resident ∨ x.st = .moving → u.off % 64 = 0 → u.off + 64 ≤ 128 * x.size →
     (s.frozen = true → exec (.copyUnitWrite (.peer u)) s = .next s) ∧
     (s.frozen = false → ∃ t, exec (.copyUnitWrite (.peer u)) s = .next t ∧
       t = { s with segs := t.segs, fresh := s.fresh + 1 } ∧
       ∀ (k : Nat) (e : SegEntry), s.segs[k]? = some e → ∃ f : SegEntry, t.segs[k]? = some f ∧
         (¬ (e.anc = true ∧ e.name = u.name ∧ e.job = u.job) → f = e) ∧
         (e.anc = true ∧ e.name = u.name ∧ e.job = u.job →
           f = { e with bytes := f.bytes, poison := f.poison, empty := f.empty, touched := s.fresh
                        cpins := e.cpins + (if u.first then 1 else 0) } ∧
           (∀ j, j < 64 → f.bytes.get 0 (u.off + j) = BitVec.extractLsb' (8 * j) 8 u.val) ∧
           (∀ p, p < u.off ∨ u.off + 64 ≤ p → f.bytes.get 0 p = e.bytes.get 0 p) ∧
           f.poison.get false (u.off / 64) = u.poison ∧
           (∀ l, f.empty.get false l = if l = u.off / 128 ∧ u.full then false else e.empty.get false l))))) ∧
  ((∀ (s : State) (i : Nat) (c : Copy) (cid : BitVec 4) (a b : BitVec 16) (so dst : Nat), s.copyNo i = some c →
     (∀ d ∈ s.staging, d.id ≠ c.id) → c.cid = some cid → c.ctx = s.cur → c.kind = .seg → c.src = .own s.cur a so →
     c.dst = .own s.cur b dst → c.fault = none → c.known = true → c.parked = [] → c.done = c.nrow * (c.drow / 64) →
     ∃ t, exec (.copyCompletion (.own i)) s = .next t ∧ c ∉ t.copies ∧ (∀ d ∈ s.copies, d.id ≠ c.id → d ∈ t.copies) ∧
       t.ctx.cidStat.get 0 cid.toNat = 0 ∧ (∀ j, j ≠ cid.toNat → t.ctx.cidStat.get 0 j = s.ctx.cidStat.get 0 j) ∧
       t.segs = s.segs.map (fun e => if e.ctx = s.cur ∧ (e.name = a ∨ e.name = b) then { e with cpins := e.cpins - 1 } else e) ∧
       (∀ h, t.bars.get 0 (64 * groupOf s.core.toNat + h) =
         if c.be ∧ h = c.bar.toNat then s.bars.get 0 (64 * groupOf s.core.toNat + h) + BitVec.ofNat 64 (c.nrow * c.drow)
         else s.bars.get 0 (64 * groupOf s.core.toNat + h)) ∧
       t.mem = s.mem ∧ t.ctx.regs = s.ctx.regs) ∧
   (∀ (da : AReg) (mask : BitVec 16) (s : State),
     ((∀ i : BitVec 4, mask.getLsbD i.toNat = true → s.cidBusy s.cur i = false) → (∀ i, s.ctx.cidStat.get 0 i < 4) →
       ∃ v : Word, s.SetsA (.cpwait da mask) da v ∧
         ∀ i, i < 16 → ufield v (2 * i) 2 = if mask.getLsbD i then s.ctx.cidStat.get 0 i else 0) ∧
     (∀ i : BitVec 4, mask.getLsbD i.toNat = true → s.cidBusy s.cur i = true →
       exec (.cpwait da mask) s = .next (s.wait .barrier))) ∧
   (∀ (mask : BitVec 16) (s : State) (c : Copy) (cid : BitVec 4) (va : Word) (b : BitVec 16) (dst : Nat),
     s.copies.filter (fun d => d.ctx == s.cur && (match d.cid with | some j => mask.getLsbD j.toNat | none => false)) = [c] →
     c.cid = some cid → c.ctx = s.cur → c.src = .glob va → c.dst = .own s.cur b dst →
     ∃ t, exec (.cpcan mask) s = .next t ∧ c ∉ t.copies ∧ (∀ d ∈ s.copies, d.id ≠ c.id → d ∈ t.copies) ∧
       t.ctx.cidStat.get 0 cid.toNat = 1 ∧ t.bars = s.bars ∧ t.mem = s.mem ∧
       t.segs = s.segs.map (fun e => if e.ctx = s.cur ∧ e.name = b then { e with cpins := e.cpins - 1 } else e)) ∧
   (∀ (s : State) (e : PeerEnd), ∃ t, exec (.copyCompletion (.peer e)) s = .next t ∧
     t = { s with segs := t.segs, bars := t.bars } ∧
     t.segs = (if e.pinned then s.segs.map (fun x => if x.anc = true ∧ x.name = e.name ∧ x.job = e.job then
       { x with cpins := x.cpins - 1 } else x) else s.segs) ∧
     ∀ h, h < 64 → t.bars.get 0 (64 * groupOf s.core.toNat + h) =
       if e.bar = some (BitVec.ofNat 6 h) then s.bars.get 0 (64 * groupOf s.core.toNat + h) + e.count
       else s.bars.get 0 (64 * groupOf s.core.toNat + h)) ∧
   (∀ (mask : BitVec 16) (s : State), (∀ d ∈ s.copies, d.ctx = s.cur → ∀ j, d.cid = some j → mask.getLsbD j.toNat = false) →
     exec (.cpcan mask) s = .next s)) ∧
  (∀ (s : State) (i : Nat) (p : Parked), s.parked[i]? = some p →
     exec (.parkedAccessRelease i none) s = .next { s with parked := s.parked.set i { p with denied := true } } ∧
     exec (.parkedAccessRelease i (some 0)) s = .next { s with parked := s.parked.eraseIdx i } ∧
     (∀ w : Word, w ≠ 0 → p.cause = .pgAbsent →
       let ent := p.root + 8 * (p.va.toNat % 2 ^ 56 / 2 ^ 48)
       (s.memWord ent).getLsbD 0 = false → s.layerOff ent = false →
       ∃ t, exec (.parkedAccessRelease i (some w)) s = .next t ∧ t.memWord ent = w ∧
         (∀ a, a < ent ∨ ent + 8 ≤ a → t.memByte a = s.memByte a) ∧
         t = { s with parked := s.parked.eraseIdx i, mem := t.mem, memPoison := t.memPoison, l2Version := t.l2Version
                      l2 := t.l2, hbmSleep := t.hbmSleep, cmpSaved := t.cmpSaved, fresh := t.fresh }) ∧
     (∀ w : Word, w ≠ 0 → p.cause ≠ .tileAbsent →
       let ent := p.root + 8 * (p.va.toNat % 2 ^ 56 / 2 ^ 48)
       (s.memWord ent).getLsbD 0 = true → (s.memWord ent).getLsbD 1 = false → s.layerOff ent = false →
       ∃ t, exec (.parkedAccessRelease i (some w)) s = .next t ∧ t.memWord ent = w ∧
         t.tlb = s.tlb.filter (fun u => u.ent != ent) ∧ t.tcache = s.tcache.filter (fun u => u.ent != ent)))

/-- R135 to R140: XPIN arrives with the router table it captured, stalls, and goes on once the phase has started,
which is when every other active core of the masked groups has arrived alike; its issue is the last before cycle 0. In
the phase XMIT puts a word on the L input, XSEL latches the word on an input, and XPOUT at cycle PL writes the latched
words and fills their lines. R381, R382: a frozen core takes no abort and its routers rest. That every mask of 16 bits
is accepted is log entry 77, and that a table of halfwords need only lie at an even offset is log entry 44: choices of
the model. R133, R134: once this core's bundle of the cycle has issued, every word that a router's entry selects
stands on the facing input of the neighbour beyond its output, and no word stands anywhere else; a reserved or off-die
entry aborts. That row 0 is the northernmost is the model's choice (log entry 31). -/
def Obligations.TransferPhases : Prop :=
  ((∀ (sg dg : GReg) (sa da len : AReg) (s s1 : State) (a b : SegEntry) (quires : List Word), s.phase = none →
     s.realigned = true → s.Clean [sa, da, len] → s.seg s.cur (s.rd.rg sg) = some a → s.seg s.cur (s.rd.rg dg) = some b →
     let off := (s.rd.ra sa).toNat
     let pl := (s.rd.ra len).toNat
     1 ≤ pl → pl ≤ 1024 → (s.rd.ra da).toNat < 2 ^ 16 → off % 2 = 0 → off + 2 * pl ≤ 128 * a.size →
     s.pinFate s.cur [a.name, b.name] = .fits → a.st = .resident → b.st = .resident → s.phaseQuires = .ok (quires, s1) →
     ∃ (t : State) (p : Phase), exec (.xpin sg dg sa da len) s = .next t ∧
       t = { s1 with phase := some p, phaseFirst := none, mark := .waited .phase, fresh := s1.fresh + 1
                     ctx := { s1.ctx with yielding := false }
                     segs := s1.segs.map (fun e => if e.ctx = s.cur ∧ (e.name = a.name ∨ e.name = b.name) then
                       { e with spins := e.spins + 1, touched := if e.name = a.name then s1.fresh else e.touched } else e) } ∧
       p.ctx = s.cur ∧ p.src = a.name ∧ p.dst = b.name ∧ p.mask.toNat = (s.rd.ra da).toNat ∧ p.pl = pl ∧ p.started = false ∧
       p.entered = false ∧ p.fate = none ∧ p.quires = quires ∧ p.table.length = pl ∧
       ∀ i, i < pl → (p.table.getD i 0).toNat = (a.bytes.get 0 (off + 2 * i)).toNat + 256 * (a.bytes.get 0 (off + 2 * i + 1)).toNat) ∧
   (∀ (sg dg : GReg) (sa da len : AReg) (s : State) (p : Phase), s.phase = some p → p.fate = none →
     (p.started = true → exec (.xpin sg dg sa da len) s = .next { s with phase := some { p with entered := true } }) ∧
     (p.started = false → exec (.xpin sg dg sa da len) s = .next (s.wait .phase))) ∧
   (∀ (s : State) (p : Phase), s.phase = some p → p.started = false → p.fate = none →
     let mates := s.mates p.mask
     ((∀ n ∈ s.mesh, n.core ∈ mates → n.mask = p.mask ∧ n.pl = p.pl) → (∀ c ∈ mates, ∃ n ∈ s.mesh, n.core = c) →
       exec .phaseStart s = .next { s with phase := some { p with started := true, cycle := 0, routed := 0 }, meshWords := [] }) ∧
     ((∃ n ∈ s.mesh, n.core ∈ mates ∧ (n.mask ≠ p.mask ∨ n.pl ≠ p.pl)) →
       exec .phaseStart s = .next { s with phase := some { p with fate := some .phaseSync } }) ∧
     exec .phasetimeout s = .next { s with phase := some { p with fate := some .phaseTimeout } }) ∧
   (∀ (s : State) (p : Phase) (e : SegEntry), s.phase = some p → p.ctx = s.cur → p.started = true → p.entered = true →
     (∀ (sg : GReg) (sa : AReg), s.Clean [sa] → s.rd.rg sg = p.src → s.seg s.cur p.src = some e →
       (s.rd.ra sa).toNat % 64 = 0 → (s.rd.ra sa).toNat + 64 ≤ 128 * e.size →
       exec (.xmit sg sa) s = .next { s with
         phase := some { p with xmit := some (bytesVec (e.read (s.rd.ra sa).toNat 64), e.poisoned (s.rd.ra sa).toNat 64) }
         segs := s.segs.map (fun x => if x.ctx = s.cur ∧ x.name = e.name then { x with touched := s.fresh } else x)
         fresh := s.fresh + 1 }) ∧
     (∀ (dg : GReg) (da : AReg) (port : BitVec 3) (v : Vec) (q : Bool), s.Clean [da] → s.rd.rg dg = p.dst →
       s.seg s.cur p.dst = some e → (s.rd.ra da).toNat % 64 = 0 → (s.rd.ra da).toNat + 64 ≤ 128 * e.size →
       port ≠ 5 → s.meshWords.find? (fun w => w.1 == s.core.toNat && w.2.1.toNat == port.toNat) =
         some (s.core.toNat, port, v, q) →
       ∃ l, exec (.xsel dg da port) s = .next { s with phase := some { p with latched := l } } ∧
         l.getLast? = some ((s.rd.ra da).toNat, v, q) ∧
         ∀ x, x ∈ p.latched ∧ x.1 ≠ (s.rd.ra da).toNat → x ∈ l) ∧
     (p.cycle = p.pl → ∃ t, exec .xpout s = .next t ∧
       t = { s with phase := none, mesh := [], meshWords := [], segs := t.segs, fresh := s.fresh + 1 } ∧
       ∀ (i : Nat) (x : SegEntry), s.segs[i]? = some x → ∃ y : SegEntry, t.segs[i]? = some y ∧
         y = { x with bytes := y.bytes, empty := y.empty, poison := y.poison, spins := y.spins, touched := y.touched } ∧
         (¬ (x.ctx = s.cur ∧ x.name = p.dst) → y.bytes = x.bytes ∧ y.empty = x.empty) ∧
         (x.ctx = s.cur ∧ x.name = p.dst →
           (∀ w ∈ p.latched, y.empty.get false (w.1 / 128) = false ∧
             ((∀ v ∈ p.latched, v = w ∨ v.1 + 64 ≤ w.1 ∨ w.1 + 64 ≤ v.1) →
               ∀ j, j < 64 → y.bytes.get 0 (w.1 + j) = (vecBytes w.2.1).getD j 0)) ∧
           (∀ a, (∀ w ∈ p.latched, a < w.1 ∨ w.1 + 64 ≤ a) → y.bytes.get 0 a = x.bytes.get 0 a)))) ∧
   (∀ (s : State) (p : Phase) (c : PhaseCause), s.phase = some p → p.ctx = s.cur → p.started = true → s.frozen = false →
     ∃ u, exec (.phaseabort c) s = .next (State.raise u ⟨.phaseAbort, false, 4, 0, 0⟩) ∧
       u = { s with phase := none, mesh := [], meshWords := [], segs := u.segs, ctx := { s.ctx with aview := none } } ∧
       u.segs.map (·.bytes) = s.segs.map (·.bytes)) ∧
   (∀ (s : State) (c : PhaseCause), s.frozen = true →
     exec (.phaseabort c) s = .next s ∧ exec .routerCycle s = .next s)) ∧
  (∀ (s : State) (p : Phase), s.phase = some p → p.ctx = s.cur → p.started = true →
     p.entered = true → p.routed < p.cycle → s.frozen = false →
     let nodes := s.mesh.filter (fun n => (s.mates p.mask).contains n.core)
     let bad : Nat → BitVec 16 → Prop := fun core e => 4096 ≤ e.toNat ∨ ∃ o, 1 ≤ o ∧ o ≤ 4 ∧
       (6 ≤ routerIn e o ∨ (1 ≤ routerIn e o ∧ routerIn e o ≤ 4 ∧ neighbour core (routerIn e o) = none))
     (¬ bad s.core.toNat (p.table.getD p.routed 0) → (∀ n ∈ nodes, ¬ bad n.core (n.table.getD p.routed 0)) →
       ∃ t, exec .routerCycle s = .next t ∧
         t = { s with meshWords := t.meshWords, phase := some { p with routed := p.routed + 1, xmit := none } } ∧
         ∀ (core i : Nat) (v : Vec) (q : Bool), i < 8 →
           ((core, BitVec.ofNat 3 i, v, q) ∈ t.meshWords ↔
             ∃ (from_ o : Nat) (e : BitVec 16) (l : Option (Vec × Bool)), 1 ≤ o ∧ o ≤ 4 ∧
               ((from_ = s.core.toNat ∧ e = p.table.getD p.routed 0 ∧ l = p.xmit) ∨
                 ∃ n ∈ nodes, from_ = n.core ∧ e = n.table.getD p.routed 0 ∧
                   l = (n.xmits.find? (fun x => x.1 == p.routed)).map (·.2)) ∧
               neighbour from_ o = some (core, i) ∧ s.wordAt from_ (routerIn e o) l = some (v, q))) ∧
     (bad s.core.toNat (p.table.getD p.routed 0) → exec .routerCycle s = .next (s.phaseAbort .routeBad)))

/-- R141, R142, R145: CGJOIN answers its status table and with OK adds the context to the group, which it creates
where the identifier is free; CGLEAVE takes the membership away once the context's collectives are done, and the last
one turns the identifier draining; a drained identifier becomes free. Which status a join that fails two checks gets
is the model's reading (log entry 26), and where a later member's count begins its choice (log entry 79). R143, R144,
R146: a collective of a member is accepted as its next one on the group; it starts once every member has issued it,
and every member's copy receives the same result, combined by the fixed tree over ranks, or rank 0's bytes; members
that differ, or one that has left, end it with COLLMISMATCH. What the engine keeps of a copy is the model's (log entry
24). -/
def Obligations.Collectives : Prop :=
  ((∀ (gid : BitVec 8) (sa len da : AReg) (s : State), s.Clean [sa, len] →
     let rank := (s.rd.ra sa).toNat
     let n := (s.rd.ra len).toNat
     (∀ g : Group, s.group gid = some g →
       (g.draining = true → s.SetsA (.cgjoin gid sa len da) da 1) ∧
       (g.draining = false → (∃ m ∈ g.members, m.rank = rank) → s.SetsA (.cgjoin gid sa len da) da 2) ∧
       (g.draining = false → (∀ m ∈ g.members, m.rank ≠ rank) → n ≠ g.n ∨ g.n ≤ rank →
         s.SetsA (.cgjoin gid sa len da) da 3) ∧
       (g.draining = false → (∀ m ∈ g.members, m.rank ≠ rank) → n = g.n → rank < n → n ≤ 512 →
         (s.bar (0x10700 + 8 * gid.toNat)).getLsbD 20 = false →
         (4 ≤ s.memberships → s.SetsA (.cgjoin gid sa len da) da 4) ∧
         (s.memberships < 4 → g.left = [] ∨ (∀ c ∈ s.copies, c.gid ≠ gid) → ∃ t, exec (.cgjoin gid sa len da) s = .next t ∧
           State.WroteA { s with groups := s.groups.map (fun x => if x.part = s.part ∧ x.gid = gid then
             { x with members := x.members ++ [⟨rank, s.core.toNat, s.cur.toNat, false, x.started⟩]
                      left := x.left.filter (· != rank) } else x) } t da 0 false))) ∧
     (s.group gid = none → 1 ≤ n → n ≤ 512 → rank < n → (s.bar (0x10700 + 8 * gid.toNat)).getLsbD 20 = false →
       s.memberships < 4 → ∃ t, exec (.cgjoin gid sa len da) s = .next t ∧
         State.WroteA { s with groups := s.groups ++
           [⟨s.part, gid, n, [⟨rank, s.core.toNat, s.cur.toNat, false, 0⟩], false, [], [], 0⟩] } t da 0 false)) ∧
   (∀ (gid : BitVec 8) (s : State) (g : Group) (rank k : Nat), s.groups = [g] → g.part = s.part → g.gid = gid →
     g.draining = false → g.members = [⟨rank, s.core.toNat, s.cur.toNat, false, k⟩] → s.collectives s.cur gid = [] →
     exec (.cgleave gid) s = .next { s with groups := [{ g with members := [], draining := true, left := g.left ++ [rank] }] }) ∧
   (∀ (gid : BitVec 8) (s : State), s.group gid = none → exec (.cgleave gid) s = .next s) ∧
   (∀ (gid : BitVec 8) (s : State) (g : Group), s.groups = [g] → g.part = s.part → g.gid = gid → g.draining = true →
     g.members = [] → (∀ c ∈ s.copies, c.gid = gid → c.kind ≠ .reduce ∧ c.kind ≠ .bcast) →
     exec (.groupDrained gid) s = .next { s with groups := [] })) ∧
  ((∀ (gid : BitVec 8) (sg dg : GReg) (sa da len : AReg) (cid : BitVec 4) (be : Bool) (bar : BitVec 6) (s : State) (g : Group)
       (m : Member) (a b : SegEntry) (i : Instr) (kind : CopyKind) (op : CgOp),
     (i = .cgred op gid sg dg sa da len cid be bar ∧ kind = .reduce) ∨
       (i = .cgbc gid sg dg sa da len cid be bar ∧ kind = .bcast ∧ op = .fadd) →
     s.Clean [sa, da, len] → s.group gid = some g → g.draining = false → s.myMember g = some m → m.leaving = false →
     let n := (s.rd.ra len).toNat
     64 ≤ n → n ≤ 1048576 → n % 64 = 0 → s.SegEnd sg (s.rd.ra sa) 1 0 n a → s.SegEnd dg (s.rd.ra da) 1 0 n b →
     s.pinFate s.cur [a.name, b.name] = .fits → s.engineFree cid →
     ∃ (t : State) (c : Copy), exec i s = .next t ∧
       t = { s with copies := s.copies ++ [c], segs := (s.pin s.cur [a.name, b.name]).segs, ctx := s.nextSeq.ctx
                    fresh := s.fresh + 1, groups := t.groups } ∧
       c.fault = (if m.issued < g.started then some .collMismatch else none) ∧
       c.kind = kind ∧ c.op = op ∧ c.gid = gid ∧ c.ord = m.issued ∧ c.cid = some cid ∧ c.len = n ∧
       c.src = .own s.cur a.name (s.rd.ra sa).toNat ∧ c.dst = .own s.cur b.name (s.rd.ra da).toNat ∧ c.be = be ∧ c.bar = bar ∧
       t.groups = s.groups.map (fun x => if x.part = s.part ∧ x.gid = gid then
         { x with members := x.members.map (fun y => if y = m then { y with issued := y.issued + 1 } else y) } else x)) ∧
   (∀ (i : Instr) (gid : BitVec 8) (sg dg : GReg) (sa da len : AReg) (cid : BitVec 4) (be : Bool) (bar : BitVec 6) (s : State),
     (∃ op, i = .cgred op gid sg dg sa da len cid be bar) ∨ i = .cgbc gid sg dg sa da len cid be bar →
     s.Clean [sa, da, len] → s.group gid = none → exec i s = .next (s.raise ⟨.noGroup, false, 4, 0, 0⟩)) ∧
   (∀ (gid : BitVec 8) (s s1 : State) (g : Group) (g0 : Given) (l : List Given), s.group gid = some g → g.left = [] →
     s.begun gid g.started = false →
     s.gather g g.started (!s.copies.any (fun c => c.gid == gid && c.ord == g.started && c.kind == .bcast)) (List.range g.n) =
       .ok (some (g0 :: l)) s1 →
     ((∀ x ∈ l, x.bcast = g0.bcast ∧ x.op = g0.op ∧ x.psel = g0.psel ∧ x.len = g0.len) →
       ∃ t, exec (.collectiveStart gid) s = .next t ∧ t = { s1 with copies := t.copies, groups := t.groups } ∧
         t.copies = s1.copies.map (fun c => if c.gid = gid ∧ c.ord = g.started ∧ (c.kind = .reduce ∨ c.kind = .bcast) then
           { c with result := some ((resultOf (g0 :: l)).map (fun x => vecBytes x.1)).flatten
                    rpoison := (resultOf (g0 :: l)).map (·.2) } else c)) ∧
     ((∃ x ∈ l, x.bcast ≠ g0.bcast ∨ x.op ≠ g0.op ∨ x.psel ≠ g0.psel ∨ x.len ≠ g0.len) →
       ∃ t, exec (.collectiveStart gid) s = .next t ∧
         t.copies = s1.copies.map (fun c => if c.gid = gid ∧ c.ord = g.started ∧ (c.kind = .reduce ∨ c.kind = .bcast) then
           { c with fault := some .collMismatch } else c))) ∧
   (∀ (gid : BitVec 8) (s : State) (g : Group) (r : Nat) (c : Copy), s.group gid = some g → r < g.n → r ∈ g.left → c ∈ s.copies →
     c.gid = gid → c.ord = g.started → c.kind = .reduce ∨ c.kind = .bcast →
     ∃ t, exec (.collectiveStart gid) s = .next t ∧ t = { s with copies := t.copies, groups := t.groups } ∧
       t.copies = s.copies.map (fun c => if c.gid = gid ∧ c.ord = g.started ∧ (c.kind = .reduce ∨ c.kind = .bcast) then
         { c with fault := some .collMismatch } else c)) ∧
   (∀ (op : CgOp) (psel : Word) (len : Nat) (a b c d : List (Vec × Bool)),
     let x : List (Vec × Bool) → Given := fun u => ⟨false, op, psel, len, u⟩
     let f := combine op (primeOf (ufield psel 0 4))
     resultOf [x a, x b, x c] = f (f a b) c ∧ resultOf [x a, x b, x c, x d] = f (f a b) (f c d)) ∧
   (∀ (p : Nat) (a b : Vec) (l : Nat), l < 16 →
     (lane (cgUnit .iadd p a b) l).toNat = ((lane a l).toNat + (lane b l).toNat) % 2 ^ 32 ∧
     (lane (cgUnit .imax p a b) l).toInt = max (lane a l).toInt (lane b l).toInt ∧
     (lane (cgUnit .imin p a b) l).toInt = min (lane a l).toInt (lane b l).toInt))

/-- R361 to R364: ENQ is accepted under its CID where its handle's reserved bits and its addresses pass; the record it
reads joins the resident ring of the queue whose generation matches, or spills, or is refused as STALE, FULL or
NOQUEUE, and the status is written to the completion word; a poisoned record is FAULT, and the ENQ ends FAULTED. The
detail word of BADHANDLE is the model's: the handle (log entry 50); so are FAULT for a poisoned record (log entry 40)
and the overflow ring, which is held as state (log entry 29). R325, R354, R362: the dispatcher takes the oldest record
of a queue: a launch enters the table, or waits where the table is full; a cancel is queued; a record with a reserved
field set becomes a POISONED post with cause BADDESC to the job. NOJCB for such a record whose job cannot be read is
the model's reading (log entry 25), and so is the overflow ring held as state (log entry 29). -/
def Obligations.EnqueuedWork : Prop :=
  ((∀ (sa da len : AReg) (cid : BitVec 4) (s : State), s.Clean [sa, da, len] →
     let h := s.rd.ra sa
     let rec_ := s.rd.ra da
     let done := s.rd.ra len
     (ufield h 19 5 = 0 → ufield h 32 32 = 0 → rec_.toNat < 2 ^ 56 → done.toNat < 2 ^ 56 → rec_.toNat % 32 = 0 →
       done.toNat % 8 = 0 → s.engineFree cid →
       ∃ c : Copy, s.TakesCopy (.enq sa da len cid) [] c ∧ c.kind = .enq ∧ c.word = h ∧ c.src = .glob rec_ ∧ c.dst = .glob done ∧
         c.cid = some cid ∧ c.known = false ∧ c.be = false) ∧
     (ufield h 19 5 ≠ 0 ∨ ufield h 32 32 ≠ 0 →
       exec (.enq sa da len cid) s = .next (s.raise ⟨.badHandle, false, 4, 0, h⟩))) ∧
   (∀ (h : Word) (r : EnqRec) (s : State) (q : EnqQ), ufield h 24 8 = 0 →
     let part : BitVec 3 := BitVec.ofNat 3 (ufield h 16 3)
     let idx : BitVec 8 := BitVec.ofNat 8 (ufield h 0 8)
     (∃ g, g < 64 ∧ s.partOf g = some part) → s.enqQ part idx = some q → q.gen.toNat = ufield h 8 8 → q.exists_ = true →
     (q.spill = [] → q.ring.length < 64 →
       (s.deliverRec h r).1 = 1 + 256 * q.gen.toNat ∧
       (s.deliverRec h r).2 = { s with enqs := s.enqs.map (fun x => if x.part = part ∧ x.idx = idx then
         { x with ring := x.ring ++ [r] } else x) }) ∧
     (64 ≤ q.ring.length → q.spill.length < q.cap → (s.deliverRec h r).1 = 2 + 256 * q.gen.toNat) ∧
     (64 ≤ q.ring.length → q.cap ≤ q.spill.length → s.deliverRec h r = (4 + 256 * q.gen.toNat, s))) ∧
   (∀ (h : Word) (r : EnqRec) (s : State), ufield h 24 8 = 0 →
     let part : BitVec 3 := BitVec.ofNat 3 (ufield h 16 3)
     let idx : BitVec 8 := BitVec.ofNat 8 (ufield h 0 8)
     ((∀ g, g < 64 → s.partOf g ≠ some part) ∨ s.enqQ part idx = none → s.deliverRec h r = (5, s)) ∧
     (∀ q, (∃ g, g < 64 ∧ s.partOf g = some part) → s.enqQ part idx = some q →
       (q.gen.toNat ≠ ufield h 8 8 → s.deliverRec h r = (3 + 256 * q.gen.toNat, s)) ∧
       (q.gen.toNat = ufield h 8 8 → q.exists_ = false → s.deliverRec h r = (5 + 256 * q.gen.toNat, s)))) ∧
   (∀ (s s1 s2 v1 : State) (i : Nat) (c : Copy) (cid : BitVec 4) (rec_ done : Word) (pa dpa : Nat) (tl tl2 : Tlb),
     s.copyNo i = some c → c.kind = .enq → c.known = false → c.ctx = s.cur → c.cid = some cid → (∀ r ∈ s.reqs, r.ctx ≠ s.cur) →
     s.copies = [c] → s.staging = [] → s.untraced 9 → c.src = .glob rec_ → c.dst = .glob done → c.be = false →
     rec_.toNat % 64 = 0 → s.walkServed (Copy.job c).asid rec_ false = true →
     s.translate (Copy.job c).asid (Copy.job c).root rec_ .read = (.ok pa tl, s1) →
     s1.layerOff pa = false → s1.memPoisoned pa 64 = true →
     (s1.physRead pa 64 0 (Copy.job c).ten (tl.kind == 2)).2.2 = s2 →
     s2.walkServed (Copy.job c).asid done false = true →
     s2.translate (Copy.job c).asid (Copy.job c).root done .write = (.ok dpa tl2, v1) → v1.layerOff dpa = false →
     ∃ t, exec (.enqDelivery i) s = .next t ∧ t.enqs = s.enqs ∧ t.copies = [] ∧ t.memNat dpa 8 = 6 ∧
       t.ctx.cidStat.get 0 cid.toNat = 2) ∧
   (∀ (s s1 s2 : State) (i : Nat) (c : Copy) (rec_ done : Word) (pa dpa w : Nat) (tl tl2 : Tlb) (u : State), s.copyNo i = some c →
     c.kind = .enq → c.known = false → c.ctx = s.cur → (∀ r ∈ s.reqs, r.ctx ≠ s.cur) → s.copies = [c] → s.staging = [] →
     c.src = .glob rec_ → c.dst = .glob done → c.be = false → rec_.toNat % 64 = 0 →
     s.walkServed (Copy.job c).asid rec_ false = true →
     s.translate (Copy.job c).asid (Copy.job c).root rec_ .read = (.ok pa tl, s1) → s1.layerOff pa = false → s1.memPoisoned pa 64 = false →
     (s1.physRead pa 64 0 (Copy.job c).ten (tl.kind == 2)).2.2 = s2 →
     s2.deliverRec c.word ⟨[s1.memWord pa, s1.memWord (pa + 8), s1.memWord (pa + 16), s1.memWord (pa + 24)]⟩ = (w, u) →
     u = { s2 with enqs := u.enqs } → s2.walkServed (Copy.job c).asid done false = true →
     (∀ v : State, v = { u with copies := v.copies } →
       ∃ v1, v.translate (Copy.job c).asid (Copy.job c).root done .write = (.ok dpa tl2, v1)) →
     s2.layerOff dpa = false →
     ∃ t, exec (.enqDelivery i) s = .next t ∧ t.enqs = u.enqs ∧ t.copies = [] ∧ t.memNat dpa 8 = w % 2 ^ 64)) ∧
  (∀ (idx : BitVec 8) (s : State) (q : EnqQ) (r : EnqRec) (rest : List EnqRec), s.enqQ s.part idx = some q →
     q.ring = r :: rest →
     let w := r.words
     let took (t : State) : Prop := ∃ q1, t.enqQ s.part idx = some q1 ∧ q1.ring ++ q1.spill = rest ++ q.spill
     (wd w 0 = 1 → wd w 3 = 0 → 4096 ≤ s.launches.countP (fun l => l.part == s.part && !l.done) →
       exec (.enqueueTake idx) s = .next s) ∧
     (wd w 0 = 1 → wd w 3 = 0 → s.launches.countP (fun l => l.part == s.part && !l.done) < 4096 →
       ∃ (t : State) (l : Launch), exec (.enqueueTake idx) s = .next t ∧
         t = { s with launches := s.launches ++ [l], enqs := t.enqs, fresh := s.fresh + 1 } ∧ took t ∧ l.id = s.fresh ∧
         l.part = s.part ∧ l.jd = wd w 1 ∧ l.ld = wd w 2 ∧ l.job = none ∧ l.done = false ∧ l.cancelled = false) ∧
     (∀ lvl : Nat, 1 ≤ lvl → lvl ≤ 4 → wd w 0 = BitVec.ofNat 64 (2 + 16 * lvl) → wd w 3 = 0 →
       ∃ t, exec (.enqueueTake idx) s = .next t ∧ took t ∧
         t = { s with enqs := t.enqs, cancelQ := s.cancelQ ++ [(lvl, wd w 1, wd w 2, 0)] }) ∧
     (wd w 0 = 2 → ufield (wd w 3) 32 32 = 0 → ∃ t, exec (.enqueueTake idx) s = .next t ∧ took t ∧
       t = { s with enqs := t.enqs, cancelQ := s.cancelQ ++ [(0, wd w 1, wd w 2, ufield (wd w 3) 0 32)] }) ∧
     (ufield (wd w 0) 7 57 ≠ 0 ∨ ufield (wd w 3) 32 32 ≠ 0 →
       (∀ (dws : List Word) (s2 : State), s.jobWords (wd w 1) = (.ok dws, s2) →
         ∃ (t : State) (p : Post), exec (.enqueueTake idx) s = .next t ∧ took t ∧ t.posts = s2.posts ++ [p] ∧
           p.jcb = (jobOf dws).jjcb ∧ p.lvl = 4 ∧ p.status = .poisoned ∧ p.cause = 2) ∧
       (∀ (c : Cause) (s2 : State), s.jobWords (wd w 1) = (.error c, s2) →
         ∃ (t : State) (f : FaultRec), exec (.enqueueTake idx) s = .next t ∧ took t ∧ t.posts = s2.posts ∧ f ∈ t.faultLog ∧
           f.cause = .noJcb ∧ f.detail = wd w 1 ∧ (s.part.toNat, 1) ∈ t.msi)))

/-- R254, R255, R262, R264: the tile fetch of a segment operand whose shape is sound, that lies inside its segment and
is there whole delivers every 64-byte unit of the operand as the segment holds it, and nothing else of the segment, of
memory or of the registers changes. Line n of an MLD image lies at 128 × (a[BO] + n × ASTR), a B tile in consecutive
lines, with the header line of an e2m1b tile behind it or at line a[SS]. R255, R257: the tile fetch of an MLD reads,
ahead of the X-half and under its pin, the first missing 64-byte unit whose line is full, once the earlier memory
accesses of the context are performed; the pin ends with the last unit. Where no missing line is full it reads
nothing, and without a pin neither (R163). That the lowest such unit comes first is the model's choice: R255 gives the
units no order (log entry 8). -/
def Obligations.TileFetches : Prop :=
  (∀ (s : State) (i : Instr) (ml : BitVec 3) (src : MxSrc) (bo : AReg) (msh : BitVec 2) (name : BitVec 16) (line w : Word)
     (e : SegEntry) (off : Nat → Int),
     ((i = .mld ml src bo msh ∧ (w.getLsbD 2 = true → ufield w 16 16 = 0) ∧
         ∀ k, off k = if w.getLsbD 2 then 128 * line.toInt + 64 * k
           else 128 * (line.toInt + (k / 2 : Nat) * (if sfield w 16 16 = 0 then 1 else sfield w 16 16)) + 64 * (k % 2 : Nat)) ∨
       (∃ (f : MmaFmt) (z : BitVec 1) (ss : AReg), i = .mma f z ml src bo msh ss ∧
         ∀ k, off k = if 16 ≤ k ∧ ss ≠ 0 then 128 * (s.xrd.ra ss).toInt + 64 * (k - 16 : Nat)
           else 128 * line.toInt + 64 * k)) →
     s.mshOf msh = (w, false) → ufield w 3 13 = 0 → ufield w 48 16 = 0 → ml.toNat < s.ctx.mcnt →
     (s.curFetch src bo).base = .seg (some name) line e.born → (s.curFetch src bo).units = [] →
     ((s.curFetch src bo).pinned = true ∨ ((s.curFetch src bo).floor = false ∧ s.pinFate s.cur [name] = .fits)) →
     (∀ q ∈ s.reqs, q.ctx = s.cur → (s.curFetch src bo).after ≤ q.id) →
     s.seg s.cur name = some e → (e.st = .resident ∨ e.st = .moving) →
     (∀ k, k < mxUnits i w → 0 ≤ off k ∧ off k + 64 ≤ 128 * e.size ∧ e.empty.get false ((off k).toNat / 128) = false) →
     ∃ (l : List FetchUnit) (t : State), s.mxFetch i ml src bo msh = .ok (l, t) ∧
       t = { s with segs := t.segs, fresh := s.fresh + mxUnits i w, l2 := t.l2 } ∧
       (∀ x ∈ t.segs, ∃ y ∈ s.segs, x = { y with touched := x.touched, cpins := x.cpins }) ∧
       (∀ k, k < mxUnits i w → ∀ j, j < 64 → BitVec.extractLsb' (8 * j) 8 (unitOf l k) = e.bytes.get 0 ((off k).toNat + j)) ∧
       ((∀ k, k < mxUnits i w → e.poisoned (off k).toNat 64 = false) → l.any (·.poison) = false)) ∧
  (∀ (s : State) (i : Nat) (x : LagEntry) (f : Fetch) (ml : BitVec 3) (src : MxSrc) (bo : AReg) (msh : BitVec 2)
     (name : BitVec 16) (line : Word) (e : SegEntry),
     s.ctx.lag[i]? = some x → x.fetch = some f → x.mx = .mld ml src bo msh → x.hdr.swm = false →
     x.snap.msh.get 0 msh.toNat = 0 → f.base = .seg (some name) line e.born → f.units.length < 128 →
     s.seg s.cur name = some e → (e.st = .resident ∨ e.st = .moving) → 0 ≤ line.toInt → line.toInt + 64 ≤ e.size →
     (∀ q ∈ s.reqs, q.ctx = s.cur → f.after ≤ q.id) →
     let put (g : Fetch) : List LagEntry := s.ctx.lag.map (fun y => if y.bun = x.bun then { y with fetch := some g } else y)
     let full (k : Nat) : Prop := e.empty.get false (line.toNat + k / 2) = false
     (∀ k, k < 128 → f.has k = false → full k → (∀ j, j < k → f.has j = false → ¬ full j) →
       f.pinned = true ∨ (f.floor = false ∧ s.pinFate s.cur [name] = .fits) →
       ∃ t, exec (.tileFetch i) s = .next t ∧
         t = { s with ctx := { s.ctx with lag := t.ctx.lag }, segs := t.segs, fresh := s.fresh + 1 } ∧
         (∀ u ∈ t.segs, ∃ v ∈ s.segs, u = { v with touched := u.touched, cpins := u.cpins, wanted := u.wanted }) ∧
         t.ctx.lag = put { f with pinned := decide (f.units.length + 1 < 128), units := f.units ++
           [⟨k, bytesVec (e.read (128 * line.toNat + 64 * k) 64), e.poisoned (128 * line.toNat + 64 * k) 64⟩] }) ∧
     ((∀ j, j < 128 → f.has j = false → ¬ full j) → f.pinned = true →
       ∃ t, exec (.tileFetch i) s = .next t ∧ t = { s with ctx := { s.ctx with lag := t.ctx.lag }, segs := t.segs } ∧
         t.segs = (s.wantSeg e).segs ∧ t.ctx.lag = put f) ∧
     (f.pinned = false → f.floor = true ∨ s.pinFate s.cur [name] ≠ .fits → exec (.tileFetch i) s = .next s))

/-- R259, R262, R263: MLD writes the rows of its latch from the fetched lines, nine lines to a group of eight rows for
an e2m1b image with the headers of the ninth in the scale side, which is unchanged otherwise; no other latch changes.
ZCLR makes every element of its accumulator +0, none of them poisoned, and leaves the other accumulator. R260: the
array becomes ready for the next MMA. R253, R258: an MX operand's faults come in order, at its bundle, without effect:
the latch number, then the shape, then the segment name, then its bounds; an operand whose lines have all been read
has met them. A name that resolved when the A-half issued and is gone when the X-half does raises NOSEG too, whatever
has been created under it since, the model's choice (log entry 65), and the detail of a segment's fault is the offset
(log entry 50). -/
def Obligations.MatrixLatchesAndOperands : Prop :=
  ((∀ (ml : BitVec 3) (src : MxSrc) (bo : AReg) (msh : BitVec 2) (s u : State) (l : List FetchUnit) (w : Word),
     (∀ a ∈ bo :: src.areads, s.xrd.aPoison.get false a.toNat = false) → s.mshOf msh = (w, false) →
     s.mxFetch (.mld ml src bo msh) ml src bo msh = .ok (l, u) → l.any (·.poison) = false →
     let ph := u.ctx.mbase + ml.toNat
     ∃ t, exec (.mld ml src bo msh) s = .next t ∧
       t = { u with m := t.m, mPoison := t.mPoison, mscale := t.mscale } ∧
       (∀ i, i < 64 → t.m.get 0 (64 * ph + i) = lineOf l (if w.getLsbD 2 then 9 * (i / 8) + i % 8 else i) ∧
         t.mPoison.get false (64 * ph + i) = false) ∧
       (∀ n, n / 64 ≠ ph → t.m.get 0 n = u.m.get 0 n ∧ t.mPoison.get false n = u.mPoison.get false n) ∧
       (w.getLsbD 2 = false → t.mscale = u.mscale) ∧
       (w.getLsbD 2 = true →
         (∀ g b : Nat, g < 8 → b < 64 → t.mscale.get 0 (512 * ph + 64 * g + b) =
           BitVec.extractLsb' (16 * b) 16 (lineOf l (9 * g + 8))) ∧
         ∀ n, n / 512 ≠ ph → t.mscale.get 0 n = u.mscale.get 0 n)) ∧
   (∀ (z : BitVec 1) (s : State), ∃ t, exec (.zclr z) s = .next t ∧
     t = { s with ctx := { s.ctx with z := t.ctx.z, zhist := t.ctx.zhist, zPoison := t.ctx.zPoison } } ∧
     (∀ i j, i < 64 → j < 32 → t.ctx.z.get 0 (zKey z i j) = 0) ∧
     (∀ k, k < 128 → t.ctx.zStruck z k = false) ∧
     (∀ n, n / 128 ≠ z.toNat → t.ctx.zPoison.get false n = s.ctx.zPoison.get false n) ∧
     (∀ n, n / 2048 ≠ z.toNat → t.ctx.z.get 0 n = s.ctx.z.get 0 n))) ∧
  (∀ s : State, exec .arrayAccept s = .next { s with arrayBusy := false }) ∧
  (∀ (ml : BitVec 3) (src : MxSrc) (bo : AReg) (msh : BitVec 2) (s : State) (w : Word),
     (∀ a ∈ bo :: src.areads, s.xrd.aPoison.get false a.toNat = false) → s.mshOf msh = (w, false) →
     let trap (c : Cause) : Host.Outcome State Fault Refusal := .next (s.raise ⟨c, true, 0, 0, 0⟩)
     (s.ctx.mcnt ≤ ml.toNat → exec (.mld ml src bo msh) s = trap .mRange) ∧
     (ml.toNat < s.ctx.mcnt →
       ((ufield w 3 13 ≠ 0 ∨ ufield w 48 16 ≠ 0 ∨ (w.getLsbD 2 = true ∧ ufield w 16 16 ≠ 0)) →
         exec (.mld ml src bo msh) s = trap .badShape) ∧
       (w = 0 → (s.curFetch src bo).units.length < 128 → ∀ (name : Option (BitVec 16)) (line : Word) (born : Nat),
         (s.curFetch src bo).base = .seg name line born →
         ((∀ e, name.bind (s.seg s.cur) = some e → e.born ≠ born) → exec (.mld ml src bo msh) s = trap .noSeg) ∧
         (∀ e, name.bind (s.seg s.cur) = some e → e.born = born → (line.toInt < 0 ∨ (e.size : Int) < line.toInt + 64) →
           let o : Int := if line.toInt < 0 then 128 * line.toInt else 128 * max line.toInt e.size
           exec (.mld ml src bo msh) s = .next (s.raise ⟨.segBound, true, 0, 0, BitVec.ofInt 64 o⟩)))))

/-- R250, R251, R264: an MMA puts into every element of its accumulator the K-step of row i of its latch, quarter AQ,
and row j of its B tile, added to what the element held (a −0 counts as 0 for MMA.i8), and the array is busy; the
other accumulator is unchanged. While the array has not accepted the last MMA the X-half waits (R260). R264: within a
K-step the products and their sum are exact and only the addition to the accumulator rounds: integer products added to
+0 give their sum, rounded once; a NaN factor, infinity times zero, products of +∞ and −∞, or an infinite product and
an infinity of the other sign in the accumulator give the canonical NaN, as does a NaN in the accumulator; else an
infinite product gives its infinity. The sign of an exact zero (a +0 unless the accumulator and every product are −0)
is the model's reading (log entry 22). Elements of MMA.i8 are signed bytes (R251). -/
def Obligations.MatrixMultiplication : Prop :=
  (∀ (f : MmaFmt) (z : BitVec 1) (ml : BitVec 3) (src : MxSrc) (bo ss : AReg) (msh : BitVec 2) (s u : State)
     (l : List FetchUnit) (w : Word),
     (∀ a ∈ bo :: ss :: src.areads, s.xrd.aPoison.get false a.toNat = false) → s.mshOf msh = (w, false) →
     s.mxFetch (.mma f z ml src bo msh ss) ml src bo msh = .ok (l, u) → l.any (·.poison) = false →
     (∀ i, i < 64 → s.mPoison.get false (64 * (u.ctx.mbase + ml.toNat) + i) = false) →
     (∀ k, k < 128 → s.ctx.zStruck z k = false) →
     (s.arrayBusy = true → exec (.mma f z ml src bo msh ss) s = .next (s.wait .engine)) ∧
     (s.arrayBusy = false → ∃ t, exec (.mma f z ml src bo msh ss) s = .next t ∧
       t = { u with ctx := { u.ctx with z := t.ctx.z, zhist := t.ctx.zhist }, arrayBusy := true } ∧
       (∀ i j, i < 64 → j < 32 → t.ctx.z.get 0 (zKey z i j) =
         mmaCell (u.mmaA f (u.ctx.mbase + ml.toNat) (ufield w 0 2) i) (mmaB f l j) (mmaIn f (u.ctx.z.get 0 (zKey z i j)))) ∧
       (∀ n, n / 2048 ≠ z.toNat → t.ctx.z.get 0 n = u.ctx.z.get 0 n))) ∧
  ((∀ a b : List Int, a.length = b.length →
     let v : List Int → List FVal := fun l => l.map (fun x => .fin (decide (x < 0)) x.natAbs 0)
     let sum := ((a.zip b).map (fun p => p.1 * p.2)).foldr (· + ·) 0
     mmaCell (v a) (v b) 0 = if sum = 0 then 0 else toF32 Prefix.default 0 (XVal.ofInt sum)) ∧
   (∀ (a b : List FVal) (z : Lane), a.length = b.length → (FVal.nan ∈ a ∨ FVal.nan ∈ b) → mmaCell a b z = 0x7FC00000) ∧
   (∀ (a b : List FVal) (z : Lane), f32 z = .nan → mmaCell a b z = 0x7FC00000) ∧
   (∀ (a b : List FVal) (z : Lane) (i : Nat) (n m : Bool) (e : Int),
     (a[i]? = some (.inf n) ∧ b[i]? = some (.fin m 0 e)) ∨ (a[i]? = some (.fin m 0 e) ∧ b[i]? = some (.inf n)) →
     mmaCell a b z = 0x7FC00000) ∧
   (let infinite (n : Bool) (x y : FVal) : Prop := (∃ p q, x = .inf p ∧ y = .inf q ∧ n = (p != q)) ∨
       ∃ p q m e, m ≠ 0 ∧ n = (p != q) ∧ ((x = .inf p ∧ y = .fin q m e) ∨ (x = .fin q m e ∧ y = .inf p))
     ∀ (a b : List FVal) (z : Lane) (i : Nat) (x y : FVal) (n : Bool), a[i]? = some x → b[i]? = some y → infinite n x y →
       ((∃ (j : Nat) (u v : FVal), a[j]? = some u ∧ b[j]? = some v ∧ infinite (!n) u v) → mmaCell a b z = 0x7FC00000) ∧
       (f32 z = .inf (!n) → mmaCell a b z = 0x7FC00000) ∧
       (a.length = b.length → (∀ u v, (u, v) ∈ a.zip b → infinite n u v ∨ ∃ p q m k e g, u = .fin p m e ∧ v = .fin q k g) →
         f32 z ≠ .nan → f32 z ≠ .inf (!n) → mmaCell a b z = if n then 0xFF800000 else 0x7F800000)) ∧
   (∀ q k : Nat, k < 32 → ∀ h, mmaElem .i8 q h k =
     let x := (BitVec.ofNat 8 (q / 256 ^ k)).toInt
     .fin (decide (x < 0)) x.natAbs 0))

/-- R259: a ZRD or ZST at bundle m sees an MMA or ZCLR of bundle n exactly where n ≤ m − 24. R265: ZRD fills the
entries that its A-half reserved in q3 of the eight clusters: lane l of cluster c's entry is element [4s + c/2][16 (c
mod 2) + l] of the accumulator as the bundle sees it, or with bf16 elements 2l and 2l + 1 of row 8s + c, each rounded
under the prefix with draw 4,096 + 32i + j. R253, R266: a ZST of a segment whose rows lie inside it captures the
accumulator as its bundle sees it and moves on: row i goes to 128 × a[BO] + 64 × i × ZSTR, or behind the last row
where ZSTR is 0, in ascending order; each write then leaves every byte outside its 64 as it was, and the full bits
too. One of global memory or of a tile writes its units, each through the comparator's keys (R404; how a write is
numbered is the model's, log entry 27). -/
def Obligations.AccumulatorReadsAndStores : Prop :=
  ((∀ (z : BitVec 1) (c : Ctx) (new : Store Lane) (m : Nat), (∀ h ∈ c.zhist, h.z ≠ z) → c.xn ≤ m →
     ({ c.zNote z with z := new, xn := m } : Ctx).zView z = if m < c.xn + 24 then c.z else new) ∧
   (∀ (z : BitVec 1) (s : State), ∃ t, exec (.zclr z) s = .next t ∧ t.ctx.zhist = (s.ctx.zNote z).zhist)) ∧
  (∀ (bf : Bool) (z : BitVec 1) (bo : AReg) (s : State) (x : LagEntry), s.xrd.aPoison.get false bo.toNat = false →
     s.ctx.lag.head? = some x → x.zrd.length = 8 →
     (∀ k ∈ zrdUnits bf (s.xrd.ra bo), s.ctx.zStruck z k = false) →
     let a := (s.xrd.ra bo).toNat
     let v := s.ctx.zView z
     let r (i j : Nat) : Nat := bf16.encode s.xp (s.draw (4096 + 32 * i + j)) (f32 (v.get 0 (zKey z i j))).toX
     ∃ t, exec (.zrd bf z bo) s = .next t ∧ t = { s with ctx := { s.ctx with queues := t.ctx.queues } } ∧
       (∀ c, c < 8 → ∃ e : Vec,
         t.queue (6 * c + 3) = (s.queue (6 * c + 3)).map (fun y =>
           if y.tick = x.zrd.getD c 0 then { y with val := some e, poison := false } else y) ∧
         ∀ n, n < 16 → lane e n =
           if bf then BitVec.ofNat 32 (r (8 * (a % 8) + c) (2 * n) + 65536 * r (8 * (a % 8) + c) (2 * n + 1))
           else v.get 0 (zKey z (4 * (a % 16) + c / 2) (16 * (c % 2) + n))) ∧
       (∀ id, id % 6 ≠ 3 ∨ 48 ≤ id → t.queue id = s.queue id)) ∧
  ((∀ (bf : Bool) (z : BitVec 1) (src : MxSrc) (bo : AReg) (msh : BitVec 2) (s : State) (w line : Word) (name : BitVec 16)
     (e : SegEntry),
     (∀ a ∈ bo :: src.areads, s.xrd.aPoison.get false a.toNat = false) → s.mshOf msh = (w, false) →
     ufield w 3 13 = 0 → ufield w 48 16 = 0 → (s.curFetch src bo).base = .seg (some name) line e.born →
     s.seg s.cur name = some e → (e.st = .resident ∨ e.st = .moving) → s.pinFate s.cur [name] = .fits →
     let per : Nat := if bf then 1 else 2
     let str : Int := if sfield w 32 16 = 0 then per else sfield w 32 16
     let off (k : Nat) : Int := 128 * line.toInt + 64 * (k / per : Nat) * str + 64 * (k % per : Nat)
     (∀ k, k < 64 * per → 0 ≤ off k ∧ off k + 64 ≤ 128 * e.size) →
     let v := s.ctx.zView z
     let r (i j : Nat) : Nat := bf16.encode s.xp (s.draw (4096 + 32 * i + j)) (f32 (v.get 0 (zKey z i j))).toX
     ∃ (t : State) (q : ZStore), exec (.zst bf z src bo msh) s = .next t ∧
       t = { s with zstores := s.zstores ++ [q], segs := t.segs, fresh := s.fresh + 1,
                    ctx := { s.ctx with task := s.ctx.task.map (fun k => { k with seq := k.seq + 1 }) } } ∧
       t.segs = s.segs.map (fun y => if y.ctx = s.cur ∧ y.name = name then { y with cpins := y.cpins + 1 } else y) ∧
       q.ctx = s.cur ∧ q.seg = some name ∧ q.units.length = 64 * per ∧
       ∀ k, k < 64 * per → ∃ u : Vec, q.units[k]? = some ((off k).toNat, u) ∧ ∀ n, n < 16 → lane u n =
         if bf then BitVec.ofNat 32 (r k (2 * n) + 65536 * r k (2 * n + 1))
         else v.get 0 (zKey z (k / 2) (16 * (k % 2) + n))) ∧
   (∀ (bf : Bool) (z : BitVec 1) (src : MxSrc) (bo : AReg) (msh : BitVec 2) (s u : State) (w : Word)
     (l : List (Nat × Bool)),
     (∀ a ∈ bo :: src.areads, s.xrd.aPoison.get false a.toNat = false) → s.mshOf msh = (w, false) →
     ufield w 3 13 = 0 → ufield w 48 16 = 0 → (∀ n o b, (s.curFetch src bo).base ≠ .seg n o b) →
     s.mxFault (.zst bf z src bo msh) (s.curFetch src bo).base w = none →
     s.zstPlaces (.zst bf z src bo msh) (s.curFetch src bo).base w (if bf then 64 else 128) = .ok l u →
     ∃ (t : State) (q : ZStore), exec (.zst bf z src bo msh) s = .next t ∧
       t = { u with zstores := u.zstores ++ [q], fresh := u.fresh + 1,
                    ctx := { u.ctx with task := u.ctx.task.map (fun k => { k with seq := k.seq + 1 }) } } ∧
       q.ctx = s.cur ∧ q.seg = none ∧ q.seqNo = u.seqNo + 1 ∧ q.unit = 0 ∧ q.un = (l.filter (·.2)).map (·.1) ∧
       q.units = (l.zipIdx).map (fun p => (p.1.1, s.zstUnit bf z p.2))) ∧
   (∀ (s : State) (i : Nat) (q : ZStore) (a : Nat) (v : Vec) (rest : List (Nat × Vec)), s.zstores[i]? = some q →
     q.units = (a, v) :: rest → rest ≠ [] →
     (∀ n, q.seg = some n → ∃ t, exec (.zstWritePerformed i) s = .next t ∧
       t = { s with zstores := s.zstores.set i { q with units := rest, unit := q.unit + 1 }, segs := t.segs
                    fresh := s.fresh + 1 } ∧
       t.segs.length = s.segs.length ∧
       ∀ (j : Nat) (e : SegEntry), s.segs[j]? = some e → ∃ f, t.segs[j]? = some f ∧
         (¬ (e.ctx = q.ctx ∧ e.name = n) → f = e) ∧
         (e.ctx = q.ctx ∧ e.name = n → f = { e with bytes := f.bytes, poison := f.poison, touched := s.fresh } ∧
           (∀ k, k < 64 → f.bytes.get 0 (a + k) = BitVec.extractLsb' (8 * k) 8 v) ∧
           ∀ k, k < a ∨ a + 64 ≤ k → f.bytes.get 0 k = e.bytes.get 0 k)) ∧
     (q.seg = none → s.cmpHeld = false → exec (.zstWritePerformed i) s = .next
       { (s.physWrite a (vecBytes v) (q.poison.contains a) q.hint q.ten (q.un.contains a)).feed ⟨q.ctx, q.seqNo, q.unit⟩ a 64 v with
         zstores := s.zstores.set i { q with units := rest, unit := q.unit + 1 } })) ∧
   (∀ (s : State) (i : Nat) (q : ZStore) (a : Nat) (v : Vec), s.zstores[i]? = some q → q.units = [(a, v)] → q.seg = none → s.cmpHeld = false →
     exec (.zstWritePerformed i) s = .next
       { (s.physWrite a (vecBytes v) (q.poison.contains a) q.hint q.ten (q.un.contains a)).feed ⟨q.ctx, q.seqNo, q.unit⟩ a 64 v with
         zstores := s.zstores.eraseIdx i }) ∧
   (∀ (s : State) (i : Nat) (q : ZStore), s.zstores[i]? = some q → q.units = [] → q.seg = none →
     exec (.zstWritePerformed i) s = .next { s with zstores := s.zstores.eraseIdx i }))

/-- R371, R372: TRAP whose condition holds raises SWTRAP with its code once its A-half has committed, so that APC is
the next bundle, and does nothing where it does not hold; TRAP.set sets frame, mask and HPC, or raises BADADDR or
MISALIGN; TRAP.clr clears the mask. A trap waits while the page of its frame or handler is behind a miss that waits
(R75). R371: the fields of the cause word. R365, R370: a trap that no handler takes goes to the control core. It stops
the task for a cause that stops tasks, so that the task retires POISONED, with cause DOUBLE where a handler was
active; it parks a page or tile fault and leaves the context to execute the bundle again; and a BREAK stops the
context for the debugger. -/
def Obligations.TrapsTaken : Prop :=
  ((∀ (k : KReg) (neg : Bool) (code : BitVec 16) (s : State),
     (s.rd.rk k = neg → exec (.trap k neg code) s = .next s) ∧
     (s.rd.rk k ≠ neg → s.entryBusy = false → exec (.trap k neg code) s =
       .next ({ s with ctx := { s.ctx with pc := s.ctx.npc, an := s.ctx.an + 1, aview := none } }.raise
         ⟨.swTrap, false, 0, code, 0⟩))) ∧
   (∀ (k : KReg) (neg : Bool) (code : BitVec 16) (s s1 : State) (pa : Nat) (tl : Tlb), s.rd.rk k ≠ neg →
     s.entryBusy = false → s.parked = [] → s.ctx.active = false → s.ctx.hmask.getLsbD 1 = true →
     let u : State := { s with ctx := { s.ctx with pc := s.ctx.npc, an := s.ctx.an + 1, aview := none } }
     let x := u.ctx.xpc
     let w : Word := BitVec.ofNat 64 (0x40 + 65536 * code.toNat)
     u.entryServed u.ctx.hand = true →
     (u.traceRec 3 s.ctx.npc w).frameAt s.ctx.hframe .write = (.ok pa tl, s1) → s1.frameBusy pa = false →
     s1.layerOff pa = false → s1.targetFault s.ctx.hpc = none →
     ∃ t, exec (.trap k neg code) s = .next t ∧ t.ctx.active = true ∧ t.ctx.pc = s.ctx.hpc ∧ t.ctx.npc = s.ctx.hpc ∧
       t.ctx.regs.ra 60 = s.ctx.hframe ∧ t.ctx.regs.ra 61 = w ∧ t.ctx.regs.ra 62 = s.ctx.npc ∧ t.ctx.regs.ra 63 = x) ∧
   (∀ (a : AReg) (mask : BitVec 5) (disp : BitVec 17) (s : State), s.Clean [a] →
     let f := s.rd.ra a
     (f.toNat < 2 ^ 56 → f.toNat % 256 = 0 → ∃ t, exec (.trapSet a mask disp) s = .next t ∧
       t = { s with ctx := { s.ctx with hframe := f, hmask := mask, hpc := t.ctx.hpc } } ∧
       t.ctx.hpc.toInt = ((s.ctx.pc.toInt : Int) + 2 * disp.toInt).bmod (2 ^ 64)) ∧
     (2 ^ 56 ≤ f.toNat → exec (.trapSet a mask disp) s = .next (s.raise ⟨.badAddr, false, 0, 0, f⟩)) ∧
     (f.toNat < 2 ^ 56 → f.toNat % 256 ≠ 0 → exec (.trapSet a mask disp) s = .next (s.raise ⟨.misalign, false, 0, 0, f⟩))) ∧
   (∀ s : State, exec .trapClr s = .next { s with ctx := { s.ctx with hmask := 0 } })) ∧
  (∀ t : TrapInfo, t.slot < 16 →
     ufield t.word 0 8 = t.cause.code ∧ t.word.getLsbD 8 = t.xhalf ∧ ufield t.word 9 4 = t.slot ∧ ufield t.word 13 3 = 0 ∧
     ufield t.word 16 16 = t.swc.toNat ∧ ufield t.word 32 32 = 0) ∧
  (∀ (s : State) (t : TrapInfo) (k : Task), s.ctx.phase = .running → s.frozen = false → s.untraced 3 → s.ctx.delegates t = false → s.ctx.task = some k →
     (∀ p ∈ s.parked, p.denied = false) →
     ((t.cause.kind = .stop ∨ (∃ b, t.cause.kind = .delegable b)) →
       ∃ r, exec (.trapToControlCore t) s = .next r ∧ r.mark = .trapped t ∧ r.ctx.phase = .retiring ∧
         r.ctx.task = some { k with st := .poisoned } ∧ r.ctx.lag = [] ∧ r.ctx.flight = [] ∧
         r.ctx.regs = s.ctx.regs ∧ r.mem = s.mem ∧
         ∃ f : FaultRec, r.faultLog.getLast? = some f ∧ f.ctx = s.cur ∧ f.detail = t.detail ∧
           f.cause = if s.ctx.active = true then .double else t.cause) ∧
     ((t.cause = .pgAbsent ∨ t.cause = .tileAbsent ∨ t.cause = .codeFault) → s.parked = [] →
       ∃ r, exec (.trapToControlCore t) s = .next r ∧ r.mark = .trapped t ∧
         r.ctx = { s.ctx with aview := none, xview := none, watch := s.ctx.watch.lose, pend := some t } ∧ r.mem = s.mem ∧
         r.parked = [⟨.half s.cur, k.job.asid, k.job.root, t.detail, t.cause, false⟩]) ∧
     (t.cause = .brk → ∃ r, exec (.trapToControlCore t) s = .next r ∧ r.mark = .trapped t ∧
       r.ctx = { s.ctx with aview := none, xview := none, watch := s.ctx.watch.lose, stopped := true, stopCause := 0x07,
                            pend := some t } ∧
       r.mem = s.mem ∧ r.msi.getLast? = some (s.part.toNat, 4)))

/-- R36, R368, R371, R372: entry to the handler, with the frame, mask and HPC as they stand at the trapping bundle,
sets aside positions, lag record, shelf and latches, writes HPC, the cause word, APC, XPC, the detail and a60 to a63
into the frame and no other byte of memory, gives a60 to a63 the frame address, the cause word, APC and XPC and leaves
every other register, and starts both halves at HPC with no lag. While the page of the frame or of the handler is
behind a miss that no walker serves, entry waits and is owed (R75). -/
def Obligations.HandlerEntry : Prop :=
  ∀ (s s1 : State) (t : TrapInfo) (pa : Nat) (tl : Tlb), s.ctx.phase = .running → s.frozen = false → s.ctx.delegates t = true →
    (∀ p ∈ s.parked, p.denied = false) →
    (∀ q ∈ s.reqs, q.ctx = s.cur → ∀ d ty, q.act = .areg d ty → d.toNat < 60) →
    let h := s.ctx.handFor t
    let apc := s.ctx.pc
    let xpc := s.ctx.xpc
    (s.pageServed h.frame = false → exec (.trapEntry t) s = .next (State.wait { s.noteMiss s.ctx.job.asid h.frame false with
      ctx := { s.ctx with aview := none, xview := none, pend := some t } } .entry)) ∧
    (s.entryServed h = true → (s.traceRec 3 (if t.xhalf then xpc else apc) t.word).frameAt h.frame .write = (.ok pa tl, s1) → pa % 256 = 0 →
    s1.frameBusy pa = false → (∀ x, x < 72 → s1.layerOff (pa + x) = false) → s1.targetFault h.pc = none →
    ∃ r, exec (.trapEntry t) s = .next r ∧ r.mark = .trapped t ∧
      r.ctx = { s.ctx with
        regs := { s.ctx.regs with a := r.ctx.regs.a, aPoison := r.ctx.regs.aPoison }
        aside := some ⟨apc, xpc, if t.xhalf then s.dropHead.ctx.lag else s.ctx.lag, s.ctx.flight, s.ctx.zhist, s.seenLatches,
          s.ctx.an, s.ctx.xn, s.ctx.xpend, t.cause, h.frame, s.ctx.hand⟩
        lag := [], flight := [], xpend := [], hwrote := [], zhist := r.ctx.zhist, active := true, xn := s.ctx.an, pend := none
        pc := h.pc, npc := h.pc, aview := none, xview := none, watch := s.ctx.watch.lose } ∧
      r.ctx.regs.ra 60 = h.frame ∧ r.ctx.regs.ra 61 = t.word ∧ r.ctx.regs.ra 62 = apc ∧ r.ctx.regs.ra 63 = xpc ∧
      (∀ x : AReg, x.toNat < 60 → r.ctx.regs.ra x = s.ctx.regs.ra x) ∧
      r.memWord pa = h.pc ∧ r.memWord (pa + 8) = t.word ∧ r.memWord (pa + 16) = apc ∧
      r.memWord (pa + 24) = xpc ∧ r.memWord (pa + 32) = t.detail ∧
      (∀ i : Nat, i < 4 → r.memWord (pa + 40 + 8 * i) = s.ctx.regs.ra (BitVec.ofNat 6 (60 + i))) ∧
      (∀ x, x < pa ∨ pa + 72 ≤ x → r.memByte x = s1.memByte x) ∧ r.v = s.v ∧ r.ctx.queues = s.ctx.queues)

/-- R373: ERET waits until the two halves are aligned; with a frame that translates and no handler result in flight it
brings a60 to a63 back from the frame and, with GO = 0, positions, lag record, shelf and latches as they were set
aside; with GO = 1 it discards them and both halves start at its target. Outside a handler it raises BADERET. The
latches come back with the poison they had (R379). It waits for a miss of the frame that no walker serves (R75). What
becomes of accumulator writes around a handler is the model's (log entry 83): its own are visible on return, and so
are those that GO = 1 discards the shelf of. -/
def Obligations.HandlerReturn : Prop :=
  (∀ (disp : BitVec 23) (s : State), s.ctx.active = false →
    exec .eret s = .next (s.raise ⟨.badEret, false, 0, 0, 0⟩) ∧
    exec (.eretGo disp) s = .next (s.raise ⟨.badEret, false, 0, 0, 0⟩)) ∧
  (∀ (s : State), s.ctx.active = true → s.realigned = false → exec .eret s = .next (s.wait .realign)) ∧
  (∀ (disp : BitVec 23) (s s1 : State) (a : Aside) (pa : Nat) (tl : Tlb), s.ctx.active = true → s.realigned = true →
    s.ctx.aside = some a → (∀ q ∈ s.reqs, q.ctx = s.cur → ∀ d ty, q.act = .areg d ty → d.toNat < 60) →
    s.pageServed a.frame = true → s.frameAt a.frame .read = (.ok pa tl, s1) → s1.frameBusy pa = false →
    s1.shadowBusy .msh = false →
    (∀ i, i < 4 → s1.layerOff (pa + 40 + 8 * i) = false) → s.ctx.flight = [] →
    (∀ f ∈ a.lag, f.fetch = none) → s.ctx.hwrote = [] →
    let target := s.ctx.pc + disp.signExtend 64 * 2
    let back (t : State) : Prop :=
      (∀ i : Nat, i < 4 → t.ctx.regs.ra (BitVec.ofNat 6 (60 + i)) = s1.memWord (pa + 40 + 8 * i)) ∧
      (∀ x : AReg, x.toNat < 60 → t.ctx.regs.ra x = s.ctx.regs.ra x)
    (∃ t, exec .eret s = .next t ∧ back t ∧
      t = { s1.putLatches a.latches with
        ctx := { s.ctx with
          regs := { s.ctx.regs with a := t.ctx.regs.a, aPoison := t.ctx.regs.aPoison }
          lag := a.lag.map (fun e => { e with hand := if s.ctx.hand = a.hand then e.hand else s.ctx.hand })
          flight := a.flight, zhist := a.zhist.filter (fun h => !s.ctx.wroteZ h.z), an := a.an, xn := a.xn, xpend := a.xpend
          queues := t.ctx.queues
          pc := a.apc, npc := a.apc, active := false, aside := none, aview := none }
        l2 := t.l2, fresh := t.fresh, nsCount := t.nsCount, hbmSleep := t.hbmSleep, cmpSaved := t.cmpSaved } ∧
      ∀ id, (∀ e ∈ s.queue id, e.bun < a.an) → t.queue id = s.queue id) ∧
    (s.targetOk target → a.xpend = [] →
      ∃ t, exec (.eretGo disp) s = .next t ∧ back t ∧
        t = { s1 with
          ctx := { s.ctx with
            regs := { s.ctx.regs with a := t.ctx.regs.a, aPoison := t.ctx.regs.aPoison }
            queues := t.ctx.queues, an := s.ctx.xn, zhist := [], pc := target, npc := target, active := false,
            aside := none, aview := none }
          l2 := t.l2, fresh := t.fresh, nsCount := t.nsCount, hbmSleep := t.hbmSleep, cmpSaved := t.cmpSaved } ∧
        ∀ id, s.queue id ≠ [] → (∀ e ∈ s.queue id, e.val ≠ none ∨ e.src = .load ∨ e.src = .stream) → t.queue id = s.queue id)) ∧
  (∀ (s : State) (a : Aside), s.ctx.active = true → s.realigned = true → s.ctx.aside = some a → s.pageServed a.frame = false →
    exec .eret s = .next (s.awaitPage a.frame)) ∧
  (∀ s u : State, Store.wf false s.vPoison = true →
    (u.putLatches s.latchesNow).latch = s.latch ∧
    ∀ k, (u.putLatches s.latchesNow).vPoison.get false k = if 5120 ≤ k then s.vPoison.get false k else u.vPoison.get false k)

/-- R298: RETIRE ends the task: unissued X-halves and results in flight are dropped, registers and memory stay, and
the context waits to be released. R357 to R360: TRIG marks its task triggered and releases, each time; the release
performed adds one to TRG, once for the task; WVIS waits until every task of each early predecessor has triggered,
then notes the worst status and acquires, once the Felt has read their control blocks again; GROW adds k tasks and
answers the first new index, or all ones where the launch cannot grow, and with k = 0 answers the task count. It
raises EXP of the launch's control block, in memory or where the dispatcher keeps it (R428); with termination weights
EXP stays and the grower's weight is split among the new tasks. The task count in the block's word 4 is R347's. -/
def Obligations.TasksTriggersAndGrowth : Prop :=
  (∀ (s : State) (k : Task), s.ctx.task = some k → ∃ t, exec .retire s = .next t ∧ t.ctx.phase = .retiring ∧
     t.ctx.task = some k ∧ t.ctx.lag = [] ∧ t.ctx.flight = [] ∧ t.ctx.regs = s.ctx.regs ∧ t.v = s.v ∧ t.mem = s.mem ∧
     t.copies = s.copies ∧ t.zstores = s.zstores ∧ (∀ x ∈ t.streams, x ∈ s.streams) ∧
     (∀ x ∈ s.streams, (x.ctx = s.cur ∧ x.q < 4) ∨ x ∈ t.streams) ∧ (∀ x ∈ t.streams, ¬ (x.ctx = s.cur ∧ x.q < 4))) ∧
  ((∀ (s : State) (k : Task), s.ctx.task = some k →
     ∃ (t : State) (q : Req), exec .trig s = .next t ∧ q.id = s.fresh ∧ q.ctx = s.cur ∧ q.act = .trig ∧
       q.ord = .release ∧ q.scope = .part ∧
       t = { s with ctx := { s.ctx with task := some { k with trig := true } }, reqs := s.reqs ++ [q], fresh := s.fresh + 1 }) ∧
   (∀ (s : State) (i : Nat) (q : Req) (k : Task) (l : Launch), s.mayPerform i = some q → q.act = .trig →
     (s.ctxAt q.ctx).task = some k → s.launches = [l] → l.id = k.launch →
     let n := k.x + l.nx * k.y
     (n ∈ l.trigd → exec (.storePerformed i) s = .next { s with reqs := s.reqs.eraseIdx i }) ∧
     (n ∉ l.trigd → ∃ p : Post, p.jcb = k.ljcb ∧ p.lvl = 5 ∧ exec (.storePerformed i) s = .next { s with
       reqs := s.reqs.eraseIdx i, posts := s.posts ++ [p],
       launches := [{ l with trigd := l.trigd ++ [n], trigSt := l.trigSt.max .ok }] })) ∧
   (∀ (s : State) (k : Task), s.ctx.task = some k →
     ((∃ va ∈ k.erl, s.allTriggered k.part k.job va = false) → exec .wvis s = .next (s.wait .barrier)) ∧
     ((∀ va ∈ k.erl, s.allTriggered k.part k.job va = true) → exec .wvis s = .next { State.pollAll { s with l1 := [] } k.job k.erl with
       ctx := { s.ctx with task := some { k with
         inp := k.inp || k.erl.any (fun va => s.triggerStatus k.part k.job va != .ok) } } })) ∧
   (∀ (a : AReg) (s : State) (k : Task) (l : Launch), a ≠ 0 → s.Clean [a] → s.ctx.task = some k →
     s.launchBy k.launch = some l →
     let n := (s.rd.ra a).toNat
     (k.dim2 = true → exec (.grow a) s = .next (s.raise ⟨.badGrow, false, 0, 0, 0⟩)) ∧
     (k.dim2 = false → k.trig = true → exec (.grow a) s = .next (s.raise ⟨.growLate, false, 0, 0, 0⟩)) ∧
     (k.dim2 = false → k.trig = false → n = 0 → s.SetsA (.grow a) a (BitVec.ofNat 64 l.nx)) ∧
     (k.dim2 = false → k.trig = false → 1 ≤ n → (65536 < l.nx + n ∨ (k.cmpw = true ∧ k.weight / (n + 1) = 0)) →
       s.SetsA (.grow a) a 0xFFFFFFFFFFFFFFFF) ∧
     (k.dim2 = false → k.trig = false → 1 ≤ n → l.nx + n ≤ 65536 → k.cmpw = false →
       ∀ x : KeptJcb, s.keptAt k.job.asid k.ljcb = some x →
         ∃ t, exec (.grow a) s = .next t ∧ t.ctx.regs.ra a = BitVec.ofNat 64 l.nx ∧
           (t.launchBy k.launch).map (·.nx) = some (l.nx + n) ∧ t.mem = s.mem ∧
           t.kept = s.kept.map (fun y => if y = x then { y with exp := y.exp + BitVec.ofNat 64 n } else y) ∧
           t.ctx.task = some k) ∧
     (k.dim2 = false → k.trig = false → 1 ≤ n → l.nx + n ≤ 65536 → k.cmpw = true → 1 ≤ k.weight / (n + 1) →
       ∀ x : KeptJcb, s.keptAt k.job.asid k.ljcb = some x →
         ∃ (t : State) (m : Launch), exec (.grow a) s = .next t ∧ t.ctx.regs.ra a = BitVec.ofNat 64 l.nx ∧
           t.launchBy k.launch = some m ∧ m = { l with nx := l.nx + n, weights := m.weights } ∧
           (∀ i, m.weights.get (2 ^ 31) i =
             if l.nx ≤ i ∧ i < l.nx + n then k.weight / (n + 1) else l.weights.get (2 ^ 31) i) ∧
           t.ctx.task = some { k with weight := k.weight - n * (k.weight / (n + 1)) } ∧ t.mem = s.mem ∧ t.kept = s.kept) ∧
     (k.dim2 = false → k.trig = false → 1 ≤ n → l.nx + n ≤ 65536 → k.cmpw = false ∨ 1 ≤ k.weight / (n + 1) →
       ∀ (pa : Nat) (tl : Tlb) (s1 : State), s.keptAt k.job.asid k.ljcb = none →
         s.translate k.job.asid k.job.root k.ljcb .write = (.ok pa tl, s1) → s1.layerOff pa = false →
         ∃ t, exec (.grow a) s = .next t ∧ t.ctx.regs.ra a = BitVec.ofNat 64 l.nx ∧
           (t.launchBy k.launch).map (·.nx) = some (l.nx + n) ∧
           t.memWord (pa + 8) = s1.memWord (pa + 8) + (if k.cmpw then 0 else BitVec.ofNat 64 n) ∧
           t.memWord (pa + 32) = BitVec.ofNat 64 (l.nx + n) ∧
           (∀ i, i < 8 → i ≠ 1 → i ≠ 4 → t.memWord (pa + 8 * i) = s1.memWord (pa + 8 * i)) ∧
           (∀ b, b < pa ∨ pa + 64 ≤ b → t.memByte b = s1.memByte b) ∧
           (∀ x : AReg, x ≠ a → t.ctx.regs.ra x = s.ctx.regs.ra x) ∧ t.kept = s.kept)))

/-- R312, R314, R315: BARA puts a release behind the context's accesses that will add a[A] to its barrier; BARW passes
once the count has reached a[A] and then acquires; FENCE waits for the accesses it orders, then acquires. At scope sys
it drops the clean UN lines (R98), but one that a tile fetch has pinned stays, the model's choice (log entry 62).
R209, R210: SHLD and SHST become plain requests of 32 bytes that bypass the L1, SHST with the four shadows as they
stand. In a handler SHLD notes its four shadows as written (R373). -/
def Obligations.BarriersFencesAndShapeBlocks : Prop :=
  ((∀ (h : BitVec 6) (a : AReg) (scope : Scope) (s : State), s.Clean [a] →
     ∃ (t : State) (q : Req), exec (.bara h a scope) s = .next t ∧ q.id = s.fresh ∧ q.ctx = s.cur ∧
       q.act = .arrive h (s.rd.ra a) ∧ q.ord = .release ∧ q.scope = scope ∧
       t = { s with reqs := s.reqs ++ [q], fresh := s.fresh + 1 }) ∧
   (∀ (h : BitVec 6) (a : AReg) (scope : Scope) (s : State), s.Clean [a] → scope ≠ .ctx →
     let cnt := s.bars.get 0 (64 * groupOf s.core.toNat + h.toNat)
     (0 ≤ (cnt - s.rd.ra a).toInt → exec (.barw h a scope) s = .next { s with l1 := [] }) ∧
     ((cnt - s.rd.ra a).toInt < 0 → exec (.barw h a scope) s = .next (s.wait .barrier))) ∧
   (∀ (ord : MemOrd) (scope : Scope) (s : State), ord ≠ .plain →
     let held : Prop := ∃ q ∈ s.reqs, q.ctx = s.cur ∧ (scope = .sys ∨ q.kind ≠ kindUN) ∧
       (ord ≠ .acquire ∨ q.act.isStore = false)
     (held → exec (.fence ord scope) s = .next (s.wait .engine)) ∧
     (¬ held → ∃ t, exec (.fence ord scope) s = .next t ∧ t = { s with l1 := t.l1, l2 := t.l2 } ∧
       t.l1 = (if ord = .release ∨ scope = .ctx then s.l1 else []) ∧
       (scope ≠ .sys → t.l2 = s.l2) ∧
       (scope = .sys → t.l2 = s.l2.filter (fun l => !l.un || l.dirty || l.pins != 0))))) ∧
  (∀ (c : ShapeClass) (a : GAddr) (hint : BitVec 2) (s s1 : State) (pa : Nat) (tl : Tlb), s.Clean a.areads →
     (∀ q ∈ s.reqs, q.ctx = s.cur → q.act ≠ .shadow c) → s.reqs.length < 1024 →
     (s.globReady (s.rd.addr a) 32 .read pa tl s1 → ∃ (t : State) (q : Req), exec (.shld c a hint) s = .next t ∧
       t = { s1 with ctx := s1.ctx.noteWrote (shapeSRs c true), reqs := s1.reqs ++ [q], fresh := s1.fresh + 1 } ∧
       q.id = s1.fresh ∧ q.ctx = s.cur ∧ q.act = .shadow c ∧ q.pa = pa ∧ q.width = 32 ∧ q.w = true ∧ q.ord = .plain ∧ q.hint = hint ∧ q.kind = tl.kind) ∧
     (s.globReady (s.rd.addr a) 32 .write pa tl s1 → ∃ (t : State) (q : Req) (v : Vec) (p : Bool),
       exec (.shst c a hint) s = .next t ∧
       t = { s1 with reqs := s1.reqs ++ [q], fresh := s1.fresh + 1,
                     ctx := { s1.ctx with task := s1.ctx.task.map (fun k => { k with seq := k.seq + 1 }) } } ∧
       q.id = s1.fresh ∧ q.ctx = s.cur ∧ q.act = .store v p ∧ q.pa = pa ∧ q.width = 32 ∧ q.ord = .plain ∧ q.hint = hint ∧
       ∀ i : Nat, i < 4 → BitVec.extractLsb' (64 * i) 64 v = (s.rd.shapes c).2.get 0 i))

/-- R107 to R111: CLRD delivers the data and its line joins the watch set with its version, up to four lines; a line
of another slice marks the set SPLIT, a fifth FULL, one without a free watch CAPACITY. A staging CMST pops its entry
into the staging buffer, a ninth marking it full; a commit performs every staged write where no watched line has
changed and gives OK, else writes nothing and gives the first status that applies, and clears the set; CMAB clears it.
That a line without a watch joins, the order of the statuses so far as R109 leaves it, and that all this happens at
issue are the model's readings (log entries 61 and 14). -/
def Obligations.WatchedCommits : Prop :=
  (∀ (d : AReg) (m : GMem) (s s1 : State) (pa : Nat) (tl : Tlb), s.Clean m.a.areads → m.ord = .plain →
    s.globReady (s.rd.addr m.a) 8 .read pa tl s1 → inHost pa = false → inJirum pa = false → s1.layerOff pa = false →
    s1.firstAt pa 8 tl.kind .plain → s1.memPoisoned pa 8 = false → s1.reqs.length < 1024 →
    let w := s.ctx.watch
    let inSet (l : Nat) : Prop := (∃ v, (l, v) ∈ w.lines) ∨ l ∈ w.bare
    let free : Prop := s1.watched (pa / 128) = true ∨ s1.watchesIn (s1.homeSlice pa) < 64
    ∃ t, exec (.clrd (.reg d) m) s = .next t ∧ (d ≠ 0 → t.ctx.regs.ra d = s1.memWord pa) ∧
      (∀ x : AReg, x ≠ d ∨ x = 0 → t.ctx.regs.ra x = s.ctx.regs.ra x) ∧ t.mem = s1.mem ∧
      (inSet (pa / 128) → t.ctx.watch = w) ∧
      (¬ inSet (pa / 128) → ∃ split : Bool,
        (split = true ↔ w.split = true ∨ ∃ l, inSet l ∧ s1.homeSlice (128 * l) ≠ s1.homeSlice pa) ∧
        (4 ≤ w.lines.length + w.bare.length → t.ctx.watch = { w with split := split, full := true }) ∧
        (w.lines.length + w.bare.length < 4 → free → t.ctx.watch =
          { w with split := split, lines := w.lines ++ [(pa / 128, s1.l2Version.get 0 (pa / 128))] }) ∧
        (w.lines.length + w.bare.length < 4 → ¬ free → t.ctx.watch =
          { w with split := split, capacity := true, bare := w.bare ++ [pa / 128] }))) ∧
  (∀ (q : OutQ) (m : GMem) (s s1 : State) (pa : Nat) (tl : Tlb) (e : QEntry) (r : List QEntry) (v : Vec),
    s.Clean m.a.areads → s.globReady (s.rd.addr m.a) 64 .write pa tl s1 → inHost pa = false → inJirum pa = false →
    s1.boundQ (OutQ.id q) = false → s.queue (OutQ.id q) = e :: r → e.val = some v → s1.layerOff pa = false →
    ∃ t, exec (.cmstStage q m) s = .next t ∧
      t = { s1 with ctx := { s1.ctx with queues := t.ctx.queues, watch := t.ctx.watch } } ∧ t.queue (OutQ.id q) = r ∧
      (∀ id, id ≠ OutQ.id q → t.queue id = s.queue id) ∧
      (s.ctx.watch.staged.length < 8 →
        t.ctx.watch = { s.ctx.watch with staged := s.ctx.watch.staged ++ [⟨pa, v, e.poison, tl.kind⟩] }) ∧
      (8 ≤ s.ctx.watch.staged.length → t.ctx.watch = { s.ctx.watch with full := true })) ∧
  (∀ (d : AReg) (scope : Scope) (s : State), (∀ q ∈ s.reqs, q.ctx ≠ s.cur) → s.reqs.length < 1024 →
    let w := s.ctx.watch
    let st : Word :=
      if w.lost then 2 else if w.split then 3 else if w.full then 4
      else if w.staged.any (fun x => !w.holds (x.pa / 128)) then 5
      else if w.lines = [] ∧ w.bare = [] then 6 else if w.capacity then 7
      else if w.lines.any (fun l => s.l2Version.get 0 l.1 != l.2) then 1 else 0
    (st ≠ 0 → ∃ t, exec (.cmstCommit d .plain scope) s = .next t ∧
      ({ s with ctx := { s.ctx with watch := Watch.zero } } : State).WroteA t d st false) ∧
    (st = 0 → s.cmpHeld = false → (∀ x ∈ w.staged, s.layerOff x.pa = false) →
      ∃ t, exec (.cmstCommit d .plain scope) s = .next t ∧ t.ctx.regs.ra d = 0 ∧ t.ctx.watch = Watch.zero ∧
        (∀ x : AReg, x ≠ d ∨ x = 0 → t.ctx.regs.ra x = s.ctx.regs.ra x) ∧
        (∀ x ∈ w.staged, (∀ y ∈ w.staged, y = x ∨ y.pa + 64 ≤ x.pa ∨ x.pa + 64 ≤ y.pa) →
          ∀ i, i < 64 → t.memByte (x.pa + i) = BitVec.extractLsb' (8 * i) 8 x.val) ∧
        ∀ a, (∀ x ∈ w.staged, a < x.pa ∨ x.pa + 64 ≤ a) → t.memByte a = s.memByte a)) ∧
  (∀ s : State, exec .cmab s = .next { s with ctx := { s.ctx with watch := Watch.zero } })

/-- R30, R42, R201, R224: a source is a register of the context's window, a transit latch, the head of an input queue,
the low 32 bits of a scalar in every lane or a whole scalar in every word, or an immediate, sign-extended or as FP32;
a slot with a register outside the window raises VRANGE, one with an empty input queue that no stream bound by an
earlier bundle feeds QEMPTY. R37 to R42, R203, R378: results due at the bundle where the X-half stands land, oldest
first, in latches that are the context's own: those its resume restores, or, after another job, latches of zeros. The
latches of the unit age by one place and t0 takes the unguarded value; guarded lanes of the register change and the
others stay; a predicate takes the mask of its guarded lanes, p0 nothing; a queue entry is filled with zeros in
unguarded lanes, and carries the result's poison (R379; that a poisoned result marks its entry as it does a register
is the model's reading, log entry 73). -/
def Obligations.ClusterOperandsAndLanding : Prop :=
  ((∀ (s : State) (cl : BitVec 3) (ty : OpTy) (n : Nat), n < 16 →
     (∀ r : BitVec 10, s.src cl ty (.reg r) = s.v.get 0 (640 * cl.toNat + (s.ctx.vbase + r.toNat))) ∧
     (∀ (pop : Bool) (q : BitVec 2) (e : QEntry) (l : List QEntry) (v : Vec), s.queue (6 * cl.toNat + q.toNat) = e :: l →
       e.val = some v → s.src cl ty (.queue pop q) = v) ∧
     (∀ a : AReg, (ty ≠ .word → lane (s.src cl ty (.scalar a)) n = (s.xrd.ra a).setWidth 32) ∧
       (ty = .word → n < 8 → word64 (s.src cl ty (.scalar a)) n = s.xrd.ra a)) ∧
     (∀ i : BitVec 8, (ty = .int → (lane (s.src cl ty (.imm i)) n).toInt = i.toInt) ∧
       (ty = .fp → lane (s.src cl ty (.imm i)) n = toF32 Prefix.default 0 (XVal.ofInt i.toInt)))) ∧
   (∀ (o : V1) (s : State) (r : BitVec 10), o.a = .reg r → s.ctx.vcnt ≤ r.toNat →
     exec (.mov o) s = .next (s.raise ⟨.vRange, true, 1 + o.h.cl.toNat, 0, 0⟩)) ∧
   (∀ (o : V1) (s : State) (pop : Bool) (q : BitVec 2), o.a = .queue pop q → (o.h.nw = true ∨ s.dstFree o.h (.vec o.d)) →
     s.queue (6 * o.h.cl.toNat + q.toNat) = [] →
     (∀ x, s.streamAt s.cur (6 * o.h.cl.toNat + q.toNat) = some x → s.ctx.xn ≤ x.bun) →
     exec (.mov o) s = .next (s.raise ⟨.qEmpty, true, 1 + o.h.cl.toNat, 0, 0⟩))) ∧
  ((∀ s : State, s.mayIssue = true → s.aFree = true → s.ctx.lag ≠ [] →
     exec .resultLanding s = .next (s.claim.landAt s.ctx.xn) ∧
     (s.ctx.latches = none → s.lastJob = some s.ctx.jobKey → s.claim = s) ∧
     (s.ctx.latches = none → s.lastJob ≠ some s.ctx.jobKey → s.claim.latch = [] ∧ s.claim.lastJob = some s.ctx.jobKey ∧
       s.claim.ctx = s.ctx ∧ s.claim.v = s.v ∧ s.claim.mem = s.mem) ∧
     (∀ l, s.ctx.latches = some l → s.claim.latch = l.vals ∧ s.claim.ctx = { s.ctx with latches := none } ∧ s.claim.v = s.v ∧
       s.claim.mem = s.mem)) ∧
   (∀ (s : State) (m : Nat), (s.landAt m).ctx.flight = s.ctx.flight.filter (fun f => m < f.due) ∧
     ((∀ f ∈ s.ctx.flight, m < f.due) → s.landAt m = s)) ∧
   (∀ (s : State) (f : Flight), s.mayIssue = true → s.aFree = true → s.ctx.lag ≠ [] → s.ctx.latches = none →
     s.lastJob = some s.ctx.jobKey → s.ctx.flight = [f] → f.due ≤ s.ctx.xn →
     ∃ t, exec .resultLanding s = .next t ∧ t.ctx.flight = [] ∧ t.ctx.lag = s.ctx.lag ∧
       t.ctx.regs = s.ctx.regs ∧ t.mem = s.mem ∧
       t.src f.cl .int (.latch f.unit 0) = f.val ∧
       (∀ k : BitVec 2, k ≠ 3 → t.src f.cl .int (.latch f.unit (k + 1)) = s.src f.cl .int (.latch f.unit k)) ∧
       (∀ (u : VUnit) (k : BitVec 2), u ≠ f.unit → t.src f.cl .int (.latch u k) = s.src f.cl .int (.latch u k)) ∧
       (∀ n, f.dst = .reg n → t.ctx.p = s.ctx.p ∧ (∀ id, t.queue id = s.queue id) ∧
         (∀ i, i < 16 → lane (t.v.get 0 (640 * f.cl.toNat + (s.ctx.vbase + n))) i =
           if f.guard.getLsbD i then lane f.val i else lane (s.v.get 0 (640 * f.cl.toNat + (s.ctx.vbase + n))) i) ∧
         ∀ k, k ≠ 640 * f.cl.toNat + (s.ctx.vbase + n) → t.v.get 0 k = s.v.get 0 k) ∧
       (∀ n, f.dst = .pred n → n < 16 → t.v = s.v ∧
         ∀ (cl : BitVec 3) (j i : Nat), j < 16 → i < 16 →
         (t.ctx.pred cl j).getLsbD i = if cl = f.cl ∧ j = n ∧ n ≠ 0 ∧ f.guard.getLsbD i = true then decide (lane f.val i ≠ 0)
           else (s.ctx.pred cl j).getLsbD i) ∧
       (∀ id tick, f.dst = .queue id tick → t.v = s.v ∧ t.ctx.p = s.ctx.p ∧ (∀ j, j ≠ id → t.queue j = s.queue j) ∧
         ∃ v : Vec, t.queue id = (s.queue id).map (fun e => if e.tick = tick then { e with val := some v, poison := f.poison } else e) ∧
           (id < 48 → ∀ i, i < 16 → lane v i = if f.guard.getLsbD i then lane f.val i else 0))) ∧
   (∀ s : State, s.mayIssue = false ∨ s.aFree = false ∨ s.ctx.lag = [] → exec .resultLanding s = .next s))

/-- R230: integer arithmetic lane by lane, with the overflow handling of each. R230 to R232: bit operations lane by
lane. R230, R231: products lane by lane, and four-byte dot products. -/
def Obligations.IntegerLanes : Prop :=
  (∀ (o : V2) (p : V1) (s : State),
     let lo : Int := -2147483648
     let hi : Int := 2147483647
     s.Map2 (.iadd o) o .ia 1 .int (fun a b => s.satLane lo hi (a.toInt + b.toInt)) ∧
     s.Map2 (.isub o) o .ia 1 .int (fun a b => s.satLane lo hi (a.toInt - b.toInt)) ∧
     s.Map2 (.imin o) o .ia 1 .int (fun a b => if a.toInt ≤ b.toInt then a else b) ∧
     s.Map2 (.imax o) o .ia 1 .int (fun a b => if a.toInt ≤ b.toInt then b else a) ∧
     s.Map2 (.vWmin o) o .ia 1 .int (fun a b => if a.toNat ≤ b.toNat then a else b) ∧
     s.Map2 (.vWmax o) o .ia 1 .int (fun a b => if a.toNat ≤ b.toNat then b else a) ∧
     s.Map1 (.iabs p) p .ia 1 .int (fun a => s.satLane lo hi (if a.toInt < 0 then -a.toInt else a.toInt)) ∧
     s.Map2 (.iadds o) o .ia 1 .int (fun a b => clampLane lo hi (a.toInt + b.toInt)) ∧
     s.Map2 (.isubs o) o .ia 1 .int (fun a b => clampLane lo hi (a.toInt - b.toInt)) ∧
     s.Map2 (.wadds o) o .ia 1 .int (fun a b => clampLane 0 4294967295 ((a.toNat : Int) + b.toNat)) ∧
     s.Map2 (.wsubs o) o .ia 1 .int (fun a b => clampLane 0 4294967295 ((a.toNat : Int) - b.toNat))) ∧
  (∀ (o : V2) (p : V1) (q : V3) (s : State),
     s.Map2 (.vAnd o) o .ia 1 .int (fun a b => BitVec.ofNat 32 (a.toNat &&& b.toNat)) ∧
     s.Map2 (.vOr o) o .ia 1 .int (fun a b => BitVec.ofNat 32 (a.toNat ||| b.toNat)) ∧
     s.Map2 (.vXor o) o .ia 1 .int (fun a b => BitVec.ofNat 32 (a.toNat ^^^ b.toNat)) ∧
     s.Map2 (.andn o) o .ia 1 .int (fun a b => BitVec.ofNat 32 (a.toNat &&& (4294967295 - b.toNat))) ∧
     s.Map2 (.vShl o) o .ia 1 .int (fun a b => BitVec.ofNat 32 (a.toNat * 2 ^ (b.toNat % 32))) ∧
     s.Map2 (.vShr o) o .ia 1 .int (fun a b => BitVec.ofNat 32 (a.toNat / 2 ^ (b.toNat % 32))) ∧
     s.Map2 (.vSra o) o .ia 1 .int (fun a b => BitVec.ofInt 32 (a.toInt / 2 ^ (b.toNat % 32))) ∧
     s.Map2 (.rol o) o .ia 1 .int (fun a b =>
       BitVec.ofNat 32 (a.toNat * 2 ^ (b.toNat % 32) % 2 ^ 32 + a.toNat / 2 ^ (32 - b.toNat % 32))) ∧
     s.Map1 (.vPopc p) p .ia 1 .int (fun a => BitVec.ofNat 32 ((List.range 32).countP (fun i => a.getLsbD i))) ∧
     s.VSlot (.vClz p) p.h (.vec p.d) [p.a] .ia 1 (s.guard p.h) (fun v => ∀ n, n < 16 →
       let a := lane (s.src p.h.cl .int p.a) n
       (lane v n).toNat ≤ 32 ∧ a.toNat < 2 ^ (32 - (lane v n).toNat) ∧
         ((lane v n).toNat < 32 → 2 ^ (31 - (lane v n).toNat) ≤ a.toNat)) ∧
     s.Map3 (.sel q) q .ia 1 .int (fun a b c => if c.toNat = 0 then b else a) ∧
     s.Map1 (.mov p) p .ia 1 .int (fun a => a) ∧
     s.Map2 (.vBfx o) o .ia 1 .int (fun a b =>
       BitVec.ofNat 32 (a.toNat / 2 ^ (b.toNat % 32) % 2 ^ min (b.toNat / 256 % 64) 32)) ∧
     s.VSlot (.vBfi q) q.h (.vec q.d) [q.a, q.b, q.c] .ia 1 (s.guard q.h) (fun v => ∀ n, n < 16 → ∀ i, i < 32 →
       let c := lane (s.src q.h.cl .int q.c) n
       (lane v n).getLsbD i =
         if c.toNat % 32 ≤ i ∧ i < c.toNat % 32 + c.toNat / 256 % 64 then
           (lane (s.src q.h.cl .int q.a) n).getLsbD (i - c.toNat % 32)
         else (lane (s.src q.h.cl .int q.b) n).getLsbD i)) ∧
  (∀ (o : V2) (q : V3) (s : State),
     let sb (a : Lane) (i : Nat) : Int := (BitVec.extractLsb' (8 * i) 8 a).toInt
     let ub (a : Lane) (i : Nat) : Int := (BitVec.extractLsb' (8 * i) 8 a).toNat
     s.Map2 (.imul o) o .fm 3 .int (fun a b => s.satLane (-2147483648) 2147483647 (a.toInt * b.toInt)) ∧
     s.Map2 (.imulh o) o .fm 3 .int (fun a b => BitVec.ofInt 32 ((a.toInt * b.toInt) / 4294967296)) ∧
     s.Map2 (.wmulh o) o .fm 3 .int (fun a b => BitVec.ofNat 32 (a.toNat * b.toNat / 4294967296)) ∧
     s.Map3 (.vdot4 false q) q .fm 3 .int (fun a b c => s.satLane (-2147483648) 2147483647
       (c.toInt + sb a 0 * sb b 0 + sb a 1 * sb b 1 + sb a 2 * sb b 2 + sb a 3 * sb b 3)) ∧
     s.Map3 (.vdot4 true q) q .fm 3 .int (fun a b c => s.satLane 0 4294967295
       (c.toNat + ub a 0 * ub b 0 + ub a 1 * ub b 1 + ub a 2 * ub b 2 + ub a 3 * ub b 3)))

/-- R233 to R235: compares and predicate operations land masks that set the predicate; PANY and PCNT look at the 128
lanes of the core. R236, R237: lane permutations, broadcasts and rotations within a cluster, and reads of a register
or latch of any cluster of the context. -/
def Obligations.PredicatesAndLaneMoves : Prop :=
  (∀ (h : VHd) (d pa pb : BitVec 4) (a b : VSrc) (vd : VDst) (s : State),
     let mask (t : Bool) : Lane := if t then 0xFFFFFFFF else 0
     let A (ty : OpTy) (n : Nat) := lane (s.src h.cl ty a) n
     let B (ty : OpTy) (n : Nat) := lane (s.src h.cl ty b) n
     let cmp (c : CmpOp) (t : Nat → Bool) : Prop :=
       s.VSlot (.laneCompare c h d a b) h (.pred d) [a, b] .ia 1 (s.guard h) (fun v => ∀ n, n < 16 → lane v n = mask (t n))
     let p (cl : BitVec 3) (i : BitVec 4) (n : Nat) : Bool := (s.ctx.pred cl i.toNat).getLsbD n
     let logic (i : Instr) (t : Nat → Bool) : Prop :=
       s.VSlot i h (.pred d) [] .ia 1 (s.guard h) (fun v => ∀ n, n < 16 → lane v n = mask (t n))
     let ones : Nat := (List.range 128).countP (fun n => p (BitVec.ofNat 3 (n / 16)) pa (n % 16))
     cmp .eq (fun n => decide (A .int n = B .int n)) ∧ cmp .ne (fun n => decide (A .int n ≠ B .int n)) ∧
     cmp .ilt (fun n => decide ((A .int n).toInt < (B .int n).toInt)) ∧
     cmp .ile (fun n => decide ((A .int n).toInt ≤ (B .int n).toInt)) ∧
     cmp .wlt (fun n => decide ((A .int n).toNat < (B .int n).toNat)) ∧
     cmp .wle (fun n => decide ((A .int n).toNat ≤ (B .int n).toNat)) ∧
     cmp .feq (fun n => fveq (f32 (A .fp n)) (f32 (B .fp n))) ∧ cmp .flt (fun n => fvlt (f32 (A .fp n)) (f32 (B .fp n))) ∧
     cmp .fle (fun n => fvlt (f32 (A .fp n)) (f32 (B .fp n)) || fveq (f32 (A .fp n)) (f32 (B .fp n))) ∧
     cmp .funord (fun n => decide (f32 (A .fp n) = .nan ∨ f32 (B .fp n) = .nan)) ∧
     logic (.pand ⟨h, d, pa, pb⟩) (fun n => p h.cl pa n && p h.cl pb n) ∧
     logic (.por ⟨h, d, pa, pb⟩) (fun n => p h.cl pa n || p h.cl pb n) ∧
     logic (.pxor ⟨h, d, pa, pb⟩) (fun n => p h.cl pa n != p h.cl pb n) ∧
     logic (.pnot h d pa) (fun n => !p h.cl pa n) ∧ logic (.pany h d pa) (fun _ => decide (ones ≠ 0)) ∧
     s.VSlot (.pcnt h vd pa) h (.vec vd) [] .ia 1 (s.guard h) (fun v => ∀ n, n < 16 → lane v n = BitVec.ofNat 32 ones)) ∧
  ((∀ (o : V2) (s : State),
     let A := lane (s.src o.h.cl .int o.a)
     let B := lane (s.src o.h.cl .int o.b)
     let moves (i : Instr) (k : Nat → Nat) : Prop := s.VSlot i o.h (.vec o.d) [o.a, o.b] .xm 2 (s.guard o.h)
       (fun v => ∀ n, n < 16 → lane v n = A (k n))
     moves (.lperm o) (fun n => (B n).toNat % 16) ∧ moves (.lbc o) (fun _ => (B 0).toNat % 16) ∧
     moves (.lrot o) (fun n => (n + (B 0).toNat) % 16)) ∧
   (∀ (h : VHd) (d : VDst) (sc : BitVec 3) (ln : BitVec 4) (s : State),
     (h.nw = true ∨ s.dstFree h (.vec d)) →
     (∀ r : BitVec 10, s.srcThere sc (.reg r) →
       let a := s.v.get 0 (640 * sc.toNat + (s.ctx.vbase + r.toNat))
       (∃ t, exec (.xmv h d (.reg r) sc) s = .next t ∧ s.IssuedV t h (.vec d) [] .xm 3 (s.guard h) a s.ctx.qctl) ∧
       (∃ (t : State) (v : Vec), exec (.xbc h d (.reg r) sc ln) s = .next t ∧ s.IssuedV t h (.vec d) [] .xm 4 (s.guard h) v s.ctx.qctl ∧
         ∀ n, n < 16 → lane v n = lane a ln.toNat)) ∧
     (∀ (u : VUnit) (p : BitVec 2), s.srcThere sc (.latch u p) →
       let a := s.src sc .int (.latch u p)
       (∃ t, exec (.xmv h d (.latch u p) sc) s = .next t ∧ s.IssuedV t h (.vec d) [] .xm 3 (s.guard h) a s.ctx.qctl) ∧
       (∃ (t : State) (v : Vec), exec (.xbc h d (.latch u p) sc ln) s = .next t ∧ s.IssuedV t h (.vec d) [] .xm 4 (s.guard h) v s.ctx.qctl ∧
         ∀ n, n < 16 → lane v n = lane a ln.toNat))))

/-- R220, R225 to R227: conversions between FP32 and integers round under the prefix with the lane's draw, an infinite
or out-of-range value clamps or wraps and NaN gives 0; widening conversions are exact; a narrowing conversion replaces
one part of a copy of its merge source. R228, R229: QNT.e2m1b of a block with a NaN or an infinity is a NaN block, and
of zeros one special zero; its codes lie in lanes 0 to 3, its header in lane 4, zeros above. Any other block has the
smallest scale of at least −127 under which no element passes 6, the code to which each scaled element rounds, no
negative zero, and as its special the first element of the greatest error, rounded to E4M3 into the header. DQNT.e2m1b
decodes half a block under the header its selector names; code 8 is the header's special (R214, R215). -/
def Obligations.LaneConversions : Prop :=
  ((∀ (o : V1) (s : State),
     let A (ty : OpTy) := lane (s.src o.h.cl ty o.a)
     let cvt (c : CvtOp) (f : Nat → Lane) : Prop := s.VSlot (.cvt c o) o.h (.vec o.d) [o.a] .fm 2 (s.guard o.h)
       (fun v => ∀ n, n < 16 → lane v n = f n)
     let toInt (lo hi : Int) (n : Nat) (x : FVal) : Lane := match x with
       | .nan => 0
       | .inf neg => BitVec.ofInt 32 (if neg then lo else hi)
       | x => s.satLane lo hi (roundInt s.ctx.xpfx.rm (s.laneDraw o.h n) x.toX)
     cvt .f32i32 (fun n => toF32 s.ctx.xpfx (s.laneDraw o.h n) (XVal.ofInt (A .int n).toInt)) ∧
     cvt .f32w32 (fun n => toF32 s.ctx.xpfx (s.laneDraw o.h n) (XVal.ofInt (A .int n).toNat)) ∧
     cvt .i32f32 (fun n => toInt (-2147483648) 2147483647 n (f32 (A .fp n))) ∧
     cvt .w32f32 (fun n => toInt 0 4294967295 n (f32 (A .fp n)))) ∧
   (∀ (o : V1) (s : State) (part : BitVec 2),
     let a := s.src o.h.cl .int o.a
     let wide (f : NarrowFmt) (g : Nat → Lane) : Prop := s.VSlot (.cvtWiden f o part) o.h (.vec o.d) [o.a] .fm 2
       (s.guard o.h) (fun v => ∀ n, n < 16 → lane v n = g (16 * part.toNat + n))
     let x16 (n : Nat) : Nat := (BitVec.extractLsb' (16 * n) 16 a).toNat
     let x8 (n : Nat) : Nat := (BitVec.extractLsb' (8 * n) 8 a).toNat
     let exact (x : FVal) : Lane := toF32 ⟨.rne, .ieee, s.ctx.xpfx.nz⟩ 0 x.toX
     wide .bf16 (fun n => exact (bf16.decode (x16 n))) ∧ wide .f16 (fun n => exact (fp16.decode (x16 n))) ∧
     wide .e4m3 (fun n => exact (e4m3.decode (x8 n))) ∧ wide .e5m2 (fun n => exact (e5m2.decode (x8 n))) ∧
     s.VSlot (.cvtWiden .i8 o part) o.h (.vec o.d) [o.a] .fm 2 (s.guard o.h) (fun v => ∀ n, n < 16 →
       (lane v n).toInt = (BitVec.extractLsb' (8 * (16 * part.toNat + n)) 8 a).toInt)) ∧
   (∀ (h : VHd) (d : VDst) (a c : VSrc) (part : BitVec 2) (s : State),
     let draw (n : Nat) := s.laneDraw h (n - 16 * part.toNat)
     let src (ty : OpTy) (n : Nat) := lane (s.src h.cl ty a) (n - 16 * part.toNat)
     let put (f : NarrowFmt) (w : Nat) (g : Nat → Nat) : Prop :=
       s.VSlot (.cvtNarrow f h d a c part) h (.vec d) [a, c] .fm 2 (s.guard h) (fun v => ∀ n, n < 512 / w →
         (BitVec.extractLsb' (w * n) w v).toNat =
           if n / 16 = part.toNat then g n else (BitVec.extractLsb' (w * n) w (s.src h.cl .int c)).toNat)
     put .bf16 16 (fun n => bf16.encode s.ctx.xpfx (draw n) (f32 (src .fp n)).toX) ∧
     put .f16 16 (fun n => fp16.encode s.ctx.xpfx (draw n) (f32 (src .fp n)).toX) ∧
     put .e4m3 8 (fun n => e4m3.encode s.ctx.xpfx (draw n) (f32 (src .fp n)).toX) ∧
     put .e5m2 8 (fun n => e5m2.encode s.ctx.xpfx (draw n) (f32 (src .fp n)).toX) ∧
     put .i8 8 (fun n => (BitVec.ofInt 8 (if s.ctx.xpfx.sat = .wrap then (src .int n).toInt
       else max (-128) (min 127 (src .int n).toInt))).toNat))) ∧
  ((∀ (o : V2) (s : State),
     let x (e : Nat) : Lane := if e < 16 then lane (s.src o.h.cl .fp o.a) e else lane (s.src o.h.cl .fp o.b) (e - 16)
     s.VSlot (.qntE2m1b o) o.h (.vec o.d) [o.a, o.b] .fm 2 (s.guard o.h) (fun v =>
       (∀ n, 5 ≤ n → n < 16 → lane v n = 0) ∧ (lane v 4).toNat < 2 ^ 16 ∧
       ((∃ e, e < 32 ∧ ∀ n m i, f32 (x e) ≠ .fin n m i) → lane v 0 = 0 ∧ lane v 1 = 0 ∧ lane v 2 = 0 ∧ lane v 3 = 0 ∧
         lane v 4 = 0x7FFF) ∧
       ((∀ e, e < 32 → x e = 0) → lane v 0 = 8 ∧ lane v 1 = 0 ∧ lane v 2 = 0 ∧ lane v 3 = 0 ∧ lane v 4 = 0) ∧
       (∀ X : Nat → Frac, (∀ e, e < 32 → (f32 (x e)).toFrac = some (X e)) → (∃ e, e < 32 ∧ (X e).n ≠ 0) →
         let fits (e : Nat) (t : Int) : Prop := (X e).n * 2 ^ (-t).toNat ≤ 6 * 2 ^ t.toNat * (X e).d
         let draw (e : Nat) : Nat := if e < 16 then s.draw (16 * o.h.cl.toNat + e) else s.draw (128 + 16 * o.h.cl.toNat + (e - 16))
         ∃ (t : Int) (k : Nat), -127 ≤ t ∧ (∀ e, e < 32 → fits e t) ∧ (t = -127 ∨ ∃ e, e < 32 ∧ ¬ fits e (t - 1)) ∧ k < 32 ∧
           let y (e : Nat) : Frac := (X e).scaled2 t
           let q (e : Nat) : Nat := roundCode s.ctx.xpfx.rm (draw e) (y e)
           (∀ e, e < 32 → (codeErr (y e) (q e)).leMag (codeErr (y k) (q k)) = true) ∧
           (∀ e, e < k → (codeErr (y k) (q k)).leMag (codeErr (y e) (q e)) = false) ∧
           (∀ e, e < 32 → (lane v (e / 8)).toNat / 16 ^ (e % 8) % 16 =
             if e = k then 8 else if q e = 0 then 0 else q e + (if (X e).neg then 8 else 0)) ∧
           (lane v 4).toNat = (t + 127).toNat + 256 * e4m3.encode ⟨s.ctx.xpfx.rm, .ieee, false⟩ (s.draw (256 + o.h.cl.toNat))
             (if (X k).n = 0 then .zero (X k).neg else .mag (X k).neg (.rat (y k).n (2 * (y k).d)))))) ∧
   (∀ (rm : RM) (d : Nat) (y : Frac), 0 < y.d → y.n ≤ 12 * y.d →
     let q := roundCode rm d y
     let mag2 : List Nat := [0, 1, 2, 3, 4, 6, 8, 12]
     q < 8 ∧ (∀ c, c < 8 → mag2.getD c 0 * y.d = y.n → q = c) ∧
     (rm = .rne → ∀ c, c < 8 →
       ((y.n : Int) - mag2.getD q 0 * y.d).natAbs ≤ ((y.n : Int) - mag2.getD c 0 * y.d).natAbs ∧
       (((y.n : Int) - mag2.getD q 0 * y.d).natAbs = ((y.n : Int) - mag2.getD c 0 * y.d).natAbs → c ≠ q → q % 2 = 0)) ∧
     (rm = .rtz → mag2.getD q 0 * y.d ≤ y.n ∧ ∀ c, c < 8 → mag2.getD c 0 * y.d ≤ y.n → c ≤ q)) ∧
   (∀ (o : V2) (sel : BitVec 6) (s : State),
     let a := s.src o.h.cl .int o.a
     let hdr := (BitVec.extractLsb' (16 * (4 * (sel.toNat / 8) + sel.toNat / 2 % 4)) 16 (s.src o.h.cl .int o.b)).toNat
     s.VSlot (.dqntE2m1b o sel) o.h (.vec o.d) [o.a, o.b] .fm 2 (s.guard o.h) (fun v => ∀ n, n < 16 →
       lane v n = toF32 s.ctx.xpfx (s.laneDraw o.h n) (dequant (BitVec.extractLsb'
         (128 * (sel.toNat / 2 % 4) + 4 * (16 * (sel.toNat % 2) + n)) 4 a).toNat hdr).toX)) ∧
   (∀ code hdr : Nat, code < 16 → hdr < 65536 →
     (hdr % 256 = 255 → dequant code hdr = .nan) ∧
     (hdr % 256 ≠ 255 → code ≠ 8 → ∃ m : Nat, [0, 1, 2, 3, 4, 6, 8, 12][code % 8]? = some m ∧
       dequant code hdr = .fin (decide (8 ≤ code)) m ((hdr % 256 : Nat) - 128)) ∧
     (hdr % 256 ≠ 255 →
       let E := hdr / 2048 % 16
       let M := hdr / 256 % 8
       (E = 15 → M = 7 → dequant 8 hdr = .nan) ∧
       (¬ (E = 15 ∧ M = 7) → dequant 8 hdr = .fin (decide (32768 ≤ hdr)) (if E = 0 then M else 8 + M)
         ((if E = 0 then -9 else (E : Int) - 10) + (hdr % 256 : Nat) - 127)))))

/-- R238 to R242: floating-point arithmetic is one exact operation on the decoded lanes, rounded once under the
bundle's prefix with the lane's draw; a NaN operand gives the canonical NaN. R219, R220, R240: the sum and the product
that arithmetic rounds are exact, and one rounding takes a positive magnitude a/b to a neighbour among the values of
FP32: under RNE the nearer, or of two as near the one whose lowest bit is 0; under RTZ, and under RDN or RUP towards
zero, the greatest that is no larger in magnitude, and away from zero the least that is no smaller. Past the largest
finite value by half a step RNE gives infinity. R243 to R245: selections and sign operations change no bit of the lane
they pass on, a NaN gives way to the other operand or becomes canonical, −0 counts below +0, and FCLASS sets one bit.
-/
def Obligations.FloatingPointLanes : Prop :=
  ((∀ (o : V2) (s : State),
     let f2 (i : Instr) (u : VUnit) (lat : Nat) (x : FVal → FVal → XVal) : Prop :=
       s.VSlot i o.h (.vec o.d) [o.a, o.b] u lat (s.guard o.h) (fun v => ∀ n, n < 16 → lane v n =
         toF32 s.ctx.xpfx (s.laneDraw o.h n)
           (x (f32 (lane (s.src o.h.cl .fp o.a) n)) (f32 (lane (s.src o.h.cl .fp o.b) n))))
     f2 (.fadd o) .fm 4 (xadd s.ctx.xpfx.rm) ∧ f2 (.fsub o) .fm 4 (fun a b => xadd s.ctx.xpfx.rm a b.neg) ∧
     f2 (.fmul o) .fm 4 (fun a b => (fvmul a b).toX) ∧ f2 (.fdiv o) .sf 14 xdiv) ∧
   (∀ (o : V3) (s : State),
     let f3 (i : Instr) (x : FVal → FVal → FVal → XVal) : Prop :=
       s.VSlot i o.h (.vec o.d) [o.a, o.b, o.c] .fm 4 (s.guard o.h) (fun v => ∀ n, n < 16 → lane v n =
         toF32 s.ctx.xpfx (s.laneDraw o.h n) (x (f32 (lane (s.src o.h.cl .fp o.a) n))
           (f32 (lane (s.src o.h.cl .fp o.b) n)) (f32 (lane (s.src o.h.cl .fp o.c) n))))
     f3 (.ffma o) (fun a b c => xadd s.ctx.xpfx.rm (fvmul a b) c) ∧
     f3 (.ffms o) (fun a b c => xadd s.ctx.xpfx.rm (fvmul a b) c.neg) ∧
     f3 (.fnma o) (fun a b c => xadd s.ctx.xpfx.rm (fvmul a b).neg c)) ∧
   (∀ (o : V1) (s : State), s.VSlot (.fsqrt o) o.h (.vec o.d) [o.a] .sf 14 (s.guard o.h) (fun v => ∀ n, n < 16 →
     lane v n = toF32 s.ctx.xpfx (s.laneDraw o.h n) (xsqrt (f32 (lane (s.src o.h.cl .fp o.a) n))))) ∧
   (∀ (rm : RM) (x y : FVal) (p : Prefix) (d : Nat),
     toF32 p d .nan = 0x7FC00000 ∧ xadd rm .nan y = .nan ∧ xadd rm x .nan = .nan ∧ fvmul .nan y = .nan ∧
     fvmul x .nan = .nan ∧ xdiv .nan y = .nan ∧ xdiv x .nan = .nan ∧ xsqrt .nan = .nan ∧
     (∀ n : Bool, xadd rm (.inf n) (.inf !n) = .nan) ∧
     (∀ (n m : Bool) (e : Int), fvmul (.inf n) (.fin m 0 e) = .nan ∧ fvmul (.fin m 0 e) (.inf n) = .nan) ∧
     (∀ (n m : Bool) (e f : Int), xdiv (.fin n 0 e) (.fin m 0 f) = .nan) ∧
     (∀ n m : Bool, xdiv (.inf n) (.inf m) = .nan) ∧
     (∀ (k : Nat) (e : Int), 1 ≤ k → xsqrt (.fin true k e) = .nan))) ∧
  ((∀ (rm : RM) (n1 n2 : Bool) (m1 m2 : Nat) (e1 e2 : Int),
     let e := min e1 e2
     let i : Int := (if n1 then -(m1 : Int) else m1) * 2 ^ (e1 - e).toNat + (if n2 then -(m2 : Int) else m2) * 2 ^ (e2 - e).toNat
     (i ≠ 0 → xadd rm (.fin n1 m1 e1) (.fin n2 m2 e2) = .mag (decide (i < 0)) (.dyadic i.natAbs e)) ∧
     (i = 0 → xadd rm (.fin n1 m1 e1) (.fin n2 m2 e2) =
       .zero (if m1 = 0 ∧ m2 = 0 ∧ n1 = n2 then n1 else decide (rm = .rdn))) ∧
     fvmul (.fin n1 m1 e1) (.fin n2 m2 e2) = .fin (n1 != n2) (m1 * m2) (e1 + e2)) ∧
   (∀ (m : Nat) (e : Int), 1 ≤ m → Mag.dyadic m e = .rat (m * 2 ^ e.toNat) (2 ^ (-e).toNat)) ∧
   (∀ (rm : RM) (n : Bool) (a b d : Nat), 1 ≤ a → 1 ≤ b →
     -- finite magnitudes as multiples of 2^−149
     let steps (q : Nat) (u : Int) : Nat := q * 2 ^ (u + 149).toNat
     let r : Lane := toF32 ⟨rm, .ieee, false⟩ d (.mag n (.rat a b))
     let x : Nat := a * 2 ^ 149
     let down : Prop := rm = .rtz ∨ (rm = .rdn ∧ n = false) ∨ (rm = .rup ∧ n = true)
     let up : Prop := (rm = .rdn ∧ n = true) ∨ (rm = .rup ∧ n = false)
     (rm = .rne → x < (2 ^ 25 - 1) * 2 ^ 252 * b → ∃ (q : Nat) (u : Int), f32 r = .fin n q u ∧
       ∀ (w : Lane) (m : Bool) (p : Nat) (v : Int), f32 w = .fin m p v →
         ((x : Int) - steps q u * b).natAbs ≤ ((x : Int) - steps p v * b).natAbs ∧
         (((x : Int) - steps q u * b).natAbs = ((x : Int) - steps p v * b).natAbs → steps q u ≠ steps p v →
           r.getLsbD 0 = false)) ∧
     (rm = .rne → (2 ^ 25 - 1) * 2 ^ 252 * b ≤ x → f32 r = .inf n) ∧
     (down → ∃ (q : Nat) (u : Int), f32 r = .fin n q u ∧ steps q u * b ≤ x ∧
       ∀ (w : Lane) (m : Bool) (p : Nat) (v : Int), f32 w = .fin m p v → steps p v * b ≤ x → steps p v ≤ steps q u) ∧
     (up → x ≤ (2 ^ 24 - 1) * 2 ^ 253 * b → ∃ (q : Nat) (u : Int), f32 r = .fin n q u ∧ x ≤ steps q u * b ∧
       ∀ (w : Lane) (m : Bool) (p : Nat) (v : Int), f32 w = .fin m p v → x ≤ steps p v * b → steps q u ≤ steps p v) ∧
     (up → (2 ^ 24 - 1) * 2 ^ 253 * b < x → f32 r = .inf n))) ∧
  (∀ (o : V2) (p : V1) (s : State),
     let minmax (max : Bool) (i : Instr) : Prop :=
       s.VSlot i o.h (.vec o.d) [o.a, o.b] .ia 1 (s.guard o.h) (fun v => ∀ n, n < 16 →
         let a := lane (s.src o.h.cl .fp o.a) n
         let b := lane (s.src o.h.cl .fp o.b) n
         (f32 a = .nan → f32 b = .nan → lane v n = 0x7FC00000) ∧ (f32 a = .nan → f32 b ≠ .nan → lane v n = b) ∧
         (f32 a ≠ .nan → f32 b = .nan → lane v n = a) ∧
         (fvlt (f32 a) (f32 b) = true → lane v n = if max then b else a) ∧
         (fvlt (f32 b) (f32 a) = true → lane v n = if max then a else b) ∧
         (a = 0 → b = 0x80000000 → lane v n = if max then a else b) ∧
         (a = 0x80000000 → b = 0 → lane v n = if max then b else a))
     minmax false (.fmin o) ∧ minmax true (.fmax o) ∧
     s.Map1 (.fabs p) p .ia 1 .fp (fun a => if f32 a = .nan then 0x7FC00000 else BitVec.ofNat 32 (a.toNat % 2 ^ 31)) ∧
     s.Map1 (.fneg p) p .ia 1 .fp (fun a =>
       if f32 a = .nan then 0x7FC00000 else BitVec.ofNat 32 (a.toNat + 2 ^ 31)) ∧
     s.Map2 (.fcps o) o .ia 1 .fp (fun a b =>
       if f32 a = .nan then 0x7FC00000 else BitVec.ofNat 32 (a.toNat % 2 ^ 31 + b.toNat / 2 ^ 31 * 2 ^ 31)) ∧
     s.Map1 (.fclass p) p .ia 1 .fp (fun a =>
       let m := a.toNat % 2 ^ 31
       let neg := decide (2 ^ 31 ≤ a.toNat)
       if 0x7F800000 < m then 0x100 else if m = 0x7F800000 then (if neg then 1 else 0x80)
       else if m = 0 then (if neg then 8 else 0x10) else if m < 0x800000 then (if neg then 4 else 0x20)
       else if neg then 2 else 0x40))

/-- R246: VRED combines lanes pairwise in a fixed tree and gives every lane the same result; VRED.iadd is the exact
sum, clamped whatever SAT says. R247, R248: a special function takes the nearest FP32 value whatever RM says, under
SAT and NZ; the 16-bit forms round 32 elements under the prefix with RSR as RNE. Special arguments as tabled. The
values themselves are the model's own computation to about a thousand places (log entry 10). -/
def Obligations.ReductionsAndSpecialFunctions : Prop :=
  (∀ (o : V1) (s : State),
     let red (r : RedOp) (ty : OpTy) (P : (Nat → Lane) → Lane → Prop) : Prop :=
       s.VSlot (.vred r o) o.h (.vec o.d) [o.a] .xm 6 (s.guard o.h) (fun v =>
         ∃ x, P (lane (s.src o.h.cl ty o.a)) x ∧ ∀ n, n < 16 → lane v n = x)
     let tree (f : Lane → Lane → Lane) (a : Nat → Lane) : Lane :=
       let s1 (i : Nat) := f (a (2 * i)) (a (2 * i + 1))
       let s2 (i : Nat) := f (s1 (2 * i)) (s1 (2 * i + 1))
       f (f (s2 0) (s2 1)) (f (s2 2) (s2 3))
     let rm := s.ctx.xpfx.noRsr.rm
     red .fadd .fp (fun a x => x = toF32 ⟨rm, s.ctx.xpfx.sat, s.ctx.xpfx.nz⟩ 0
       (f32 (tree (fun u w => toF32 ⟨rm, .ieee, false⟩ 0 (xadd rm (f32 u) (f32 w))) a)).toX) ∧
     red .fmax .fp (fun a x => x = tree (fminmax true) a) ∧ red .fmin .fp (fun a x => x = tree (fminmax false) a) ∧
     red .iadd .int (fun a x =>
       x = clampLane (-2147483648) 2147483647 (((List.range 16).map (fun n => (a n).toInt)).foldr (· + ·) 0)) ∧
     red .imax .int (fun a x => (∃ n, n < 16 ∧ x = a n) ∧ ∀ n, n < 16 → (a n).toInt ≤ x.toInt) ∧
     red .imin .int (fun a x => (∃ n, n < 16 ∧ x = a n) ∧ ∀ n, n < 16 → x.toInt ≤ (a n).toInt)) ∧
  ((∀ (o : V1) (s : State),
     let q : Prefix := ⟨.rne, s.ctx.xpfx.sat, s.ctx.xpfx.nz⟩
     let sp (i : Instr) (f : SpecFn) (lat : Nat) : Prop :=
       s.Map1 i o .sf lat .fp (fun a => toF32 q 0 (specFn f (f32 a)))
     sp (.frcp o) .rcp 8 ∧ sp (.frsq o) .rsq 8 ∧ sp (.fexp2 o) .exp2 10 ∧ sp (.flog2 o) .log2 10 ∧ sp (.fsin o) .sin 10 ∧
     sp (.fcos o) .cos 10 ∧ sp (.ftanh o) .tanh 10 ∧ sp (.fsigm o) .sigm 10) ∧
   (∀ (f : SpecFn) (half : Bool) (o : V1) (s : State),
     let q : Prefix := if s.ctx.xpfx.rm = .rsr then { s.ctx.xpfx with rm := .rne } else s.ctx.xpfx
     let fmt := if half then fp16 else bf16
     s.VSlot (.specialFunction16 f half o) o.h (.vec o.d) [o.a] .sf 6 (s.guard o.h) (fun v => ∀ n, n < 32 →
       (BitVec.extractLsb' (16 * n) 16 v).toNat =
         fmt.encode q 0 (specFn f (fmt.decode (BitVec.extractLsb' (16 * n) 16 (s.src o.h.cl .fp o.a)).toNat)))) ∧
   (∀ f : SpecFn, specFn f .nan = .nan) ∧
   (∀ (n : Bool) (e : Int) (k : Nat),
     specFn .rcp (.fin n 0 e) = .inf n ∧ specFn .rcp (.inf n) = .zero n ∧ specFn .rsq (.fin n 0 e) = .inf n ∧
     (1 ≤ k → specFn .rsq (.fin true k e) = .nan ∧ specFn .log2 (.fin true k e) = .nan) ∧
     specFn .rsq (.inf false) = .zero false ∧ specFn .exp2 (.inf true) = .zero false ∧
     specFn .exp2 (.inf false) = .inf false ∧ specFn .log2 (.fin n 0 e) = .inf true ∧
     specFn .log2 (.inf false) = .inf false ∧ specFn .sin (.fin n 0 e) = .zero n ∧ specFn .sin (.inf n) = .nan ∧
     specFn .cos (.fin n 0 e) = XVal.ofInt 1 ∧ specFn .cos (.inf n) = .nan ∧ specFn .tanh (.fin n 0 e) = .zero n ∧
     specFn .sigm (.inf true) = .zero false ∧ specFn .sigm (.inf false) = XVal.ofInt 1))

/-- R268, R272 to R274: rational words are residues modulo p^4 in base p; a word with a digit of p or more is no value
and gives NV; sums, differences, negations and products are those of the residues; a quotient times its divisor is its
dividend; a divisor whose digit 0 is zero raises NONINV at the lowest active such word, or with NIM = 1 sets QNI and
gives NV. R275 to R279, R281: QENC encodes n/d, so that the word times d is n; a denominator that p divides raises
NONINV where the word is active, or with NIM = 1 sets QNI and gives NV (R274); QCMPEQ compares values; QDIG and QSETD
read and write one digit; QDEC and QCVT decode a word to the fraction in lowest terms whose numerator and denominator
are at most N = floor(sqrt((M − 1) / 2)); a word that is no value, or that no such fraction with a denominator prime
to p has, decodes to none, sets QRO where it is active and gives 0, or NaN. -/
def Obligations.RationalLanes : Prop :=
  (∀ (o : V2) (u : V1) (s : State),
     let p := s.xPrime
     let NV : Word := 0xFFFFFFFFFFFFFFFF
     let A := word64 (s.src o.h.cl .word o.a)
     let B := word64 (s.src o.h.cl .word o.b)
     let C := word64 (s.src u.h.cl .word u.a)
     let live (h : VHd) (n : Nat) : Bool := (s.guard h).getLsbD (2 * n) && (s.guard h).getLsbD (2 * n + 1)
     let bad2 (n : Nat) : Prop := live o.h n = true ∧ qwordOk p (A n) ∧ qwordOk p (B n) ∧ ufield (B n) 0 16 = 0
     let bad1 (n : Nat) : Prop := live u.h n = true ∧ qwordOk p (C n) ∧ ufield (C n) 0 16 = 0
     let res2 (i : Instr) (lat : Nat) (R : Nat → Nat → Int → Prop) : Prop :=
       s.VSlot i o.h (.vec o.d) [o.a, o.b] .sf lat (pairGuard (s.guard o.h)) (fun v => ∀ n, n < 8 →
         (qwordOk p (A n) → qwordOk p (B n) → qwordOk p (word64 v n) ∧
           R (qwordVal p (A n)) (qwordVal p (B n)) (qwordVal p (word64 v n))) ∧
         (¬ (qwordOk p (A n) ∧ qwordOk p (B n)) → word64 v n = NV))
     res2 (.qadd o) 2 (fun a b r => r = ((a : Int) + b) % (p ^ 4 : Nat)) ∧
     res2 (.qsub o) 2 (fun a b r => r = ((a : Int) - b) % (p ^ 4 : Nat)) ∧
     res2 (.qmul o) 5 (fun a b r => r = ((a : Int) * b) % (p ^ 4 : Nat)) ∧
     s.VSlot (.qneg u) u.h (.vec u.d) [u.a] .sf 2 (pairGuard (s.guard u.h)) (fun v => ∀ n, n < 8 →
       (qwordOk p (C n) → qwordOk p (word64 v n) ∧ (qwordVal p (word64 v n) : Int) = (-(qwordVal p (C n) : Int)) % (p ^ 4 : Nat)) ∧
       (¬ qwordOk p (C n) → word64 v n = NV)) ∧
     (s.slotFree o.h (.vec o.d) [o.a, o.b] →
       ((∀ n, n < 8 → ¬ bad2 n) ∨ s.ctx.qctl.getLsbD 0 = true → ∃ (t : State) (v : Vec), exec (.qdiv o) s = .next t ∧
         s.IssuedV t o.h (.vec o.d) [o.a, o.b] .sf 12 (pairGuard (s.guard o.h)) v t.ctx.qctl ∧
         ((∀ n, n < 8 → ¬ bad2 n) → t.ctx.qctl = s.ctx.qctl) ∧ ((∃ n, n < 8 ∧ bad2 n) → t.ctx.qctl = s.ctx.qctl ||| 0x100) ∧
         ∀ n, n < 8 →
           (qwordOk p (A n) → qwordOk p (B n) → ufield (B n) 0 16 ≠ 0 → qwordOk p (word64 v n) ∧
             qwordVal p (word64 v n) * qwordVal p (B n) % p ^ 4 = qwordVal p (A n)) ∧
           (¬ (qwordOk p (A n) ∧ qwordOk p (B n) ∧ ufield (B n) 0 16 ≠ 0) → word64 v n = NV)) ∧
       (∀ n, n < 8 → bad2 n → (∀ m, m < n → ¬ bad2 m) → s.ctx.qctl.getLsbD 0 = false →
         exec (.qdiv o) s = .next (s.raise ⟨.nonInv, true, 1 + o.h.cl.toNat, 0, BitVec.ofNat 64 n⟩))) ∧
     (s.slotFree u.h (.vec u.d) [u.a] →
       ((∀ n, n < 8 → ¬ bad1 n) ∨ s.ctx.qctl.getLsbD 0 = true → ∃ (t : State) (v : Vec), exec (.qinv u) s = .next t ∧
         s.IssuedV t u.h (.vec u.d) [u.a] .sf 12 (pairGuard (s.guard u.h)) v t.ctx.qctl ∧
         ((∃ n, n < 8 ∧ bad1 n) → t.ctx.qctl = s.ctx.qctl ||| 0x100) ∧
         ∀ n, n < 8 → qwordOk p (C n) → ufield (C n) 0 16 ≠ 0 → qwordOk p (word64 v n) ∧
           qwordVal p (word64 v n) * qwordVal p (C n) % p ^ 4 = 1) ∧
       (∀ n, n < 8 → bad1 n → (∀ m, m < n → ¬ bad1 m) → s.ctx.qctl.getLsbD 0 = false →
         exec (.qinv u) s = .next (s.raise ⟨.nonInv, true, 1 + u.h.cl.toNat, 0, BitVec.ofNat 64 n⟩)))) ∧
  ((∀ (o : V2) (s : State),
     let p := s.xPrime
     let A (n : Nat) : Int := (lane (s.src o.h.cl .int o.a) (2 * n)).toInt
     let D (n : Nat) : Int := (lane (s.src o.h.cl .int o.b) (2 * n)).toInt
     let bad (n : Nat) : Prop := (s.guard o.h).getLsbD (2 * n) = true ∧ (s.guard o.h).getLsbD (2 * n + 1) = true ∧ D n % p = 0
     s.slotFree o.h (.vec o.d) [o.a, o.b] →
     ((∀ n, n < 8 → ¬ bad n) ∨ s.ctx.qctl.getLsbD 0 = true → ∃ (t : State) (v : Vec), exec (.qenc false o) s = .next t ∧
       s.IssuedV t o.h (.vec o.d) [o.a, o.b] .sf 14 (pairGuard (s.guard o.h)) v t.ctx.qctl ∧
       ((∀ n, n < 8 → ¬ bad n) → t.ctx.qctl = s.ctx.qctl) ∧ ((∃ n, n < 8 ∧ bad n) → t.ctx.qctl = s.ctx.qctl ||| 0x100) ∧
       ∀ n, n < 8 → (D n % p = 0 → word64 v n = 0xFFFFFFFFFFFFFFFF) ∧
         (D n % p ≠ 0 → qwordOk p (word64 v n) ∧ ((qwordVal p (word64 v n) : Int) * D n - A n) % (p ^ 4 : Nat) = 0)) ∧
     (∀ n, n < 8 → bad n → (∀ m, m < n → ¬ bad m) → s.ctx.qctl.getLsbD 0 = false →
       exec (.qenc false o) s = .next (s.raise ⟨.nonInv, true, 1 + o.h.cl.toNat, 0, BitVec.ofNat 64 n⟩))) ∧
   (∀ (o : V2) (s : State),
     let p := s.xPrime
     let A (n : Nat) : FVal := f32 (lane (s.src o.h.cl .fp o.a) (2 * n))
     s.VSlot (.qenc true o) o.h (.vec o.d) [o.a] .sf 14 (pairGuard (s.guard o.h)) (fun v => ∀ n, n < 8 →
       ((∀ g m e, A n ≠ .fin g m e) → word64 v n = 0xFFFFFFFFFFFFFFFF) ∧
       (∀ (g : Bool) (m : Nat) (e : Int), A n = .fin g m e → qwordOk p (word64 v n) ∧
         ((qwordVal p (word64 v n) : Int) * (2 ^ (-e).toNat : Nat) - signedDyadic g m * (2 ^ e.toNat : Nat)) % (p ^ 4 : Nat)
           = 0))) ∧
   (∀ (h : VHd) (d : BitVec 4) (a b : VSrc) (s : State),
     let A := word64 (s.src h.cl .word a)
     let B := word64 (s.src h.cl .word b)
     s.VSlot (.qcmpeq h d a b) h (.pred d) [a, b] .sf 2 (pairGuard (s.guard h)) (fun v => ∀ n, n < 16 →
       (lane v n = 0xFFFFFFFF ↔ qwordOk s.xPrime (A (n / 2)) ∧ qwordOk s.xPrime (B (n / 2)) ∧ A (n / 2) = B (n / 2)) ∧
       (lane v n = 0xFFFFFFFF ∨ lane v n = 0))) ∧
   (∀ (o : V2) (u : V1) (sd : BitVec 2) (s : State),
     s.VSlot (.qdig u sd) u.h (.vec u.d) [u.a] .sf 2 (pairGuard (s.guard u.h)) (fun v => ∀ n, n < 8 →
       (word64 v n).toNat = ufield (word64 (s.src u.h.cl .word u.a) n) (16 * sd.toNat) 16) ∧
     s.VSlot (.qsetd o sd) o.h (.vec o.d) [o.a, o.b] .sf 2 (pairGuard (s.guard o.h)) (fun v => ∀ n, n < 8 → ∀ i, i < 4 →
       ufield (word64 v n) (16 * i) 16 = if i = sd.toNat then (lane (s.src o.h.cl .int o.b) (2 * n)).toNat % 2 ^ 16
         else ufield (word64 (s.src o.h.cl .word o.a) n) (16 * i) 16)) ∧
   (∀ (u : V1) (s : State),
     let p := s.xPrime
     let A := word64 (s.src u.h.cl .word u.a)
     let lost : Bool := (List.range 8).any (fun n => (s.guard u.h).getLsbD (2 * n) && (s.guard u.h).getLsbD (2 * n + 1) &&
       (qdecode p (A n)).isNone)
     let q : Word := if lost then s.ctx.qctl ||| 0x200 else s.ctx.qctl
     s.slotFree u.h (.vec u.d) [u.a] →
     (∀ den : Bool, ∃ (t : State) (v : Vec), exec (.qdec den u) s = .next t ∧
       s.IssuedV t u.h (.vec u.d) [u.a] .sf 40 (pairGuard (s.guard u.h)) v q ∧ ∀ n, n < 8 →
         (qdecode p (A n) = none → word64 v n = 0) ∧
         (∀ (x : Int) (y : Nat), qdecode p (A n) = some (x, y) →
           word64 v n = if den then BitVec.ofNat 64 y else BitVec.ofInt 64 x)) ∧
     (∃ (t : State) (v : Vec), exec (.qcvt u) s = .next t ∧ s.IssuedV t u.h (.vec u.d) [u.a] .sf 54 (pairGuard (s.guard u.h)) v q ∧
       ∀ n, n < 8 → (qdecode p (A n) = none → word64 v n = 0x7FC00000) ∧
         (∀ (x : Int) (y : Nat), qdecode p (A n) = some (x, y) →
           word64 v n = (toF32 s.ctx.xpfx (s.laneDraw u.h (2 * n)) (ratX x y)).setWidth 64))) ∧
   (∀ (k N : Nat) (w : Word), k < 12 →
     let p := primeOf k
     let M := p ^ 4
     let is (x : Int) (y : Nat) : Prop := ((qwordVal p w : Int) * y - x) % (M : Int) = 0
     2 * N ^ 2 ≤ M - 1 → M - 1 < 2 * (N + 1) ^ 2 →
     (∀ (x : Int) (y : Nat), qdecode p w = some (x, y) →
       qwordOk p w ∧ 1 ≤ y ∧ y ≤ N ∧ x.natAbs ≤ N ∧ Nat.gcd x.natAbs y = 1 ∧ is x y) ∧
     (qdecode p w = none ↔ ¬ qwordOk p w ∨ ∀ (x : Int) (y : Nat), x.natAbs ≤ N → 1 ≤ y → y ≤ N → y % p ≠ 0 → ¬ is x y)))

/-- R53 to R55, R86: the bundle at a position of a sound quire is the dictionary entry its index names, or the literal
of the 48 halfwords behind an escape; the next one stands behind it, or at the quire at NEXT. BADINDEX, BADQUIRE,
NOCODE and MALFORMED as tabled; the expander's own rows unpack the quire, or raise the trap; code of a layer that is
off is reported, and poison. A fetch whose page is behind a miss that no walker serves yet waits for it (R75). The
model's own: POISON at the fetch of a poisoned or powered-off quire (log entry 67); that MALFORMED waits until the
X-half has issued every earlier bundle, which R52 says of the bundle's traps (log entry 34); that a lost flit strikes
the next access, a code fetch among them (log entry 76); that walk and fetch are one event (log entry 82). -/
def Obligations.Expansion : Prop :=
  (∀ (q : Quire) (did : BitVec 16) (entry : Nat → Option Bundle768) (i : Nat) (h : BitVec 16), q.bad did = false →
    q.body[i]? = some h → i < q.cnt →
    (h = 0xFFFF → i + 49 ≤ q.cnt → ∀ (w : Bundle768) (b : Bundle),
      (∀ k : Nat, k < 48 → q.body[i + 1 + k]? = some (w.extractLsb' (16 * k) 16)) → decodeBundle w = .ok b →
      q.bundle did entry i = .ok (b, q.after (i + 49))) ∧
    (h = 0xFFFF → q.cnt < i + 49 → q.bundle did entry i = .error .malformed) ∧
    (h = 0xFFFF → i + 49 ≤ q.cnt → ∀ w : Bundle768,
      (∀ k : Nat, k < 48 → q.body[i + 1 + k]? = some (w.extractLsb' (16 * k) 16)) → (∀ b, decodeBundle w ≠ .ok b) →
      q.bundle did entry i = .error .malformed) ∧
    (h ≠ 0xFFFF → ∀ w : Bundle768, entry h.toNat = some w → (∀ b, decodeBundle w ≠ .ok b) →
      q.bundle did entry i = .error .malformed) ∧
    (h ≠ 0xFFFF → ∀ (w : Bundle768) (b : Bundle), entry h.toNat = some w → decodeBundle w = .ok b →
      q.bundle did entry i = .ok (b, q.after (i + 1))) ∧
    (h ≠ 0xFFFF → entry h.toNat = none → q.bundle did entry i = .error .badIndex)) ∧
  (∀ (q : Quire) (did : BitVec 16) (entry : Nat → Option Bundle768) (i : Nat),
    (q.bad did = true → q.bundle did entry i = .error .badQuire) ∧
    (q.bad did = false → q.cnt ≤ i → q.bundle did entry i = .error .noCode) ∧
    (let h (i : Nat) : Word := q.hdr.getD i 0;
      q.bad did = true ↔ q.cnt = 0 ∨ 128 < q.cnt ∨ 2 ^ 8 ≤ (h 0).toNat ∨
        (∃ i, (i = 1 ∨ i = 2) ∧ ((h i).toNat % 512 ≠ 0 ∨ 2 ^ 56 ≤ (h i).toNat)) ∨
        ufield (h 3) 0 16 ≠ did.toNat ∨ 2 ^ 16 ≤ (h 3).toNat ∨ ∃ i, 4 ≤ i ∧ i ≤ 7 ∧ h i ≠ 0) ∧
    (i < q.cnt → q.after i = q.frame + BitVec.ofNat 64 (64 + 2 * i)) ∧
    (q.cnt ≤ i → q.next ≠ 0 → q.after i = q.next + 64)) ∧
  (∀ (s : State) (n : Nat), (n < 1024 → n < s.ctx.dlim → s.entryOf n = some (s.dict.get 0 (s.ctx.dbase + n))) ∧
    (1024 ≤ n ∨ s.ctx.dlim ≤ n → s.entryOf n = none)) ∧
  (∀ s : State, s.ctx.phase = .running → s.frozen = false → s.fetchServed (frameOf s.ctx.pc) = false →
    exec .bundleExpansion s = .next (s.awaitPage (frameOf s.ctx.pc))) ∧
  (∀ s : State, s.ctx.phase = .running → s.frozen = false → s.fetchServed (frameOf s.ctx.pc) = true →
    (∀ (b : Bundle) (next : Word) (t : State), s.expand = .ok (b, next, t) →
      exec .bundleExpansion s = .next t ∧ t.ctx = s.ctx ∧ t.loopBuf.length ≤ max 2 s.loopBuf.length) ∧
    (∀ (c : Cause) (d : Word), s.expand = .error (c, d) → (c = .malformed → s.ctx.lag = []) → c ≠ .poison →
      exec .bundleExpansion s = .next (s.raise ⟨c, false, 7, 0, d⟩)) ∧
    (∀ (d : Word) (pa : Nat) (tl : Tlb) (t : State), s.expand = .error (.poison, d) →
      s.translate s.ctx.job.asid s.ctx.job.root (frameOf s.ctx.pc) .exec = (.ok pa tl, t) →
      exec .bundleExpansion s = .next (State.raise (if s.layerOff pa then s.dropAccess pa else s) ⟨.poison, false, 7, 0, d⟩)) ∧
    (∀ d : Word, s.expand = .error (.malformed, d) → s.ctx.lag ≠ [] →
      exec .bundleExpansion s = .next (s.wait .realign))) ∧
  (∀ (s : State) (frame : Word), s.ctx.phase = .running → frame.toNat % 512 = 0 → s.fetchServed frame = false →
    exec (.quireFetch frame) s = .next (s.noteMiss s.ctx.job.asid frame false)) ∧
  (∀ (s : State) (frame : Word), s.ctx.phase = .running → frame.toNat % 512 = 0 → s.fetchServed frame = true →
    (∀ (q : Quire) (t : State), s.quireAt frame = .ok (q, t) → ∃ u, exec (.quireFetch frame) s = .next u ∧
      u = { t with loopBuf := u.loopBuf } ∧ u.loopBuf.head? = some q) ∧
    (∀ c, s.quireAt frame = .error c → s.flitLost = false → exec (.quireFetch frame) s = .next s) ∧
    (∀ (pa : Nat) (tl : Tlb) (t : State), s.quireAt frame = .error .poison → s.flitLost = true →
      s.translate s.ctx.job.asid s.ctx.job.root frame .exec = (.ok pa tl, t) →
      exec (.quireFetch frame) s = .next (s.dropAccess pa)))

/-- What a step runs, A-half: the context stands at a bundle that its quire gives, nothing keeps it from issuing and
the bundle's one A-half slot is `i`. The step is then an A-half issue, and that is exec of `i`, on the state with the
bundle's prefix, the position after it, its snapshot of the registers and the pin of its memory slot; afterwards the
A-half has committed, its X-half stands in the lag record and the pin of its memory slot is gone. A control slot other
than JTAB runs behind the others, with the X-half in the lag record (R32 to R34, R43, R49, R162, R297). That this is
what `step` takes next is the model's schedule (log entry 8). -/
def Obligations.StepRunsTheDecodedAHalf : Prop :=
  ∀ (s s1 p : State) (b : Bundle) (next : Word) (i : Instr),
    s.agenda = [] → s.inReset = false → s.ctx.yielding = false → s.ctx.quantum < 65536 → s.ctx.quantum % 64 ≠ 63 →
    s.mayIssue = true →
    s.mark.isWait = false → s.aFree = true → s.ctx.pend = none → s.ctx.lag = [] → s.ctx.latches = none →
    s.lastJob = some s.ctx.jobKey → s.ctx.stepTo = none → s.fetchServed (frameOf s.ctx.pc) = true →
    s.expand = .ok (b, next, s1) → s1.phase = none → b.hdr.brk = false → b.hdr.dp = false → b.hdr.snp = false →
    b.hdr.swc = false → b.hdr.swm = false → b.hdr.sws = false → b.mx = .nop → (∀ x ∈ b.v, x = .nop) →
    (∀ q ∈ s1.reqs, q.ctx ≠ s1.cur) → (s1.bar 0x80080).getLsbD 13 = false →
    (b.s0 = i ∨ b.s1 = i ∨ b.m = i ∨ b.k = i ∨ b.c = i) → i ≠ .nop →
    (∀ x ∈ [b.c, b.s0, b.s1, b.m, b.k], x = i ∨ x = .nop) →
    [b.c, b.s0, b.s1, b.m, b.k].countP (fun x => x != .nop) = 1 →
    i ≠ .retire → i ≠ .eret → (∀ d, i ≠ .eretGo d) → (∀ k n c, i ≠ .trap k n c) → slotExec i = exec i →
    let r : State := s1.dropM s1.cur
    let o : State := ({ r with mark := .clear, ctx := { r.ctx with
      apfx := Header.toPrefix b.hdr, npc := next, aview := some r.ctx.regs } } : State).holdSegs b
    let lagged (x : State) : State := (x.dropM s1.cur).modCtx (fun c => { c with
      lag := c.lag ++ [⟨s1.ctx.an, s1.ctx.pc, b.hdr, b.mx, b.v, s1.ctx.regs, none, [], 1, s1.ctx.hand⟩] })
    let done (x : State) : State := { x with mark := .clear, ctx := { x.ctx with
      pc := x.ctx.npc, an := x.ctx.an + 1, aview := none, brkOnce := false, drained := none } }
    exec i o = .next p → p.mark = .clear →
    (b.c = .nop ∨ (∃ a x g l, i = .jtab a x g l) →
      exec .aHalfIssue s = .next (done (lagged p)) ∧ step s = .next (done (lagged p))) ∧
    (b.c = i → (∀ a x g l, i ≠ .jtab a x g l) → ∀ u, exec i (lagged o) = .next u → u.mark = .clear →
      exec .aHalfIssue s = .next (done u) ∧ step s = .next (done u))

/-- What a step runs, X-half: the oldest bundle whose X-half has not issued has the one X-half slot `i`. The step is
an X-half issue, and that is exec of `i`, once results due at the bundle have landed, with the scalars its A-half
captured and its prefix, and afterwards the X-half has committed, the accumulator writes that are visible now
forgotten (R32 to R34, R37, R43, R259). That this is what `step` takes next is the model's schedule (log entry 8). -/
def Obligations.StepRunsTheDecodedXHalf : Prop :=
  ∀ (s u : State) (e : LagEntry) (rest : List LagEntry) (i : Instr),
    s.agenda = [] → s.inReset = false → s.ctx.yielding = false → s.ctx.quantum < 65536 → s.ctx.quantum % 64 ≠ 63 →
    s.mayIssue = true →
    s.mark.isWait = false → s.aFree = true → s.ctx.pend = none → s.ctx.lag = e :: rest → s.ctx.latches = none →
    s.lastJob = some s.ctx.jobKey →
    s.ctx.stepTo = none → e.bun = s.ctx.xn → e.hdr.swm = false → e.hdr.yb = false → e.hdr.pxe = false → s.ctx.xpend = [] →
    s.lpRun = [] → (e.mx :: e.v).filter (fun x => x != .nop) = [i] → slotExec i = exec i →
    let l := s.landAt s.ctx.xn
    let o : State := { l with mark := .clear, ctx := { l.ctx with xview := some e.snap, xpfx := Header.toPrefix e.hdr } }
    exec i o = .next u → u.mark = .clear → u.ctx.xpend = [] → u.ctx.stepTo = none → u.lpRun = [] →
    let t : State := { u with mark := .clear, ctx := { u.ctx with
      lag := u.ctx.lag.tail, xn := u.ctx.xn + 1, quantum := u.ctx.quantum + 1, yielding := false, xview := none
      zhist := pendingZ (u.ctx.xn + 1) u.ctx.zhist } }
    exec .xHalfIssue s = .next t ∧ step s = .next t

/-- A step takes the head of the agenda: it is exec of it, with the agenda's rest. A module that holds itself in
reset, with nothing on the agenda, faults (R394, R399). The agenda, that fault and the step that changes nothing are
the model's (log entries 8, 45 and 55). R32 to R35: an A-half without slots commits: its X-half stands in the lag
record and the A-half moves to the next bundle; it waits for realignment with RA, and while 16 X-halves stand behind
it. An X-half without slots commits at once. The halves of a context that may not issue, or whose fault is being
served, do nothing (log entries 38 and 64); a code fetch behind a miss that no walker serves yet waits (R75; log entry
82). R44, R45, R135, R203, R333: a context switch, a yield and an expired quantum bring the next ready context onto
the core where there is one, the other keeping its registers; none of them does so between the arrival at a transfer
phase and its end. Between two contexts of one job the latches stay, between two jobs they become zero; a context that
is stopped, that stands for its heavy save, or whose fault is being served keeps its latches with it. That a served
fault is a block, and that the core switches once neither half can go on, are the model's choices (log entries 64 and
8). -/
def Obligations.HalvesAgendaAndSwitches : Prop :=
  ((∀ (s : State) (i : Instr) (r : List Instr), s.agenda = i :: r → step s = exec i { s with agenda := r }) ∧
   (∀ s : State, s.agenda = [] → s.inReset = true → step s = .fault .heldInReset) ∧
   (∀ s : State, s.agenda = [] → s.inReset = false → s.choose = none → step s = .next s)) ∧
  ((∀ s : State, s.mayIssue = false ∨ s.aFree = false → exec .aHalfIssue s = .next s ∧ exec .xHalfIssue s = .next s) ∧
   (∀ (s s1 : State) (b : Bundle) (next : Word), s.mayIssue = true → s.aFree = true → s.ctx.pend = none →
     s.ctx.latches = none → s.lastJob = some s.ctx.jobKey → s.ctx.stepTo = none →
     (16 ≤ s.ctx.lag.length → exec .aHalfIssue s = .next (s.wait .engine)) ∧
     (s.ctx.lag.length < 16 → s.fetchServed (frameOf s.ctx.pc) = false →
       exec .aHalfIssue s = .next (s.awaitPage (frameOf s.ctx.pc))) ∧
     (s.ctx.lag.length < 16 → s.fetchServed (frameOf s.ctx.pc) = true → s.expand = .ok (b, next, s1) → s1.phase = none → b.hdr.brk = false → b.hdr.dp = false →
       (b.hdr.ra = true → s1.ctx.lag ≠ [] → exec .aHalfIssue s = .next (s1.wait .realign)) ∧
       ((b.hdr.ra = true → s1.ctx.lag = []) → b.hdr.snp = false → b.hdr.swc = false → b.hdr.swm = false → b.hdr.sws = false →
         (∀ x ∈ [b.c, b.s0, b.s1, b.m, b.k, b.mx], x = .nop) → (∀ x ∈ b.v, x = .nop) →
         (s1.bar 0x80080).getLsbD 13 = false →
         exec .aHalfIssue s = .next { s1.dropM s1.cur with mark := .clear, ctx := { s1.ctx with
           apfx := Header.toPrefix b.hdr, pc := next, npc := next, an := s1.ctx.an + 1, aview := none, brkOnce := false
           drained := none
           lag := s1.ctx.lag ++ [⟨s1.ctx.an, s1.ctx.pc, b.hdr, b.mx, b.v, s1.ctx.regs, none, [], 0, s1.ctx.hand⟩] } }))) ∧
   (∀ s : State, s.mayIssue = true → s.ctx.lag = [] → s.ctx.pend = none → exec .xHalfIssue s = .next s) ∧
   (∀ (s : State) (e : LagEntry) (rest : List LagEntry), s.mayIssue = true → s.aFree = true → s.ctx.pend = none →
     s.ctx.lag = e :: rest →
     s.ctx.latches = none → s.lastJob = some s.ctx.jobKey → (∀ x ∈ e.mx :: e.v, x = .nop) → s.ctx.flight = [] →
     s.ctx.stepTo = none → s.ctx.xpend = [] → s.lpRun = [] →
     exec .xHalfIssue s = .next { s with mark := .clear, ctx := { s.ctx with
       lag := rest, xn := s.ctx.xn + 1, quantum := s.ctx.quantum + 1, yielding := e.hdr.yb && !s.holdsCore
       rcnt := if e.hdr.pxe = true ∧ (Header.toPrefix e.hdr).rm = .rsr then s.ctx.rcnt + 1 else s.ctx.rcnt
       xpfx := Header.toPrefix e.hdr, xview := none
       zhist := pendingZ (s.ctx.xn + 1) s.ctx.zhist } })) ∧
  ((∀ s : State, (s.mayLeave = true → exec .contextSwitch s = .next s.switchNext) ∧
     (s.mayLeave = false → exec .contextSwitch s = .next s)) ∧
   (∀ s : State, (s.ctx.yielding = true → s.holdsCore = false →
       exec .yield s = .next ({ s with ctx := { s.ctx with yielding := false } } : State).switchNext) ∧
     (s.ctx.yielding = false ∨ s.holdsCore = true → exec .yield s = .next s)) ∧
   (∀ s : State, (65536 ≤ s.ctx.quantum → s.ctx.phase = .running → s.holdsCore = false → s.standLL = false →
       exec .quantumExpiry s = .next s.switchNext) ∧
     (s.ctx.quantum < 65536 ∨ s.ctx.phase ≠ .running ∨ s.holdsCore = true ∨ s.standLL = true →
       exec .quantumExpiry s = .next s)) ∧
   (∀ s : State, (s.nextReady = none → s.switchNext = s) ∧
     ∀ i, s.nextReady = some i → s.switchNext = s.switchTo i ∧ i ≠ s.cur ∧ s.isReady i = true ∧
       ∀ j, j ≠ s.cur → (j - s.cur).toNat < (i - s.cur).toNat → s.isReady j = false) ∧
   (∀ (s : State) (i : BitVec 2), i ≠ s.cur →
     let t := s.switchTo i
     t.cur = i ∧ t.ctx = { s.others.get Ctx.zero i.toNat with quantum := 0 } ∧
     t.ctxAt s.cur = { s.ctx with watch := s.ctx.watch.lose, yielding := false, latches := s.keptLatches } ∧
     (∀ j, j ≠ i → j ≠ s.cur → t.ctxAt j = s.ctxAt j) ∧ t.v = s.v ∧ t.m = s.m ∧ t.segs = s.segs ∧
     (s.untraced 4 → t.mem = s.mem) ∧ (s.lastJob = some t.ctx.jobKey → t.latch = s.latch) ∧
     ((∃ j, s.lastJob = some j ∧ t.ctx.jobKey ≠ j) → t.ctx.task ≠ none → t.latch = [])) ∧
   (∀ s : State, s.ctx.latches = none → s.lastJob = some s.ctx.jobKey →
     (s.ctx.stopped = true ∨ s.ctx.halt = true ∨ s.aFree = false → s.keptLatches = some s.latchesNow) ∧
     (s.ctx.stopped = false → s.ctx.halt = false → (∀ q ∈ s.parked, q.by_ ≠ .half s.cur) → s.keptLatches = none)) ∧
   (∀ w : WaitFor, w.blocks = true ↔ w = .queue ∨ w = .segment ∨ w = .barrier ∨ w = .served))

/-- R66, R71, R80: a translation held by the TLB gives frame plus offset where the page's bits allow the access,
PGPERM where they do not, SEALED to an access of a sealed page that is no tensor access; an address with bits [63:56]
set is BADADDR. It changes nothing but, before the first write through it, DT of its entry, in memory and in the
copies held (R73). A translation that is walked may change its leaf's entry alone, by AC and DT, besides what a walk
does to the caches and, where no layer serves one of its reads, the report of it (R86, R112). That a sealed page which
lacks the permission too gives PGPERM is the model's choice (log entry 60), and so is a walk whose read is lost (log
entry 76). R69 to R73: a walk indexes the five tables by the fields of the address; an entry with V = 0 ends it
absent, one that breaks R72 is PTEBAD, and a leaf gives its page; a sealed leaf that no bound tensor has sealed is
PTEBAD too; the worked walk of the spec. -/
def Obligations.TranslationsAndWalks : Prop :=
  ((∀ (s : State) (asid : BitVec 12) (root : Nat) (va : Word) (acc : Access), 2 ^ 56 ≤ va.toNat →
     s.translate asid root va acc = (.fault .badAddr, s)) ∧
   (∀ (s : State) (asid : BitVec 12) (root : Nat) (va : Word) (acc : Access) (t : Tlb), va.toNat < 2 ^ 56 →
     s.tlb.find? (fun t => t.covers asid va) = some t →
     let lacks : Prop := (acc = .read ∧ t.rd = false) ∨ (acc = .write ∧ t.wr = false) ∨
       (acc = .atomic ∧ (t.rd = false ∨ t.wr = false)) ∨ (acc = .exec ∧ t.ex = false) ∨ (acc = .tensorRead ∧ t.rd = false) ∨
       (acc = .tensorWrite ∧ t.wr = false)
     (lacks → s.translate asid root va acc = (.fault .pgPerm, s)) ∧
     (¬ lacks → t.sl = true → (acc = .read ∨ acc = .write ∨ acc = .atomic ∨ acc = .exec) →
       s.translate asid root va acc = (.fault .sealed, s)) ∧
     (¬ lacks → (t.sl = false ∨ acc = .tensorRead ∨ acc = .tensorWrite ∨ acc = .system ∨ acc = .systemWrite) →
       (s.translate asid root va acc).1 = .ok (t.pa + (va.toNat - t.va)) t ∧
       ((acc = .read ∨ acc = .exec ∨ acc = .tensorRead ∨ acc = .system ∨ t.dt = true) →
         (s.translate asid root va acc).2 = s) ∧
       ((acc = .write ∨ acc = .atomic ∨ acc = .tensorWrite ∨ acc = .systemWrite) → t.dt = false →
         let u := (s.translate asid root va acc).2
         u.memWord t.ent = s.memWord t.ent ||| 0x200 ∧ (∀ a, a < t.ent ∨ t.ent + 8 ≤ a → u.memByte a = s.memByte a) ∧
         u.tlb.find? (fun t => t.covers asid va) = some { t with dt := true } ∧
         u = { s with mem := u.mem, tlb := u.tlb, tcache := u.tcache, l2 := u.l2, l2Version := u.l2Version, fresh := u.fresh
                      cmpSaved := u.cmpSaved, hbmSleep := u.hbmSleep }))) ∧
   (∀ (s : State) (asid : BitVec 12) (root : Nat) (va : Word) (acc : Access),
     let u := (s.translate asid root va acc).2
     (u = { s with mem := u.mem, tlb := u.tlb, tcache := u.tcache, pages := u.pages, misses := u.misses, l2 := u.l2
                   l2Version := u.l2Version, fresh := u.fresh, cmpSaved := u.cmpSaved, hbmSleep := u.hbmSleep
                   flitLost := u.flitLost, faultLog := u.faultLog, msi := u.msi, bar0 := u.bar0, snap := u.snap }) ∧
     (s.flitLost = false → (∀ e ∈ s.walkReads (va.toNat % 2 ^ 56) walkLevels root, s.layerGone e = false) →
       u.faultLog = s.faultLog ∧ u.msi = s.msi ∧ u.bar0 = s.bar0 ∧ u.snap = s.snap ∧ u.flitLost = false) ∧
     (∀ a, (∀ t, (s.lookup asid root va).1 = .leaf t → a < t.ent ∨ t.ent + 8 ≤ a) → u.memByte a = s.memByte a) ∧
     (∀ t, (s.lookup asid root va).1 = .leaf t →
       ∃ b ∈ ([0, 0x100, 0x200, 0x300] : List Word), u.memWord t.ent = s.memWord t.ent ||| b) ∧
     (∀ pa t, (s.translate asid root va acc).1 = .ok pa t → acc.writes = true → t.dt = false →
       (u.memWord t.ent).getLsbD 9 = true))) ∧
  ((∀ (s : State) (asid : BitVec 12) (va : Nat) (base : Nat) (i : Nat) (sh bits page align : Nat),
     walkLevels[i]? = some (sh, bits, page, align) →
     let ent := base + 8 * (va / 2 ^ sh % 2 ^ bits)
     let e := s.memWord ent
     (e.getLsbD 0 = false → s.walkFrom asid va (walkLevels.drop i) base = .absent) ∧
     (e.getLsbD 0 = true → e.getLsbD 1 = true →
       let next := 256 * ufield e 8 44
       ((i = 4 ∨ ufield e 2 6 ≠ 0 ∨ ufield e 52 12 ≠ 0 ∨ next % align ≠ 0) →
         s.walkFrom asid va (walkLevels.drop i) base = .bad) ∧
       (i < 4 → ufield e 2 6 = 0 → ufield e 52 12 = 0 → next % align = 0 →
         s.walkFrom asid va (walkLevels.drop i) base = s.walkFrom asid va (walkLevels.drop (i + 1)) next)) ∧
     (e.getLsbD 0 = true → e.getLsbD 1 = false →
       let pa := 65536 * ufield e 16 36
       ((i < 2 ∨ ufield e 2 2 = 3 ∨ ufield e 10 2 = 3 ∨ ufield e 12 4 ≠ 0 ∨ ufield e 52 4 ≠ 0 ∨ pa % 2 ^ sh ≠ 0) → s.walkFrom asid va (walkLevels.drop i) base = .bad) ∧
       (2 ≤ i → ufield e 2 2 ≠ 3 → ufield e 10 2 ≠ 3 → ufield e 12 4 = 0 → ufield e 52 4 = 0 → pa % 2 ^ sh = 0 →
         ∃ t, s.walkFrom asid va (walkLevels.drop i) base = .leaf t ∧
           t.asid = asid ∧ t.va = va / 2 ^ sh * 2 ^ sh ∧ t.size = 2 ^ sh ∧ t.pa = pa ∧ t.kind.toNat = ufield e 2 2 ∧
           t.rd = e.getLsbD 4 ∧ t.wr = e.getLsbD 5 ∧ t.ex = e.getLsbD 6 ∧ t.sl = e.getLsbD 7 ∧ t.dt = e.getLsbD 9 ∧
           t.nsh.toNat = ufield e 10 2 ∧ t.ent = ent))) ∧
   (∀ (s : State) (asid : BitVec 12) (root : Nat) (va : Word),
     s.rawWalk asid root va = s.walkFrom asid (va.toNat % 2 ^ 56) walkLevels root ∧
     (s.rawWalk asid root va = .absent → s.walk asid root va = .absent) ∧ (s.rawWalk asid root va = .bad → s.walk asid root va = .bad) ∧
     ∀ t, s.rawWalk asid root va = .leaf t →
       (t.sl = true → (∀ b ∈ s.bound, t.ent ∉ b.ents) → s.walk asid root va = .bad) ∧
       ((t.sl = false ∨ ∃ b ∈ s.bound, t.ent ∈ b.ents) → s.walk asid root va = .leaf t)) ∧
   (∀ s : State, s.memWord 0x100000 = 0x101003 → s.memWord 0x101000 = 0x102003 → s.memWord 0x102850 = 0x103003 →
     s.memWord 0x1031D8 = 0x104003 → s.memWord 0x104028 = 0x34560131 →
     ∃ t, s.walk 0 0x100000 0x4287654321 = .leaf t ∧ t.pa + (0x4287654321 - t.va) = 0x34564321 ∧ t.kind = 0 ∧ t.rd = true ∧
       t.wr = true ∧ t.ex = false))

/-- R73, R75, R76, R78, R79: a TLB miss is answered by the translation cache, coalesces with a pending one of its leaf
or its 64 KiB unit, or joins the misses; a walk, for a miss that a walker serves, installs the leaf it finds and sets
AC; XIVC with GO starts an invalidation with the registers as they stand, or refuses it with ERR when busy, of scope
3, or of an empty range; it completes by dropping every translation it names, and BUSY falls once the accesses that
used one are performed. A load whose miss no walker serves holds its half, and its miss stands among the others (R77;
a served walk and its access are one event: DESIGN CHOICE, log entry 82). -/
def Obligations.TranslationEvents : Prop :=
  (∀ (asid : BitVec 12) (va : Word) (s : State), (∀ t ∈ s.tlb, t.covers asid va = false) → va.toNat < 2 ^ 56 →
    let mine (m : Miss) : Prop := m.asid = asid ∧ (m.va.toNat / 65536 = va.toNat / 65536 ∨
      ∃ root t, s.rootOf asid = some root ∧ s.rawWalk asid root m.va = .leaf t ∧ t.covers asid va = true)
    (∀ t, s.tcache.find? (fun t => t.covers asid va) = some t →
      exec (.tlbMiss asid va) s = .next { s with tlb := (t :: s.tlb).take 512 }) ∧
    ((∀ t ∈ s.tcache, t.covers asid va = false) →
      ((∃ m ∈ s.misses, mine m) → exec (.tlbMiss asid va) s = .next s) ∧
      ((∀ m ∈ s.misses, ¬ mine m) →
        exec (.tlbMiss asid va) s = .next { s with misses := s.misses ++ [⟨asid, va, s.stagingMiss asid va⟩] }) ∧
      ((∃ m ∈ s.misses, mine m) → (∀ m ∈ missesServed (missHeld [] s.misses), ¬ mine m) → exec (.pageWalk asid va) s = .next s) ∧
      ((∀ m ∈ s.misses, ¬ mine m) ∨ (∃ m ∈ missesServed (missHeld [] s.misses), mine m) →
        ∀ (root : Nat) (t : Tlb), s.rootOf asid = some root → s.walk asid root va = .leaf t →
        ∃ u, exec (.pageWalk asid va) s = .next u ∧
          u = { s with mem := u.mem, tlb := (t :: s.tlb).take 512, tcache := (t :: s.tcache).take 16384, pages := u.pages
                       misses := u.misses, l2 := u.l2, l2Version := u.l2Version, fresh := u.fresh, cmpSaved := u.cmpSaved
                       hbmSleep := u.hbmSleep, flitLost := u.flitLost, faultLog := u.faultLog, msi := u.msi
                       bar0 := u.bar0, snap := u.snap } ∧
          (∀ m ∈ u.misses, m ∈ s.misses ∧ t.covers m.asid m.va = false) ∧
          u.memWord t.ent = s.memWord t.ent ||| 0x100 ∧ ∀ a, a < t.ent ∨ t.ent + 8 ≤ a → u.memByte a = s.memByte a))) ∧
  (∀ (d : AReg) (ty : LdTy) (m : GMem) (s : State), s.Clean m.a.areads →
    let va := s.rd.addr m.a
    va.toNat < 2 ^ 56 → va.toNat % ty.bytes = 0 → s.walkServed s.ctx.job.asid va false = false →
    exec (.lda ty d m) s = .next ((s.noteMiss s.ctx.job.asid va false).wait .engine) ∧
    (s.noteMiss s.ctx.job.asid va false).misses =
      (if s.misses.any (s.missOn s.ctx.job.asid va) = true then s.misses
       else s.misses ++ [⟨s.ctx.job.asid, va, false⟩])) ∧
  (∀ (w : Word) (s : State),
    (w.getLsbD 31 = false → exec (.xivcGo w) s = .next (s.setBar s.part.toNat 0x10010 (w &&& 0x3FFF))) ∧
    (w.getLsbD 31 = true →
      let refused : Prop := (s.bar 0x10018).getLsbD 0 = true ∨ ufield w 12 2 = 3 ∨ (ufield w 12 2 = 0 ∧ s.bar 0x10008 = 0)
      ∃ t, exec (.xivcGo w) s = .next t ∧ t = { s with bar0 := t.bar0, inval := t.inval } ∧
        (t.bar 0x10018).getLsbD 1 = decide refused ∧
        (refused → (t.bar 0x10018).getLsbD 0 = (s.bar 0x10018).getLsbD 0 ∧ t.bar 0x10010 = s.bar 0x10010 ∧ t.inval = s.inval) ∧
        (¬ refused → (t.bar 0x10018).getLsbD 0 = true ∧ t.bar 0x10010 = w &&& 0x3FFF ∧
          t.inval = some (s.bar 0x10000, s.bar 0x10008, w &&& 0x3FFF)))) ∧
  (∀ s : State, ((s.bar 0x10018).getLsbD 0 = false → exec .invalidationComplete s = .next s) ∧
    ((s.bar 0x10018).getLsbD 0 = true →
      let r := s.invalRegs
      let c := r.2.2
      let from_ := r.1.toNat
      let hit (asid : BitVec 12) (va size : Nat) : Prop :=
        (ufield c 12 2 = 0 ∧ asid.toNat = ufield c 0 12 ∧ va < from_ + 65536 * r.2.1.toNat ∧ from_ < va + size) ∨
        (ufield c 12 2 = 1 ∧ asid.toNat = ufield c 0 12) ∨ 2 ≤ ufield c 12 2
      ∃ t, exec .invalidationComplete s = .next t ∧
        t = { s with tlb := t.tlb, tcache := t.tcache, pages := t.pages, loopBuf := t.loopBuf, bar0 := t.bar0
                     inval := t.inval } ∧
        (∀ x : Tlb, (x ∈ t.tlb ↔ x ∈ s.tlb ∧ ¬ hit x.asid x.va x.size) ∧
          (x ∈ t.tcache ↔ x ∈ s.tcache ∧ ¬ hit x.asid x.va x.size)) ∧
        ((t.bar 0x10018).getLsbD 0 = false ↔ s.reqs = [] ∧ s.zstores = [] ∧ s.ctx.watch.staged = [] ∧
          ∀ c ∈ s.others, c.2.watch.staged = [])))

/-- R82 to R86: at the end of an epoch a die's counts halve; a block is promoted once its count reaches NSPT and a
frame is free, one of a keep-near page on its first access, within half of the frames; a block named for demotion
leaves only where the order of R83 puts it first; NSRSV is written while no job runs on the die; a powered-down bank
group or stack is noted, and a stack in self-refresh wakes. -/
def Obligations.NearStores : Prop :=
  (∀ (die : BitVec 2) (s : State), ∃ t, exec (.nsEpochEnd die) s = .next t ∧ t = { s with nsCount := t.nsCount } ∧
    (∀ k n : Nat, (k, n) ∈ t.nsCount ↔ ∃ m : Nat, (k, m) ∈ s.nsCount ∧ n ≠ 0 ∧
      n = if (if k < 2 ^ 26 then k / 8388608 else (k - 2 ^ 26) % 4) = die.toNat then m / 2 else m)) ∧
  (∀ (die : BitVec 2) (block : Nat) (s : State),
    ((∃ b ∈ s.ns, b.block = block) → exec (.nsPromotion die block) s = .next s) ∧
    ((∀ b ∈ s.ns, b.block ≠ block) → s.nshOf block = 0 → s.framesUsed die < s.frames die.toNat →
      ((s.barAt 0 (0x20000 + 0x1000 * die.toNat)).toNat ≤ s.countAt die block → ∃ t, exec (.nsPromotion die block) s = .next t ∧
        t = { s with ns := s.ns ++ [⟨die, block, false, decide (8388608 ≤ block), s.fresh⟩], fresh := s.fresh + 1 }) ∧
      (s.countAt die block < (s.barAt 0 (0x20000 + 0x1000 * die.toNat)).toNat → exec (.nsPromotion die block) s = .next s)) ∧
    ((∀ b ∈ s.ns, b.block ≠ block) → s.nshOf block = 1 → s.framesUsed die < s.frames die.toNat → 1 ≤ s.countAt die block →
      2 * (s.ns.countP (fun x => x.die == die && x.keep) + 1) ≤ s.frames die.toNat →
      ∃ t, exec (.nsPromotion die block) s = .next t ∧
        t = { s with ns := s.ns ++ [⟨die, block, true, decide (8388608 ≤ block), s.fresh⟩], fresh := s.fresh + 1 }) ∧
    (s.nshOf block = 2 → exec (.nsPromotion die block) s = .next s)) ∧
  (∀ (die : BitVec 2) (block : Nat) (s : State) (b : NsBlock), s.ns.find? (fun x => x.die == die && x.block == block) = some b →
    b.keep = false →
    (s.nsVictim die = some b → exec (.nsDemotion die block) s = .next { s with ns := s.ns.filter (fun c => c != b) }) ∧
    (s.nsVictim die ≠ some b → exec (.nsDemotion die block) s = .next s)) ∧
  (∀ (s : State) (die : BitVec 2) (b : NsBlock), s.nsVictim die = some b → b ∈ s.ns ∧ b.die = die ∧ b.keep = false ∧
    ∀ c ∈ s.ns, c.die = die → c.keep = false → s.countAt die b.block < s.countAt die c.block ∨
      (s.countAt die b.block = s.countAt die c.block ∧ b.since ≤ c.since)) ∧
  (∀ (die : BitVec 2) (v : Word) (s : State),
    (s.jobOn die.toNat = true → exec (.nsrsvWrite die v) s = .next s) ∧
    (s.jobOn die.toNat = false → ∃ t, exec (.nsrsvWrite die v) s = .next t ∧ t = { s with bar0 := t.bar0, ns := t.ns } ∧
      t.barAt 0 (0x20010 + 0x1000 * die.toNat) = v &&& 0xFFFFFFFF ∧ t.framesUsed die ≤ t.frames die.toNat)) ∧
  (∀ s : State,
    (∀ (die : BitVec 2) (g : BitVec 5), ∃ t, exec (.layerPowerDown (.bank die g)) s = .next t ∧
      t = { s with nsOff := t.nsOff, ns := t.ns } ∧ t.nsOff.get false (32 * die.toNat + g.toNat) = true ∧
      t.framesUsed die ≤ t.frames die.toNat ∧ ∀ x ∈ s.ns, x.die ≠ die → x ∈ t.ns) ∧
    (∀ n : BitVec 3,
      (∃ t, exec (.layerPowerDown (.stack n true)) s = .next t ∧ t = { s with hbmSleep := t.hbmSleep } ∧
        t.hbmSleep.get false n.toNat = true) ∧
      (∃ t, exec (.layerPowerDown (.stack n false)) s = .next t ∧ t = { s with hbmOff := t.hbmOff } ∧
        t.hbmOff.get false n.toNat = true) ∧
      (∃ t, exec (.hbmWake n) s = .next t ∧ t = { s with hbmSleep := t.hbmSleep } ∧
        t.hbmSleep.get false n.toNat = false)))

/-- R91, R101 to R103, R112 to R114: TMINV drops a tensor's map entries; the way mask of a class and CMPCTL take their
defined bits; a lane that fails at a training is replaced by a spare of its group; a write-back leaves no dirty line,
a write-back with invalidation no line, and BUSY of L2CMD falls; compression and a replayed flit change nothing, a
load lost past the replay limit delivers poison with LINKFAIL, and the next access of another unit whose flit is lost
meets no layer. Which access a lost flit strikes is the model's choice (log entry 76), and so is the physical address
as the detail of LINKFAIL: R371 gives an address for the access causes alone. -/
def Obligations.SlicesAndLinks : Prop :=
  (∀ (h : Word) (s : State), exec (.tminvWrite h) s = .next { s with
    mapCache := s.mapCache.filter (fun m => !(m.part == s.part && m.handle == h)) }) ∧
  (∀ (c : BitVec 4) (v : Word) (s : State), ∃ t, exec (.l2wmWrite c v) s = .next t ∧ t = { s with bar0 := t.bar0 } ∧
    t.bar (0x10100 + 8 * c.toNat) = v &&& 0xFFFF ∧ ∀ d : BitVec 4, d ≠ c → t.bar (0x10100 + 8 * d.toNat) = s.bar (0x10100 + 8 * d.toNat)) ∧
  (∀ s : State, ∃ t, exec .l2WriteBack s = .next t ∧
    t = { s with l2 := s.l2.map (fun l => { l with dirty := false }), fresh := t.fresh, cmpSaved := t.cmpSaved
                 bar0 := t.bar0 } ∧
    ((s.bar 0x10210).getLsbD 31 = true → ufield (s.bar 0x10210) 0 2 = 1 → t.bar 0x10210 = s.bar 0x10210 &&& 3) ∧
    ((s.bar 0x10210).getLsbD 31 = false ∨ ufield (s.bar 0x10210) 0 2 ≠ 1 → t.bar0 = s.bar0)) ∧
  (∀ s : State, ∃ t, exec .l2WriteBackInvalidate s = .next t ∧ t.l2 = [] ∧ t.mem = s.mem ∧ t.ctx.regs = s.ctx.regs ∧
    ((s.bar 0x10210).getLsbD 31 = true → ufield (s.bar 0x10210) 0 2 = 2 → t.bar 0x10210 = s.bar 0x10210 &&& 3) ∧
    t.reqs = s.reqs ∧ ∀ e ∈ t.ctx.lag, ∀ f, e.fetch = some f → f.held = []) ∧
  (∀ (v : Word) (s : State), ∃ t, exec (.cmpctlWrite v) s = .next t ∧ t = { s with bar0 := t.bar0 } ∧
    t.bar 0x10300 = v &&& 1) ∧
  (∀ (s : State) (n : Nat), exec (.linkRetrain ⟨n, none⟩) s = .next s ∧ exec (.linkReplay none) s = .next s) ∧
  (∀ (s : State) (n g : Nat),
    let held : Prop := n < 500 ∧ (s.phase ≠ none ∨ s.mark = .waited .barrier)
    (held ∨ 4 ≤ s.lanesUsed.get 0 g → exec (.linkRetrain ⟨n, some g⟩) s = .next s) ∧
    (¬ held → s.lanesUsed.get 0 g < 4 → ∃ t, exec (.linkRetrain ⟨n, some g⟩) s = .next t ∧
      t.lanesUsed.get 0 g = s.lanesUsed.get 0 g + 1 ∧ t.boot.repairs = s.boot.repairs ++ [.lane g] ∧ t.ctx = s.ctx ∧
      t.mem = s.mem)) ∧
  (∀ (i : Nat) (s : State), s.reqs.length ≤ i → exec (.linkReplay (some i)) s = .next { s with flitLost := true }) ∧
  (∀ (s : State) (pa : Nat), s.flitLost = true → s.layerOff pa = true) ∧
  (∀ (i : Nat) (s : State) (r : Req), s.mayPerform i = some r → ∀ (d : AReg) (ty : LdTy), r.act = .areg d ty → d ≠ 0 →
    r.ctx = s.cur → r.ord = .plain → ∃ t, exec (.linkReplay (some i)) s = .next t ∧
      t.ctx.regs.aPoison.get false d.toNat = true ∧ t.reqs = s.reqs.eraseIdx i ∧ t.mem = s.mem ∧
      ∃ f : FaultRec, f ∈ t.faultLog ∧ f.cause = .linkFail ∧ f.detail = BitVec.ofNat 64 r.pa)

/-- R328, R348, R353: a record whose job descriptor is misaligned or cannot be read is discarded, with a NOJCB record
and vector 1; a launch that fails a check retires by one POISONED post with its cause and detail; one that passes has
its JCB set up and its tasks counted; it is held while a page of the JCB is absent. Then launches that have become
eligible are noted. The order of the reads is the model's (log entry 56). R335, R336, R342: what noting newly eligible
launches does: nothing where there is none; else each such launch takes its time, the JCBs of its predecessors are
read as any word that the Felt reads, and where members of other cores hold tasks of it, the L1 is invalidated for its
first dispatch; no other part of the machine changes. That the reads are made then, all at once, is the model's choice
(log entries 69 and 76). R161, R327 to R330: what a launch that passes every check is: each field in its range, and
its working set with distinct names and g registers, within the deckle it tolerates, the segment table and the push-
out area. -/
def Obligations.Launches : Prop :=
  (∀ (id : Nat) (s : State) (l : Launch), s.launchBy id = some l → l.job = none → l.done = false → l.part = s.part →
     (l.jd.toNat % 64 ≠ 0 → ∃ c s1, s.jobWords l.jd = (.error c, s1)) ∧
     (∀ (c : Cause) (s1 : State), s.jobWords l.jd = (.error c, s1) → ∃ (t : State) (f : FaultRec),
       exec (.launchCheck id) s = .next t.noteEligible ∧ t.launches = s1.launches.filter (fun x => x.id != id) ∧
       t.faultLog = s1.faultLog ++ [f] ∧ f.cause = .noJcb ∧ f.detail = l.jd ∧ f.part = l.part ∧
       (l.part.toNat, 1) ∈ t.msi ∧ t.mem = s1.mem ∧ t.posts = s1.posts ∧
       ((∀ fn, fn < 8 → s1.armed fn 2 = false) →
         t = { s1 with launches := t.launches, cancels := t.cancels, fresh := t.fresh,
                       faultLog := s1.faultLog ++ [f], msi := s1.msi ++ [(l.part.toNat, 1)] })) ∧
     (∀ (jw : List Word) (s1 : State), s.jobWords l.jd = (.ok jw, s1) →
       let j := jobOf jw
       (∀ (c : Cause) (s2 : State), s1.wordsAt j.asid j.root l.ld 32 .read j.ten = (.error c, s2) →
         ∃ (t : State) (p : Post), exec (.launchCheck id) s = .next t.noteEligible ∧
           t = { s2 with launches := t.launches, cancels := t.cancels, posts := s2.posts ++ [p] } ∧
           p.jcb = j.jjcb ∧ p.lvl = 4 ∧ p.whole = false ∧ p.status = .poisoned ∧ p.cause = 1 ∧ p.ent = 0xFFFFFFFF) ∧
       (∀ (lw : List Word) (s2 : State), s1.wordsAt j.asid j.root l.ld 32 .read j.ten = (.ok lw, s2) →
        ∀ (table : Option (List (List Word))) (s3 : State),
         s2.wsWords j (wd lw 8) (if wd lw 8 = 0 then 0 else ufield (wd lw 9) 0 5) = (table, s3) →
         let d := launchOf lw ((table.getD []).map wsOf)
         let fails (r : State) (c e : Nat) : Prop :=
           ∃ (t : State) (p : Post) (l1 : Launch), exec (.launchCheck id) s = .next t.noteEligible ∧
             t = { r with launches := t.launches, cancels := t.cancels, kept := t.kept, posts := r.posts ++ [p] } ∧
             p.jcb = d.ljcb ∧ p.lvl = 1 ∧ p.whole = true ∧ p.status = .poisoned ∧ p.cause = c ∧
             p.ent = BitVec.ofNat 32 e ∧ t.launchBy id = some l1 ∧ l1.failed = true ∧ l1.nx = 0 ∧ l1.job = some j
         (∀ c e s4, s3.launchFault l.part jw j l.ld lw table = (some (c, e), s4) → fails s4 c e) ∧
         (∀ s4, s3.launchFault l.part jw j l.ld lw table = (none, s4) →
           (s4.tablesAway j l.jd = true → ∃ t : State, exec (.launchCheck id) s = .next t.noteEligible ∧ t.launches = s.launches ∧
             t.posts = s.posts ∧ t.mem = s.mem) ∧
           (s4.tablesAway j l.jd = false →
             let s5 := s4.pollTables j l.jd
             (∀ (c : Cause) (s6 : State), s5.translate j.asid j.root d.ljcb .write = (.fault c, s6) →
               (c.kind = .served → ∃ t : State, exec (.launchCheck id) s = .next t.noteEligible ∧ t.launches = s.launches ∧
                 t.posts = s.posts ∧ t.mem = s.mem) ∧
               (c.kind ≠ .served → c ≠ .pteBad → fails s6 1 0) ∧ (c = .pteBad → fails (s6.report c d.ljcb) 1 0)) ∧
             (∀ (pa : Nat) (tl : Tlb) (s6 : State), s5.translate j.asid j.root d.ljcb .write = (.ok pa tl, s6) →
               (s6.layerOff pa = true → fails (s6.dropAccess pa) 1 0) ∧
               (s6.layerOff pa = false →
               ∃ (t : State) (l1 : Launch), exec (.launchCheck id) s = .next t.noteEligible ∧ t.launchBy id = some l1 ∧
                 l1.job = some j ∧ l1.desc = some d ∧ l1.nx = d.nx ∧ l1.failed = l.failed ∧ t.posts = s6.posts ∧
                 (s6.cancelOf l.jd d.ljcb = true → l1.cancelled = true) ∧
                 (s6.cancelOf l.jd d.ljcb = false →
                   t.memWord pa = (s6.memWord pa &&& 0x70) ||| (if d.cmpw = true then 0x80 else 0) ∧
                   t.memWord (pa + 8) = BitVec.ofNat 64 (d.nx * d.ny) ∧ t.memWord (pa + 16) = 0 ∧ t.memWord (pa + 24) = 0 ∧
                   t.memWord (pa + 32) = BitVec.ofNat 64 d.nx ∧ t.memWord (pa + 40) = s6.memWord (pa + 40) ∧
                   t.memWord (pa + 48) = (if d.cmpw = true then BitVec.ofNat 64 (d.nx * d.ny * 2 ^ 31) else 0) ∧
                   t.memWord (pa + 56) = s6.memWord (pa + 56) ∧
                   ∀ a, a < pa ∨ pa + 64 ≤ a → t.memByte a = s6.memByte a)))))))) ∧
  (∀ s : State, let t := s.noteEligible
     ((∀ l ∈ s.launches, s.newlyEligible l = false) → t = s) ∧
     (t = { s with launches := t.launches, l1 := t.l1, loopBuf := t.loopBuf, mem := t.mem, tlb := t.tlb, tcache := t.tcache
                   pages := t.pages, misses := t.misses, l2 := t.l2, l2Version := t.l2Version, fresh := t.fresh
                   cmpSaved := t.cmpSaved, hbmSleep := t.hbmSleep, flitLost := t.flitLost, faultLog := t.faultLog
                   msi := t.msi, bar0 := t.bar0, snap := t.snap }) ∧
     t.launches.map (fun x => { x with eligAt := none, started := false }) =
       s.launches.map (fun x => { x with eligAt := none, started := false }) ∧
     (∀ l ∈ s.launches, s.newlyEligible l = true → ∃ m ∈ t.launches, m.id = l.id ∧ m.eligAt ≠ none) ∧
     (∀ l ∈ s.launches, s.newlyEligible l = true → l.started = false → l.away ≠ [] →
       ∀ d, l.desc = some d → d.preds.any (·.erl) = false → t.l1 = [] ∧ t.loopBuf = [])) ∧
  (∀ (s s0 : State) (part : BitVec 3) (jw lw : List Word) (j : JobDesc) (ld : Word) (table : Option (List (List Word))),
     s0.wsWords j (wd lw 8) (if wd lw 8 = 0 then 0 else ufield (wd lw 9) 0 5) = (table, s) →
     (s.launchFault part jw j ld lw table).1 = none →
     ∃ l : List (List Word), table = some l ∧ (wd lw 8 = 0 → l = []) ∧ ufield (wd lw 8) 56 8 = 0 ∧
       let d := launchOf lw (l.map wsOf)
       ld.toNat % 256 = 0 ∧ (wd lw 8).toNat % 32 = 0 ∧ d.code.toNat % 512 = 0 ∧ d.dict.toNat % 128 = 0 ∧
       1 ≤ d.dcnt ∧ d.dcnt ≤ 1024 ∧ 32 ≤ d.vcnt ∧ d.vcnt ≤ 640 ∧ d.vcnt % 32 = 0 ∧ d.mcnt ≤ 8 ∧ 1 ≤ d.swlo ∧
       d.swlo ≤ d.swhi ∧ d.swhi ≤ 16 ∧ 1 ≤ d.nx ∧ d.nx ≤ 65536 ∧ 1 ≤ d.ny ∧ d.ny ≤ 65536 ∧ (d.dim2 = false → d.ny = 1) ∧
       (d.sten = true → d.dim2 = true) ∧ d.h ≤ 8192 ∧ (d.rl = 0 ∨ (d.floor ≤ d.rl ∧ d.rl ≤ 8192)) ∧
       d.ljcb.toNat % 64 = 0 ∧ d.ws.length ≤ 16 ∧ d.floor ≤ 512 * d.swhi ∧ d.segs.length ≤ 256 ∧ d.anchored ≤ 32768 ∧
       (∀ p ∈ d.segs, p.1.name ≠ 0 ∧ 1 ≤ p.1.size ∧ p.1.size ≤ 4096) ∧
       (∀ p ∈ d.segs, ∀ q ∈ d.segs, p.2 ≠ q.2 → p.1.name ≠ q.1.name ∧ p.1.greg ≠ q.1.greg) ∧
       (∀ q ∈ d.stmsk, q.2 < 0 ∨ (q.2 = 0 ∧ q.1 < 0)) ∧ (jobOf jw).asid ≠ 0 ∧ (jobOf jw).ten ≠ 0)

/-- R336 to R338, R342, R344, R345, R352 to R354: the next ready task of a launch is admitted together with everything
it needs, or goes to the member of another core, or fits nowhere and nothing but a reservation changes, or retires
unrun and posts; a launch that needs a core that is offline fails OFFLINE; a dictionary with a malformed entry fails
MALFORMED; the first dispatch of a launch, another member's too, invalidates the L1. How the ageing counts and that a
reservation does not ask for eligibility are the model's reading (log entry 69), and so are what it knows of a task of
another core's member (log entry 70) and that admission waits while a page of the dictionary is absent (log entry 32).
R180, R201, R337, R343: what fitting a task on the core requires: a free context, windows and dictionary entries that
no other task of the core holds, and no retained image holds where there are others, floors within the deckle, a
deckle that every task tolerates, table entries, and free names. -/
def Obligations.AdmissionAndFitting : Prop :=
  (∀ (id : Nat) (s : State) (l : Launch) (j : JobDesc) (d : LaunchDesc) (n : Nat), s.launchBy id = some l →
     l.job = some j → l.desc = some d → l.ready = some n →
     (∀ st c e, s.unrun l d n = some (st, c, e) → ∃ (t : State) (q p : Post), exec (.admission id) s = .next t ∧
       (t = { s with launches := t.launches, posts := s.posts ++ [q, p], preempted := t.preempted, bar0 := t.bar0, msi := t.msi
                     snap := t.snap, fresh := t.fresh }) ∧
       (s.twinOn = false → t = { s with launches := t.launches, posts := s.posts ++ [q, p] }) ∧ q.lvl = 5 ∧ q.jcb = d.ljcb ∧ p.lvl = 1 ∧
       p.jcb = d.ljcb ∧ p.status = st ∧ p.cause = c ∧ p.ent = e ∧ p.launch = id ∧ p.whole = false ∧
       ∀ l1, t.launchBy id = some l1 → n ∈ l1.retired) ∧
     (s.unrun l d n = none → s.preempted.contains l.jd = true → exec (.admission id) s = .next s) ∧
     (s.unrun l d n = none → s.preempted.contains l.jd = false → d.plc = 1 → s.offline l.part d = true →
       ∃ (t : State) (p : Post) (l1 : Launch), exec (.admission id) s = .next t ∧
         t = { s with launches := t.launches, posts := s.posts ++ [p] } ∧ p.lvl = 1 ∧ p.jcb = d.ljcb ∧ p.status = .poisoned ∧
         p.cause = 5 ∧ p.raiseOnly = true ∧ t.launchBy id = some l1 ∧ l1.shut = true) ∧
     (s.unrun l d n = none → s.preempted.contains l.jd = false → ¬ (d.plc = 1 ∧ s.offline l.part d = true) →
      s.mine l d n = false →
       let own := groupOf s.core.toNat
       let core := coreAt own (n % 8)
       (s.groupOfTask l d n ≠ own → ∃ t, exec (.admission id) s = .next t ∧
         let first : Prop := s.eligible l = true ∧ l.started = false ∧ d.preds.any (·.erl) = false
         t = { s with launches := t.launches, l1 := t.l1, loopBuf := t.loopBuf } ∧
         (t.launches = s.launches.map (fun x => if x.id = id then
           { x.take n with away := x.away ++ [n], started := x.started || s.eligible l } else x)) ∧
         (first → t.l1 = [] ∧ t.loopBuf = []) ∧ (¬ first → t.l1 = s.l1 ∧ t.loopBuf = s.loopBuf)) ∧
       (s.groupOfTask l d n = own → s.namesOn core l.jd d = true ∨ s.barrierTaken l d = true →
         exec (.admission id) s = .next s) ∧
       (s.groupOfTask l d n = own → s.namesOn core l.jd d = false → s.barrierTaken l d = false →
         ∃ (t : State) (l1 : Launch), exec (.admission id) s = .next t ∧
           (t = { s with launches := t.launches, bars := t.bars, barHeld := t.barHeld, peers := t.peers, l1 := t.l1
                         loopBuf := t.loopBuf }) ∧
           (t.l1 = s.l1 ∨ t.l1 = []) ∧ t.launchBy id = some l1 ∧ n ∈ l1.away ∧
           (∀ h : Nat, h < 64 → d.barm.getLsbD h = true → (own, h, id) ∈ t.barHeld) ∧
           ∀ p ∈ d.segs, ∃ q ∈ t.peers, q.core = core ∧
             ∃ e ∈ q.segs, e.name = p.1.name ∧ e.size = p.1.size ∧ e.anc = true ∧ e.job = l.jd)) ∧
     (s.unrun l d n = none → s.preempted.contains l.jd = false → ¬ (d.plc = 1 ∧ s.offline l.part d = true) →
      s.mine l d n = true →
       (∀ w, s.fits l d n = some w → w.load = false → ¬ (s.admitTask l d j n w).Seats w.ctx →
         exec (.admission id) s = .next s) ∧
       (∀ w, s.fits l d n = some w → w.load = false → (s.admitTask l d j n w).Seats w.ctx →
         ∃ (t : State) (k : Task), exec (.admission id) s = .next t ∧
           t.ctxAt w.ctx = { Ctx.zero with phase := .admitted, task := some k, vbase := w.vbase, vcnt := d.vcnt,
                                           mbase := w.mbase, mcnt := d.mcnt, dbase := w.dbase, dlim := d.dcnt } ∧
           (k.x, k.y) = l.xy n ∧ k.launch = id ∧ k.jd = l.jd ∧ k.job = j ∧ k.part = l.part ∧ k.h = d.h ∧ k.rl = d.rl ∧
           k.anchored = d.anchored ∧ k.swlo = d.swlo ∧ k.swhi = d.swhi ∧ k.did = d.did ∧ k.ws = d.ws ∧ k.st = .ok ∧
           k.trig = false ∧ k.staged = [] ∧ k.refills = [] ∧
           (∀ c, c ≠ w.ctx → t.ctxAt c = s.ctxAt c) ∧
           (∀ p ∈ d.segs, ∃ e ∈ t.segs, e.ctx = w.ctx ∧ e.name = p.1.name ∧ e.size = p.1.size ∧ e.fmt = p.1.fmt ∧
             e.anc = true ∧ e.job = l.jd ∧ ((∀ x ∈ s.segs, x.ctx ≠ w.ctx) → e.st = .resident)) ∧
           s.SameBeyondSlots t ∧ t.posts = s.posts ∧ t.staging = s.staging ∧ t.dict = s.dict) ∧
       (∀ w, s.fits l d n = some w → w.load = true →
         (∀ s1, s.readDict j d = (.away, s1) → exec (.admission id) s = .next s) ∧
         (∀ e s1, s.readDict j d = (.bad e, s1) → ∃ (t : State) (p : Post), exec (.admission id) s = .next t ∧
           t = { s1 with launches := t.launches, posts := s1.posts ++ [p] } ∧ p.lvl = 1 ∧ p.jcb = d.ljcb ∧
           p.status = .poisoned ∧ p.cause = 6 ∧ p.ent = BitVec.ofNat 32 e ∧ p.raiseOnly = true) ∧
         (∀ ws s1, s.readDict j d = (.entries ws, s1) → ((s1.loadDict d w.dbase ws).admitTask l d j n w).Seats w.ctx →
           ∃ t, exec (.admission id) s = .next t ∧ t = (s1.loadDict d w.dbase ws).admitTask l d j n w ∧
             ∀ (m : Nat) (b : Bundle768), ws[m]? = some b → t.dict.get 0 (w.dbase + m) = b)) ∧
       (s.fits l d n = none → exec (.admission id) s = .next { s with
         reserved := if s.epOf l = 15 ∧ s.reserved = none ∧ (s.emptyCore.fits l d n).isSome = true then some id
           else s.reserved }))) ∧
  (∀ (s : State) (l : Launch) (d : LaunchDesc) (n : Nat) (w : Windows), s.fits l d n = some w →
     s.online = true ∧ groupOf s.core.toNat ∈ s.onlineGroups l d ∧ (s.ctxAt w.ctx).phase = .free ∧ w.vbase % 32 = 0 ∧ w.vbase + d.vcnt ≤ 640 ∧ w.mbase + d.mcnt ≤ 8 ∧
     (∀ h ∈ s.held, (w.vbase + d.vcnt ≤ h.2.2.vbase ∨ h.2.2.vbase + h.2.2.vcnt ≤ w.vbase) ∧
       (w.mbase + d.mcnt ≤ h.2.2.mbase ∨ h.2.2.mbase + h.2.2.mcnt ≤ w.mbase) ∧
       (w.load = true → w.dbase + d.dcnt ≤ h.2.2.dbase ∨ h.2.2.dbase + h.2.2.dlim ≤ w.dbase)) ∧
     (w.load = true → w.dbase + d.dcnt ≤ 1024) ∧
     (w.load = true → (∃ b, b + d.dcnt ≤ 1024 ∧ (∀ h ∈ s.held, b + d.dcnt ≤ h.2.2.dbase ∨ h.2.2.dbase + h.2.2.dlim ≤ b) ∧
         ∀ r ∈ s.dictRuns, b + d.dcnt ≤ r.1 ∨ r.1 + r.2.1 ≤ b) →
       ∀ r ∈ s.dictRuns, w.dbase + d.dcnt ≤ r.1 ∨ r.1 + r.2.1 ≤ w.dbase) ∧
     (w.load = false → ∃ c, d.dcnt ≤ c ∧ (w.dbase, c, d.dict, d.did) ∈ s.dictRuns) ∧
     s.floors + d.floor ≤ 512 * s.sw ∧ d.swlo ≤ s.sw ∧ s.sw ≤ d.swhi ∧
     (∀ h ∈ s.held, h.2.1.swlo ≤ s.sw ∧ s.sw ≤ h.2.1.swhi) ∧ s.segs.length + d.segs.length ≤ 256 ∧
     (∀ e ∈ s.segs, e.anc = true → e.job = l.jd → ∀ p ∈ d.segs, e.name ≠ p.1.name) ∧
     s.held.countP (fun h => h.2.2.phase == .admitted) < (s.bar 0x10400).toNat ∧
     (∀ b ∈ s.barHeld, b.1 = groupOf s.core.toNat → d.barm.getLsbD b.2.1 = true → b.2.2 = l.id) ∧
     (s.reserved = none ∨ s.reserved = some l.id))

/-- R330, R331, R338, R340: once its source is ready, and every earlier entry whose source is ready has begun, staging
of an entry of a task begins: a fill from its global source into the anchored segment, a warm, or nothing to copy for
an entry without a source; the copy takes its place behind those of tasks admitted before it; it changes no register
and no content; an entry whose source is misaligned is abandoned, or skipped for a warm. R339, R341, R344: a staging
copy that met a fault is abandoned, a refill kept for a fill; the first touch of an empty line starts the refill as a
demand copy; look-ahead tasks give way, the youngest first, to a task of an eligible launch that would fit without
them, which is admitted in their place, and become ready again. -/
def Obligations.Staging : Prop :=
  (∀ (i : BitVec 2) (n : Nat) (s : State) (k : Task) (e : WsEntry), (s.ctxAt i).task = some k → k.ws[n]? = some e →
     (s.ctxAt i).phase ≠ .free → (s.ctxAt i).phase ≠ .retiring → k.staged.contains n = false → s.inTurn k n = true →
     (e.kind = 2 ∨ (e.kind = 1 ∧ 2 ≤ e.init) → s.staging.length < 16) →
     let ready : Prop := e.dep = false ∨ ∃ l d, s.launchBy k.launch = some l ∧ l.desc = some d ∧
       ∀ p ∈ d.preds, s.linkMet k.part k.job p = true
     let src := e.src + BitVec.ofNat 64 k.x * e.sx + BitVec.ofNat 64 k.y * e.sy
     (¬ ready → exec (.stagingStart i n) s = .next s) ∧
     (ready → ∃ (t : State) (k1 : Task), exec (.stagingStart i n) s = .next t ∧ (t.ctxAt i).task = some k1 ∧
       (t.ctxAt i).regs = (s.ctxAt i).regs ∧ t.copies = s.copies ∧ t.posts = s.posts ∧
       t.segs.map (fun e => (e.name, e.bytes, e.empty)) = s.segs.map (fun e => (e.name, e.bytes, e.empty)) ∧
       (e.kind = 1 ∧ e.init < 2 → t.staging = s.staging ∧ k1 = { k with staged := k.staged ++ [n] }) ∧
       (e.kind = 3 → t.staging = s.staging ∧ k1 = { k with staged := k.staged ++ [n] }) ∧
       (e.kind = 1 → e.init = 2 → src.toNat % 64 = 0 → k1 = { k with staged := k.staged ++ [n] } ∧ t.mem = s.mem ∧
         ∃ c : Copy, t.staging = stageIn c s.staging ∧ c.kind = .load ∧ c.src = .glob src ∧ c.dst = .own i e.name 0 ∧
           c.nrow = 1 ∧ c.len = 128 * e.size ∧ c.cid = none ∧ c.be = false ∧ c.hint = e.hint ∧ c.entry = some n) ∧
       (e.kind = 1 → e.init = 2 → src.toNat % 64 ≠ 0 → t.staging = s.staging ∧ (s.untraced 6 → t.mem = s.mem) ∧
         k1 = { k with staged := k.staged ++ [n], refills := k.refills ++ [n] }) ∧
       (e.kind = 1 → e.init = 3 → k1 = { k with staged := k.staged ++ [n] } ∧ t.mem = s.mem ∧
         ∃ c : Copy, t.staging = stageIn c s.staging ∧ c.kind = .tileIn ∧ c.dst = .own i e.name 0 ∧ c.cid = none ∧
           c.pfx = Prefix.default ∧ c.entry = some n ∧ ∃ x, c.src = .tile e.src x) ∧
       (e.kind = 2 → e.init ≠ 3 → src.toNat % 64 ≠ 0 → t.staging = s.staging ∧ t.mem = s.mem ∧
         k1 = { k with staged := k.staged ++ [n] }) ∧
       (e.kind = 2 → src.toNat % 64 = 0 → k1 = { k with staged := k.staged ++ [n] } ∧ t.mem = s.mem ∧
         ∃ c : Copy, t.staging = stageIn c s.staging ∧ c.kind = .warm ∧ c.src = .glob src ∧ c.dst = .none ∧
           c.len = 128 * e.size ∧ c.cid = none))) ∧
  ((∀ (i : Nat) (s : State) (c : Copy), s.staging[i]? = some c →
     (c.fault = none → exec (.stagingAbandon i) s = .next s) ∧
     (c.fault ≠ none → ∃ t, exec (.stagingAbandon i) s = .next t ∧ t.staging = s.staging.eraseIdx i ∧
       (c.kind = .warm ∨ s.untraced 6 → t.mem = s.mem) ∧
       (c.fault = some .pteBad → ∃ f ∈ t.faultLog, f.cause = .pteBad) ∧
       (c.fault ≠ some .pteBad → c.kind = .warm ∨ s.untraced 6 → t.faultLog = s.faultLog) ∧
       t.segs.map (fun e => (e.name, e.bytes, e.empty)) = s.segs.map (fun e => (e.name, e.bytes, e.empty)) ∧
       ∀ k, (s.ctxAt c.ctx).task = some k →
         (c.kind = .warm → (t.ctxAt c.ctx).task = some k) ∧
         (c.kind ≠ .warm → (t.ctxAt c.ctx).task = some { k with refills := k.refills ++ [c.entry.getD 0] }))) ∧
   (∀ (i : BitVec 2) (n : Nat) (s : State) (k : Task) (e : WsEntry), (s.ctxAt i).task = some k → k.ws[n]? = some e →
     let due : Prop := k.refills.contains n = true ∧ (s.ctxAt i).phase = .running ∧
       ∃ x, s.seg i e.name = some x ∧ x.wanted = true ∧ ∃ p ∈ x.empty, p.2 = true
     (¬ due → exec (.refill i n) s = .next s) ∧
     (due → ∃ (t : State) (c : Copy), exec (.refill i n) s = .next t ∧ t.copies = s.copies ++ [c] ∧ c.cid = none ∧
       c.ctx = i ∧ c.entry = some n ∧
       c.fault = (if e.init = 2 ∧ (e.globalSrc k.x k.y).toNat % 64 ≠ 0 then some .misalign else none) ∧ t.mem = s.mem ∧ t.staging = s.staging ∧
       (t.ctxAt i).task = some { k with refills := k.refills.filter (· != n) })) ∧
   (∀ s : State,
     let bare := s.revokeAll s.lookaheads
     let wants (l : Launch) : Prop := ∃ d n, l.desc = some d ∧ l.ready = some n ∧ s.eligible l = true ∧
       s.preempted.contains l.jd = false ∧ s.unrun l d n = none ∧ s.fits l d n = none ∧ ∃ w, bare.fits l d n = some w
     ((∀ l ∈ s.launches, ¬ wants l) → exec .lookaheadRevoke s = .next s) ∧
     (∀ (before after : List Launch) (l : Launch) (j : JobDesc) (d : LaunchDesc) (n : Nat),
       s.byPriority = before ++ l :: after → (∀ x ∈ before, ¬ wants x) → wants l → s.launchBy l.id = some l →
       l.job = some j → l.desc = some d → l.ready = some n → (d.plc = 1 → s.offline l.part d = false) →
       let v := s.revokeFor l d n 4
       (∀ w, v.fits l d n = some w → w.load = false → (v.admitTask l d j n w).Seats w.ctx →
         exec .lookaheadRevoke s = .next (v.admitTask l d j n w)) ∧
       (∀ w ws v1, v.fits l d n = some w → w.load = true → v.readDict j d = (.entries ws, v1) →
         ((v1.loadDict d w.dbase ws).admitTask l d j n w).Seats w.ctx →
         exec .lookaheadRevoke s = .next ((v1.loadDict d w.dbase ws).admitTask l d j n w)) ∧
       (∀ c, v.ctxAt c = s.ctxAt c ∨ ((∃ h ∈ s.lookaheads, h.1 = c) ∧ v.ctxAt c = Ctx.zero ∧ (∀ e ∈ v.segs, e.ctx ≠ c) ∧
         ∀ h ∈ s.lookaheads, h.1 = c → ∀ x ∈ v.staging, x.ctx = c → x.task.any (·.adm == h.2.1.adm) = false)) ∧
       (∀ g ∈ s.lookaheads, ∀ h ∈ s.lookaheads, g.2.1.adm < h.2.1.adm → v.ctxAt g.1 = Ctx.zero → v.ctxAt h.1 = Ctx.zero) ∧
       (∀ h ∈ s.lookaheads, v.ctxAt h.1 = Ctx.zero →
         ∃ m, v.launchBy h.2.1.launch = some m ∧ (h.2.1.x + m.nx * h.2.1.y) ∈ m.again) ∧
       v.mem = s.mem ∧ v.posts = s.posts)))

/-- R147, R200, R332, R342, R352: an admitted task is dispatched once its launch is eligible and its fills are done:
its context runs from the first body position at CODE with the arguments, the names, RSEED and zero everywhere else:
registers, flags, loop counters, shapes, the special registers, both windows, and of the context whatever admission
left zero; one that is not to run retires and posts; an enabled trace record says so (R402). R175, R298, R337, R343,
R349: a retired task is released once nothing of it is outstanding: its segments, windows and context are free, and
its status is posted to its launch's JCB; memory and registers of other tasks stay; a launch's last task in the group
frees its barriers. A task that another core's member took retires when that core says so (the model's event, log
entry 70). -/
def Obligations.DispatchAndRelease : Prop :=
  (∀ (i : BitVec 2) (s : State) (k : Task) (l : Launch) (d : LaunchDesc), (s.ctxAt i).task = some k →
     (s.ctxAt i).phase = .admitted → s.launchBy k.launch = some l → l.desc = some d →
     let u := s.unrun l d (k.x + l.nx * k.y)
     (∀ st c e, u = some (st, c, e) → ∃ (t : State) (q p : Post), exec (.dispatch i) s = .next t ∧ t.ctxAt i = Ctx.zero ∧
       t.posts = s.posts ++ [q, p] ∧ q.lvl = 5 ∧ p.lvl = 1 ∧ p.jcb = d.ljcb ∧ p.status = st ∧ p.cause = c ∧ p.ent = e ∧
       (∀ x ∈ t.segs, x.ctx ≠ i) ∧ ∀ x ∈ t.staging, x.ctx = i → x.task.any (·.adm == k.adm) = false) ∧
     (u = none → (s.eligible l = false ∨ s.fillsDone i k = false ∨ s.preempted.contains l.jd = true) →
       exec (.dispatch i) s = .next s) ∧
     (u = none → s.eligible l = true → s.fillsDone i k = true → s.preempted.contains l.jd = false →
       (∀ p ∈ d.segs, ∀ q ∈ d.segs, p.1.greg = q.1.greg → p = q) →
       ∃ t, exec (.dispatch i) s = .next t ∧
         let c := t.ctxAt i
         let o := s.ctxAt i
         c = { o with phase := .running, task := some { k with inp := decide (s.inputStatus k.job d ≠ .ok) }, regs := c.regs,
                      qctl := 0, pc := d.code + 64, npc := d.code + 64 } ∧
         (∀ m : Nat, m < 8 → c.regs.ra (BitVec.ofNat 6 (m + 1)) = d.args.getD m 0) ∧
         (∀ a : AReg, a = 0 ∨ 9 ≤ a.toNat → c.regs.ra a = 0) ∧ (∀ x : KReg, c.regs.rk x = decide (x = 0)) ∧
         (∀ p ∈ d.segs, c.regs.rg p.1.greg = p.1.name) ∧
         (∀ g : GReg, (∀ p ∈ d.segs, p.1.greg ≠ g) → c.regs.rg g = 0) ∧ c.regs.psel = 0 ∧ c.regs.rseed = d.rseed ∧
         (∀ x : BitVec 2, c.regs.lc.get 0 x.toNat = 0 ∧ c.regs.csh.get 0 x.toNat = 0 ∧ c.regs.cshs.get 0 x.toNat = 0 ∧
           c.regs.msh.get 0 x.toNat = 0 ∧ c.regs.mshs.get 0 x.toNat = 0 ∧ c.regs.ssh.get 0 x.toNat = 0 ∧
           c.regs.sshs.get 0 x.toNat = 0) ∧
         c.regs.upk = 0 ∧ c.regs.sfault = 0 ∧ c.regs.cpcause = 0 ∧ c.regs.aPoison = [] ∧ c.regs.shPoison = [] ∧
         (o = { Ctx.zero with phase := .admitted, task := o.task, vbase := o.vbase, vcnt := o.vcnt, mbase := o.mbase
                              mcnt := o.mcnt, dbase := o.dbase, dlim := o.dlim } →
           c = { Ctx.zero with phase := .running, task := c.task, vbase := o.vbase, vcnt := o.vcnt, mbase := o.mbase
                               mcnt := o.mcnt, dbase := o.dbase, dlim := o.dlim, regs := c.regs, pc := d.code + 64
                               npc := d.code + 64 }) ∧
         (∀ x : Nat, (o.mbase ≤ x / 64 ∧ x / 64 < o.mbase + o.mcnt → t.m.get 0 x = 0) ∧
           (x / 64 < o.mbase ∨ o.mbase + o.mcnt ≤ x / 64 → t.m.get 0 x = s.m.get 0 x)) ∧
         (∀ x : Nat, (o.mbase ≤ x / 512 ∧ x / 512 < o.mbase + o.mcnt → t.mscale.get 0 x = 0) ∧
           (x / 512 < o.mbase ∨ o.mbase + o.mcnt ≤ x / 512 → t.mscale.get 0 x = s.mscale.get 0 x)) ∧
         (∀ (cl : BitVec 3) (n : Nat), n < o.vcnt → o.vbase + o.vcnt ≤ 640 → t.v.get 0 (vKey cl (o.vbase + n)) = 0) ∧
         (∀ (cl : BitVec 3) (n : Nat), n < 640 → n < o.vbase ∨ o.vbase + o.vcnt ≤ n →
           t.v.get 0 (vKey cl n) = s.v.get 0 (vKey cl n)) ∧
         (∀ c, c ≠ i → t.ctxAt c = s.ctxAt c) ∧ (s.untraced 1 → t.mem = s.mem) ∧ t.segs = s.segs ∧
         (¬ s.untraced 1 → ∃ r ∈ t.trace, r.kind = 1 ∧ r.core = s.core.toNat ∧ r.ctx = i ∧ r.pos = d.code + 64) ∧
         (l.started = false → d.preds.any (·.erl) = false → t.l1 = []) ∧
         (l.barGroups.contains (groupOf s.core.toNat) = false → ∀ h : Nat, h < 64 → d.barm.getLsbD h = true →
           t.bars.get 0 (64 * groupOf s.core.toNat + h) = 0))) ∧
  ((∀ (i : BitVec 2) (s : State) (k : Task), (s.ctxAt i).task = some k → (s.ctxAt i).phase = .retiring →
     (((∃ c ∈ s.copies, c.ctx = i) ∨ (∃ z ∈ s.zstores, z.ctx = i) ∨ (∃ q ∈ s.reqs, q.ctx = i) ∨
         ∃ e ∈ s.segs, e.ctx = i ∧ e.cpins ≠ 0) →
       exec (.taskRelease (.own i)) s = .next s) ∧
     ((∀ c ∈ s.copies, c.ctx ≠ i) → (∀ z ∈ s.zstores, z.ctx ≠ i) → (∀ q ∈ s.reqs, q.ctx ≠ i) →
       (∀ e ∈ s.segs, e.ctx = i → e.cpins = 0) → (∀ x ∈ s.streams, x.ctx ≠ i) →
       (∀ g ∈ s.groups, g.members.any (s.isMine i) = false) → s.twinOn = false →
       ∃ t, exec (.taskRelease (.own i)) s = .next t ∧ t.ctxAt i = Ctx.zero ∧ (∀ c, c ≠ i → t.ctxAt c = s.ctxAt c) ∧
         t.segs = s.segs.filter (fun e => e.ctx != i) ∧ (s.untraced 2 → t.mem = s.mem) ∧ t.v = s.v ∧ t.dict = s.dict ∧
         ∀ l d, s.launchBy k.launch = some l → l.desc = some d → ∃ (q : List Post) (p : Post), t.posts = s.posts ++ q ++ [p] ∧
           p.lvl = 1 ∧ p.jcb = d.ljcb ∧ p.launch = k.launch ∧ p.status = k.st ∧ (k.st = .poisoned → p.cause = 8) ∧
           (k.st = .cancelled → p.cause = 7) ∧ (k.st = .ok → p.cause = 0) ∧
           (l.trigd.contains (k.x + l.nx * k.y) = true → q = []) ∧
           (l.trigd.contains (k.x + l.nx * k.y) = false → ∃ r, q = [r] ∧ r.lvl = 5 ∧ r.jcb = d.ljcb) ∧
           (l.away = [] → l.retired.length + 1 = l.count → ∀ b ∈ t.barHeld, b.2.2 ≠ k.launch) ∧
           ∀ l1, t.launchBy k.launch = some l1 → (k.x + l.nx * k.y) ∈ l1.retired)) ∧
   (∀ (id n : Nat) (st : BitVec 2) (s : State) (l : Launch) (d : LaunchDesc), s.launchBy id = some l → l.desc = some d →
     (l.away.contains n = false → exec (.taskRelease (.away id n st)) s = .next s) ∧
     (l.away.contains n = true → (∀ p ∈ s.peers, ∀ e ∈ p.segs, e.cpins = 0) →
       ∃ (t : State) (q : List Post) (p : Post) (l1 : Launch), exec (.taskRelease (.away id n st)) s = .next t ∧
         t.posts = s.posts ++ q ++ [p] ∧ p.lvl = 1 ∧ p.jcb = d.ljcb ∧ p.launch = id ∧ (st = 0 → p.status = .ok) ∧
         (st = 1 → p.status = .cancelled) ∧ (2 ≤ st.toNat → p.status = .poisoned) ∧ t.launchBy id = some l1 ∧
         n ∈ l1.retired ∧ n ∉ l1.away ∧ t.segs = s.segs ∧ t.mem = s.mem ∧ (∀ c, t.ctxAt c = s.ctxAt c) ∧
         (s.groupOfTask l d n = groupOf s.core.toNat → ∀ x ∈ t.peers, x.core = coreAt (groupOf s.core.toNat) (n % 8) →
           ∀ e ∈ x.segs, e.job = l.jd → ∀ y ∈ d.segs, e.name ≠ y.1.name))))

/-- R349, R351, R357, R360: what one post does to the words of a JCB: it counts, raises the status and, where that
left OK, gives cause and detail, and sets DONE once the count meets EXP; a trigger counts in TRG alone; with
termination weights WT falls by the weight and DONE is set at zero; a JCB that is DONE changes in nothing; a launch
that fails its first read leaves EXP and CNT 1, TRG and CUR 0, DONE and its cause, whatever stood there. R349, R353,
R428: the oldest post is performed on its JCB in memory; where it completes a launch, the launch posts to its graph,
phase and job in that order, or holds that while the job's JCB cannot be read; on a page that is absent it is held;
where it cannot be performed, a NOJCB record is written, the dispatcher keeps the JCB and counts in it, and the job's
status is raised before anything else is posted; a launch that failed its first read and whose JCB is lost has
completed, and its graph, phase and job get one post each, the job's with the launch's cause. A launch posts to its
graph where GTAB of the job's JCB is not 0, at GTAB + 64 × GRAPH, and to its phase likewise by PTAB (R347). A JCB that
is taken over counts the posts made to its instance so far, and EXP of a graph, phase or job JCB follows what software
raises (R350). Memory changes beside the JCB in AC of the page of the job's JCB alone, where a launch completes. Then
launches that have become eligible are noted. -/
def Obligations.Completion : Prop :=
  (∀ (p : Post) (d : List Word), d.length = 8 → p.cause < 65536 →
     let e := postWords p d
     let st0 := ufield (wd d 0) 0 2
     let st := Nat.max st0 (match p.status with | .ok => 0 | .cancelled => 1 | .poisoned => 2)
     ((wd d 0).getLsbD 2 = true → p.whole = false → e = d) ∧
     ((wd d 0).getLsbD 2 = false → p.lvl = 5 → wd e 3 = wd d 3 + 1 ∧ ∀ i, i ≠ 3 → wd e i = wd d i) ∧
     ((wd d 0).getLsbD 2 = false → p.lvl ≠ 5 → p.whole = false → p.raiseOnly = false →
       ufield (wd e 0) 0 2 = st ∧ ufield (wd e 0) 3 13 = ufield (wd d 0) 3 13 ∧
       (st0 = 0 ∧ st ≠ 0 → ufield (wd e 0) 16 16 = p.cause ∧ ufield (wd e 0) 32 32 = p.ent.toNat) ∧
       (¬ (st0 = 0 ∧ st ≠ 0) → ufield (wd e 0) 16 48 = ufield (wd d 0) 16 48) ∧
       ((wd d 0).getLsbD 7 = false → wd e 2 = wd d 2 + 1 ∧ ((wd e 0).getLsbD 2 = true ↔ (wd d 1).toNat ≤ (wd e 2).toNat) ∧
         ∀ i, i ≠ 0 → i ≠ 2 → wd e i = wd d i) ∧
       ((wd d 0).getLsbD 7 = true → wd e 6 = wd d 6 - BitVec.ofNat 64 p.weight ∧
         ((wd e 0).getLsbD 2 = true ↔ wd e 6 = 0) ∧ ∀ i, i ≠ 0 → i ≠ 6 → wd e i = wd d i)) ∧
     (p.lvl ≠ 5 → p.whole = true → p.raiseOnly = false → p.status = .poisoned →
       ufield (wd e 0) 0 2 = 2 ∧ ufield (wd e 0) 16 16 = p.cause ∧ ufield (wd e 0) 32 32 = p.ent.toNat ∧ (wd e 0).getLsbD 2 = true ∧ wd e 1 = 1 ∧ wd e 2 = 1 ∧ wd e 3 = 0 ∧ wd e 4 = 0)) ∧
  (-- the posts of a launch to its graph and phase, as the tables of the job's JCB give their addresses
   let tables (t : State) (p : Post) (ups : List Post) : Prop :=
     let w := (t.jcbWords p.job p.job.jjcb).getD []
     (∀ l x, t.launchBy p.launch = some l → l.desc = some x → ups.map (fun u => (u.lvl, u.jcb)) =
       (if wd w 4 = 0 then [] else [(2, wd w 4 + BitVec.ofNat 64 (64 * x.graph.toNat))]) ++
       (if wd w 5 = 0 then [] else [(3, wd w 5 + BitVec.ofNat 64 (64 * x.phase.toNat))])) ∧
     ((t.launchBy p.launch).bind (·.desc) = none → ups = [])
   -- a byte that AC of the page of the job's JCB does not touch
   let free (t : State) (p : Post) (a : Nat) : Prop :=
     p.job.jjcb.toNat % 64 = 0 ∧ ∀ e, (t.lookup p.job.asid p.job.root p.job.jjcb).1 = .leaf e → a < e.ent ∨ e.ent + 8 ≤ a
   (∀ s : State, s.posts = [] → exec .jcbPost s = .next s.noteEligible) ∧
   (∀ (s : State) (p : Post) (rest : List Post), s.posts = p :: rest → p.lvl = 6 → p.jcb = p.job.jjcb →
     (∀ (c : Cause) (s1 : State), s.translate p.job.asid p.job.root p.job.jjcb .system = (.fault c, s1) →
       ∃ t : State, exec .jcbPost s = .next t.noteEligible ∧ t.mem = s1.mem ∧ (c.kind = .served → t.posts = p :: rest) ∧
         (c.kind ≠ .served → ∃ q, t.posts = q :: rest ∧ q.lvl = 4 ∧ q.jcb = p.job.jjcb ∧ q.status = p.status)) ∧
     (∀ (pa : Nat) (tl : Tlb) (s1 : State), s.translate p.job.asid p.job.root p.job.jjcb .system = (.ok pa tl, s1) →
       ∃ (t : State) (ups : List Post) (q : Post), exec .jcbPost s = .next t.noteEligible ∧ t.mem = s1.mem ∧ t.posts = ups ++ [q] ++ rest ∧
         q.lvl = 4 ∧ q.jcb = p.job.jjcb ∧ q.status = p.status ∧ tables t p ups ∧
         ∀ u ∈ ups, u.status = p.status)) ∧
   (∀ (s : State) (p : Post) (rest : List Post) (k : KeptJcb), s.posts = p :: rest → p.lvl ≠ 6 →
     s.keptAt p.job.asid p.jcb = some k → ∃ t : State, exec .jcbPost s = .next t.noteEligible ∧
       (p.lvl ≠ 1 → t.mem = s.mem ∧ t.faultLog = s.faultLog) ∧ (∀ a, free t p a → t.memByte a = s.memByte a) ∧
       ∃ x ∈ t.kept, x.asid = k.asid ∧ x.va = k.va ∧ (p.lvl = 1 ∨ p.lvl = 5 → x.exp = k.exp) ∧
         (p.lvl ≠ 1 → p.lvl ≠ 5 → x.exp = ((s.jcbWords p.job p.jcb).map (fun d => wd d 1)).getD k.exp) ∧ (k.done = true → x.done = true) ∧
         (p.lvl = 5 → x.trg = k.trg + 1 ∧ x.cnt = k.cnt) ∧
         (p.lvl ≠ 5 → p.raiseOnly = false → p.weight = 0 → x.cnt = k.cnt + 1 ∧ x.trg = k.trg)) ∧
   ∀ (s : State) (p : Post) (rest : List Post), s.posts = p :: rest → p.lvl ≠ 6 → s.keptAt p.job.asid p.jcb = none →
     let lost (m : Store Byte) : Prop := ∃ t : State, exec .jcbPost s = .next t.noteEligible ∧
       (p.lvl ≠ 1 → t.mem = m) ∧ (∀ a, free t p a → t.memByte a = m.get memDefault a) ∧
       (∃ f ∈ t.faultLog, f.cause = .noJcb ∧ f.detail = p.jcb) ∧ (p.part.toNat, 1) ∈ t.msi ∧
       (∃ k ∈ t.kept, k.asid = p.job.asid ∧ k.va = p.jcb ∧ (2 ≤ p.lvl → p.lvl ≤ 4 → p.raiseOnly = false → p.weight = 0 →
         k.cnt = BitVec.ofNat 64 (s.postedAt p.job.asid p.jcb) + 1)) ∧
       (p.whole = false → p.lvl ≠ 4 → p.jcb ≠ p.job.jjcb → ∃ q, t.posts.head? = some q ∧ q.lvl = 4 ∧ q.jcb = p.job.jjcb ∧
         q.status = .poisoned ∧ q.cause = 11 ∧ q.ent = 0xFFFFFFFF ∧ q.raiseOnly = true) ∧
       (p.whole = true → p.lvl = 1 → p.raiseOnly = false → (∀ l, t.launchBy p.launch = some l → l.done = true) ∧
         (t.jcbWords p.job p.job.jjcb = none → ∃ q, t.posts = q :: rest ∧ q.lvl = 6 ∧ q.jcb = p.job.jjcb ∧
           q.status = .poisoned) ∧
         (t.jcbWords p.job p.job.jjcb ≠ none → ∃ (ups : List Post) (q : Post), t.posts = ups ++ [q] ++ rest ∧ q.lvl = 4 ∧
           q.jcb = p.job.jjcb ∧ q.status = .poisoned ∧ q.cause = p.cause ∧ q.ent = 0xFFFFFFFF ∧ q.raiseOnly = false ∧
           tables t p ups ∧ ∀ u ∈ ups, u.status = .poisoned ∧ u.cause = 10))
     (p.jcb.toNat % 64 ≠ 0 → lost s.mem) ∧
     (p.jcb.toNat % 64 = 0 →
     (∀ (pa : Nat) (tl : Tlb) (s1 : State), s.translate p.job.asid p.job.root p.jcb .write = (.ok pa tl, s1) →
       (s1.layerOff pa = true → lost s1.mem) ∧
       (s1.layerOff pa = false →
       let d := (List.range 8).map (fun i => s1.memWord (pa + 8 * i))
       let e := postWords p d
       let ends : Prop := p.lvl = 1 ∧ (wd e 0).getLsbD 2 = true ∧ (p.whole = true ∨ (wd d 0).getLsbD 2 = false)
       ∃ t : State, exec .jcbPost s = .next t.noteEligible ∧
         (∀ i, i < 8 → (ends → ∀ k, k < 8 → free t p (pa + 8 * i + k)) → t.memWord (pa + 8 * i) = wd e i) ∧
         (∀ a, a < pa ∨ pa + 64 ≤ a → (ends → free t p a) → t.memByte a = s1.memByte a) ∧
         (¬ ends → t.posts = rest ∧ t.launches = s.launches) ∧
         (2 ≤ p.lvl → p.lvl ≤ 4 → p.raiseOnly = false → (wd d 0).getLsbD 2 = false →
           t.postedAt p.job.asid p.jcb = if (wd e 0).getLsbD 2 = true then 0 else s.postedAt p.job.asid p.jcb + 1) ∧
         (p.lvl = 1 → (wd e 0).getLsbD 2 = true → (p.whole = true ∨ (wd d 0).getLsbD 2 = false) →
          t.jcbWords p.job p.job.jjcb = none → ∃ q : Post, t.posts = q :: rest ∧ q.lvl = 6 ∧ q.jcb = p.job.jjcb ∧
           q.status = codeStatus (ufield (wd e 0) 0 2) ∧ ∀ l, t.launchBy p.launch = some l → l.done = true) ∧
         (p.lvl = 1 → (wd e 0).getLsbD 2 = true → (p.whole = true ∨ (wd d 0).getLsbD 2 = false) →
          t.jcbWords p.job p.job.jjcb ≠ none → ∃ (ups : List Post) (q : Post),
           t.posts = ups ++ [q] ++ rest ∧ q.lvl = 4 ∧ q.jcb = p.job.jjcb ∧ q.whole = false ∧ q.raiseOnly = false ∧
           tables t p ups ∧ (∀ u ∈ ups, u.status = q.status) ∧
           (ufield (wd e 0) 0 2 = 0 → q.status = .ok) ∧ (ufield (wd e 0) 0 2 = 1 → q.status = .cancelled) ∧
           (2 ≤ ufield (wd e 0) 0 2 → q.status = .poisoned) ∧ q.cause = (if q.status = .ok then 0 else 10) ∧
           ∀ l, t.launchBy p.launch = some l → l.done = true))) ∧
     (∀ (c : Cause) (s1 : State), s.translate p.job.asid p.job.root p.jcb .write = (.fault c, s1) →
       (c.kind = .served → ∃ t : State, exec .jcbPost s = .next t.noteEligible ∧ t.posts = s1.posts ∧ t.mem = s1.mem ∧
         t.launches = s1.launches ∧ ∃ x ∈ t.parked, x.by_ = .post ∧ x.va = p.jcb ∧ x.cause = c) ∧
       (c.kind ≠ .served → lost s1.mem))))

/-- R348, R354, R355: the oldest cancel is recorded: the launches, graphs, phases or job it names are cancelled, their
admitted tasks are freed and post with status CANCELLED and cause 7, and the JCB it names takes CXL; one whose JCB is
DONE, or that names no instance, has no effect, and it is held while a JCB page it needs is absent; the JCBs that it
asks are read as any word that the Felt reads (R101, R112). That one whose job descriptor is misaligned or cannot be
read has no effect, and that DONE is asked of graphs, phases and jobs, are the model's reading (log entry 25). -/
def Obligations.Cancels : Prop :=
  (∀ s : State, s.cancelQ = [] → exec .cancelApply s = .next s) ∧
  ∀ (s : State) (lvl : Nat) (jd target : Word) (idx : Nat) (rest : List (Nat × Word × Word × Nat)),
    s.cancelQ = (lvl, jd, target, idx) :: rest →
    let s0 : State := { s with cancelQ := rest }
    (∀ (c : Cause) (s1 : State), s0.jobWords jd = (.error c, s1) → exec .cancelApply s = .next s1) ∧
    ∀ (dws : List Word) (s1 : State), s0.jobWords jd = (.ok dws, s1) →
      let j := jobOf dws
      let c : Nat × Word × Word × Nat := (lvl, jd, target, idx)
      (target = 0 → exec .cancelApply s = .next s1) ∧
      (target ≠ 0 → s1.namesInstance j c = true → (∃ va ∈ cancelPages j c, s1.jcbAway j va = true) →
        ∃ va ∈ cancelPages j c, exec .cancelApply s = .next (s.park .post va .pgAbsent j)) ∧
      let r1 := s1.pollAll j (cancelPages j c)
      (target ≠ 0 → (∀ va ∈ cancelPages j c, s1.jcbAway j va = false) →
        (2 ≤ lvl ∧ r1.jcbDone j target = true ∨ r1.namesInstance j c = false) → exec .cancelApply s = .next r1) ∧
      (target ≠ 0 → (∀ va ∈ cancelPages j c, s1.jcbAway j va = false) →
        ¬ (2 ≤ lvl ∧ r1.jcbDone j target = true) → r1.namesInstance j c = true → s.untraced 1 →
        ∃ t, exec .cancelApply s = .next t ∧ c ∈ t.cancels ∧ t.cancelQ = rest ∧
        (lvl ≠ 0 → ∀ (pa : Nat) (tl : Tlb) (s2 : State), r1.translate j.asid j.root target .write = (.ok pa tl, s2) →
          s2.layerOff pa = false → (s2.memWord pa).getLsbD 2 = false → r1.keptAt j.asid target = none →
          t.memWord pa = s2.memWord pa ||| 8 ∧ ∀ a, a < pa ∨ pa + 8 ≤ a → t.memByte a = s2.memByte a) ∧
        (∀ l ∈ s.launches, l.done = false → ∀ lj d, l.job = some lj → l.desc = some d → l.jd = jd →
          let w := (t.jcbWords lj lj.jjcb).getD []
          let named : Prop := (lvl = 1 ∧ target = d.ljcb) ∨
            (lvl = 2 ∧ wd w 4 ≠ 0 ∧ target = wd w 4 + BitVec.ofNat 64 (64 * d.graph.toNat)) ∨
            (lvl = 3 ∧ wd w 5 ≠ 0 ∧ target = wd w 5 + BitVec.ofNat 64 (64 * d.phase.toNat)) ∨ (lvl = 4 ∧ target = lj.jjcb)
          (named → ∃ l1 ∈ t.launches, l1.id = l.id ∧ l1.cancelled = true) ∧
          ∀ (i : BitVec 2) (k : Task), (s.ctxAt i).task = some k → (s.ctxAt i).phase = .admitted →
            s.launchBy k.launch = some l → l.failed = false →
            let n := k.x + l.nx * k.y
            let freed (e : Lane) : Prop := t.ctxAt i = Ctx.zero ∧ (∃ q ∈ t.posts, q.lvl = 5 ∧ q.jcb = d.ljcb) ∧
              (∃ p ∈ t.posts, p.lvl = 1 ∧ p.jcb = d.ljcb ∧ p.launch = l.id ∧ p.status = .cancelled ∧ p.cause = 7 ∧ p.ent = e) ∧
              ∀ l1, t.launchBy l.id = some l1 → n ∈ l1.retired
            (named → (∀ x y, s.taskCancelled l x y = false) → freed 0) ∧
            (lvl = 0 → target = d.ljcb → idx = k.x + 65536 * k.y → l.xy n = (k.x, k.y) → freed (BitVec.ofNat 32 idx))))

/-- R354, R374 to R376: with no request pending a drain point does nothing; with one, once the X-half has issued
everything earlier, a drain point whose conditions hold takes a light save of the task, and another is passed; a
blocked context is saved heavily with its lag record, shelf, queues and latches. That saves wait for outstanding
requests, and what a drain point of a handler asks, are the model's reading (log entries 33 and 71). R162, R343, R375,
R377: once a saved task's copies have completed and no copy pins its segments, these go with its image and its windows
and context are free, on a core that moves after the move (R382); it is resumed where it fits, its image back in the
windows found, or retires where it has been cancelled, a pre-empted job's too (R354), and leaves its groups, or where
its dictionary has become malformed by then (cause 6; the model's choice, log entry 72). That a resume waits while a
page of the dictionary is absent is the model's reading (log entry 32). -/
def Obligations.Preemption : Prop :=
  ((∀ s : State, (s.stopWanted = false ∨ s.ctx.lag ≠ []) → exec .drainPoint s = .next s) ∧
   (∀ (s s1 : State) (b : Bundle) (x : Word), s.ctx.phase = .running → s.frozen = false → s.stopWanted = true →
     s.ctx.lag = [] → s.ctx.drained ≠ some s.ctx.pc → s.expand = .ok (b, x, s1) →
     let confirmed : Prop := b.hdr.ll = false ∧ s1.ctx.flight = [] ∧ (∀ z ∈ s1.ctx.zhist, z.due < s1.ctx.xn) ∧
       (∀ a, s1.ctx.aside = some a → a.flight = [] ∧ a.lag = [] ∧ ∀ z ∈ a.zhist, z.due < a.xn) ∧
       (∀ q ∈ s1.ctx.queues, q.2 = []) ∧ (∀ t ∈ s1.streams, t.ctx ≠ s1.cur) ∧ s1.phaseOn = none
     (b.hdr.dp = false → exec .drainPoint s = .next s) ∧
     (b.hdr.dp = true → ¬ confirmed →
       exec .drainPoint s = .next { s1 with ctx := { s1.ctx with drained := some s1.ctx.pc } }) ∧
     (b.hdr.dp = true → confirmed → s1.ctx.lag = [] → (∀ q ∈ s1.reqs, q.ctx ≠ s1.cur) → (∀ z ∈ s1.zstores, z.ctx ≠ s1.cur) →
       (s1.ctxCancelled s1.cur = false → ∃ (t : State) (im : Image), exec .drainPoint s = .next t ∧ t.ctx.phase = .saved ∧
         t.images = s1.images ++ [im] ∧ im.heavy = false ∧ im.slot = some s1.cur ∧ im.ctx.regs = s1.ctx.regs ∧
         im.ctx.pc = s1.ctx.pc ∧ im.ctx.p = s1.ctx.p ∧ im.ctx.z = s1.ctx.z ∧ im.ctx.rcnt = s1.ctx.rcnt ∧
         im.ctx.task = s1.ctx.task ∧ im.latches = ⟨[], []⟩ ∧ im.streams = [] ∧ (s1.untraced 7 → t.mem = s1.mem) ∧
         t.segs.map (fun e => (e.ctx, e.name, e.bytes, e.empty, e.st)) =
           s1.segs.map (fun e => (e.ctx, e.name, e.bytes, e.empty, e.st)) ∧
         ∀ (cl : BitVec 3) (n : Nat), n < s1.ctx.vcnt → s1.ctx.vbase + s1.ctx.vcnt ≤ 640 →
           im.v.get 0 (vKey cl n) = s1.v.get 0 (vKey cl (s1.ctx.vbase + n))) ∧
       (s1.ctxCancelled s1.cur = true → ∀ k, s1.ctx.task = some k → ∃ t, exec .drainPoint s = .next t ∧
         t.ctx.phase = .retiring ∧ t.ctx.task = some { k with st := k.st.max .cancelled } ∧ t.images = s1.images))) ∧
   (∀ (i : BitVec 2) (s : State) (k : Task), let c := s.ctxAt i
     c.phase = .running → c.task = some k → s.preempted.contains k.jd = true → s.ctxCancelled i = false → s.phase = none →
     s.frozen = false → c.lag ≠ [] →
     (i = s.cur → (∃ q ∈ s.reqs, q.ctx = i) → exec (.heavySave i) s = .next { s with ctx := { s.ctx with halt := true } }) ∧
     ((∀ q ∈ s.reqs, q.ctx ≠ i) → (∀ z ∈ s.zstores, z.ctx ≠ i) →
       (∀ q ∈ c.queues, ∀ e ∈ q.2, e.val ≠ none ∨ (e.src ≠ .load ∧ e.src ≠ .stream)) →
       ∃ (t : State) (im : Image), exec (.heavySave i) s = .next t ∧ t.cur = s.cur ∧ (t.ctxAt i).phase = .saved ∧
         (∀ x, x ≠ i → t.ctxAt x = s.ctxAt x) ∧ (s.untraced 8 → t.mem = s.mem) ∧ t.images = s.images ++ [im] ∧ im.heavy = true ∧
         im.slot = some i ∧ im.ctx.regs = c.regs ∧ im.ctx.pc = c.pc ∧ im.ctx.lag.map (·.pc) = c.lag.map (·.pc) ∧
         im.ctx.flight = c.flight ∧ im.ctx.queues = c.queues ∧ im.ctx.z = c.z ∧ im.ctx.task = c.task ∧
         im.streams = s.streams.filter (fun x => x.ctx == i) ∧ (∀ x ∈ t.streams, x.ctx ≠ i) ∧
         ∀ (cl : BitVec 3) (n : Nat), n < c.vcnt → c.vbase + c.vcnt ≤ 640 →
           im.v.get 0 (vKey cl n) = s.v.get 0 (vKey cl (c.vbase + n))))) ∧
  ((∀ (i : BitVec 2) (s : State), (s.ctxAt i).phase = .saved →
     (s.frozen = true ∨ (∃ c ∈ s.copies, c.ctx = i) ∨ (∃ e ∈ s.segs, e.ctx = i ∧ e.cpins ≠ 0) →
       exec (.preemptTask i) s = .next s) ∧
     (s.frozen = false → (∀ c ∈ s.copies, c.ctx ≠ i) → (∀ e ∈ s.segs, e.ctx = i → e.cpins = 0) → (∀ z ∈ s.zstores, z.ctx ≠ i) → (∀ q ∈ s.reqs, q.ctx ≠ i) →
       ∃ t, exec (.preemptTask i) s = .next t ∧ t.ctxAt i = Ctx.zero ∧ (∀ x, x ≠ i → t.ctxAt x = s.ctxAt x) ∧
         t.segs = s.segs.filter (fun e => e.ctx != i) ∧ s.SameBeyondSlots t ∧ t.barHeld = s.barHeld ∧
         (s.segs.Pairwise (fun e f => e.spoff + e.size ≤ f.spoff ∨ f.spoff + f.size ≤ e.spoff) → s.pushArea % 64 = 0 →
           ∀ e ∈ s.segs, e.ctx = i → e.st ≠ .absent → e.st ≠ .recalling →
             (∀ u, u < 2 * e.size → s.layerOff (s.slotUnit e u) = false) →
             ∀ u, u < 2 * e.size → t.memBytes (s.slotUnit e u) 64 = e.read (64 * u) 64) ∧
         t.images.length = s.images.length ∧
         ∀ (n : Nat) (im : Image), s.images[n]? = some im → ∃ im1, t.images[n]? = some im1 ∧
           (im.slot ≠ some i → im1 = im) ∧
           (im.slot = some i → im1.slot = none ∧ im1.v = im.v ∧ im1.m = im.m ∧ im1.streams = im.streams ∧
             im1.ctx.regs.a = im.ctx.regs.a ∧ im1.ctx.qctl = (s.ctxAt i).qctl ∧ im1.ctx.cidStat = (s.ctxAt i).cidStat ∧
             im1.segs = (s.segs.filter (fun e => e.ctx == i)).map SegEntry.saved))) ∧
   (∀ (n : Nat) (s : State) (im : Image) (k : Task) (l : Launch) (d : LaunchDesc), s.images[n]? = some im →
     im.ctx.task = some k → s.launchBy k.launch = some l → l.desc = some d →
     let s0 : State := { s with images := s.images.eraseIdx n }
     (im.slot ≠ none → exec (.taskResume n) s = .next s) ∧
     (im.slot = none → l.cancelled = true ∨ s.taskCancelled l k.x k.y = true → ∃ (t : State) (q : List Post) (p : Post),
       exec (.taskResume n) s = .next t ∧ t.images = s0.images ∧ t.posts = s.posts ++ q ++ [p] ∧ p.lvl = 1 ∧
       p.jcb = d.ljcb ∧ p.status = k.st.max .cancelled ∧ p.cause = 7 ∧
       (s.taskCancelled l k.x k.y = false → p.ent = 0) ∧
       (s.taskCancelled l k.x k.y = true → p.ent = BitVec.ofNat 32 (k.x + 65536 * k.y)) ∧
       ∀ g ∈ t.groups, g.part = s.part → ∀ m ∈ g.members, m.core = s.core.toNat → m.ctx = 4 + k.adm → False) ∧
     (im.slot = none → l.cancelled = false → s.taskCancelled l k.x k.y = false → s.preempted.contains k.jd = true →
       exec (.taskResume n) s = .next s) ∧
     (im.slot = none → s.preempted.contains k.jd = false →
       (l.cancelled = false → s.taskCancelled l k.x k.y = false → s0.fits l d (k.x + l.nx * k.y) = none →
         exec (.taskResume n) s = .next s) ∧
       (l.cancelled = false → s.taskCancelled l k.x k.y = false → 256 < s.segs.length + im.segs.length →
         exec (.taskResume n) s = .next s) ∧
       (l.cancelled = false → s.taskCancelled l k.x k.y = false → s.segs.length + im.segs.length ≤ 256 →
         ∀ w i s1, s0.fits l d (k.x + l.nx * k.y) = some w → w.load = true → s0.readDict k.job d = (.bad i, s1) →
         ∃ (t : State) (q : List Post) (o p : Post), exec (.taskResume n) s = .next t ∧ t.images = s0.images ∧
           t.posts = s1.posts ++ [o] ++ q ++ [p] ∧ p.lvl = 1 ∧ p.jcb = d.ljcb ∧ p.status = .poisoned ∧ p.cause = 6 ∧
           p.ent = BitVec.ofNat 32 i) ∧
       (l.cancelled = false → s.taskCancelled l k.x k.y = false → s.segs.length + im.segs.length ≤ 256 →
         ∀ w s1, s0.fits l d (k.x + l.nx * k.y) = some w → w.load = true → s0.readDict k.job d = (.away, s1) →
         exec (.taskResume n) s = .next s) ∧
       (l.cancelled = false → s.taskCancelled l k.x k.y = false → s.segs.length + im.segs.length ≤ 256 →
         ∀ w, s0.fits l d (k.x + l.nx * k.y) = some w →
         w.load = false → (s0.restore im w).Seats w.ctx →
         ∃ t, exec (.taskResume n) s = .next t ∧ t.images = s0.images ∧ s.SameBeyondSlots t ∧
           t.ctxAt w.ctx = { im.ctx with phase := .running, vbase := w.vbase, mbase := w.mbase, dbase := w.dbase, quantum := 0,
                                         latches := if im.heavy = true then some im.latches else none } ∧
           (∀ x, x ≠ w.ctx → t.ctxAt x = s.ctxAt x) ∧
           (∀ e ∈ im.segs, ∃ f ∈ t.segs, f.ctx = w.ctx ∧ f.name = e.name ∧ f.size = e.size ∧ f.empty = e.empty ∧
             f.anc = e.anc ∧ f.spoff = e.spoff ∧ (e.anc = false ∨ e.zimg = true → f.bytes = e.bytes) ∧
             (e.anc = true → e.zimg = false → (∀ x ∈ s.segs, e.spoff + e.size ≤ x.spoff ∨ x.spoff + x.size ≤ e.spoff) →
               (∀ u, u < 2 * e.size → s.layerOff (s.slotUnit e u) = false) →
               ∀ u, u < 2 * e.size → f.read (64 * u) 64 = s.memBytes (s.slotUnit e u) 64)) ∧
           (im.ctx.vcnt = d.vcnt → im.v.wf 0 = true → ∀ (cl : BitVec 3) (x : Nat), x < d.vcnt →
             t.v.get 0 (vKey cl (w.vbase + x)) = im.v.get 0 (vKey cl x))))))

/-- R114, R378, R379, R381: a corrected error is counted and changes nothing else; an uncorrectable one poisons its
64-byte unit (or the four lines of its compressed unit: which of the two the model leaves free), its vector register,
a-register, shape, unit of a segment, latch, scale, accumulator row, queue entry or exposed result, and changes no
value; a parity error drops a copy alone; a pipeline error freezes the core, and so does one in a register that
carries no poison (the model's choice, log entry 80); a row is replaced or its page retired; with both copies of a tag
gone every task of the partition stops, the admitted ones too, and its slices are empty. R11, R13, R14, R381, R382,
R397, R398: a frozen core moves to a spare of its own die that none has taken, which takes its logical number and
keeps every segment and every task whose image passed, and until then stays frozen; only where the die has none left
is it offline; a slice is replaced by a spare, or retired once none is left, and its lines go, with every line of its
partition where it is retired; both are asked to be replaced soon, and the map keeps what had no spare. R398, R399:
throttling a die changes nothing that a program computes (whether HLTH then tells of a hot die is a free value of the
model from the tenth time on, log entry 28); a power cap of 500 to 3,000 W is taken and any other ignored; at a
shutdown point running tasks stop with cause CORE and the module holds itself in reset: what a step is then is the
model's reading (log entry 55). -/
def Obligations.ErrorsSparesAndPower : Prop :=
  (∀ s : State,
     (∀ (n k : Nat) (a : AReg) (i : BitVec 2) (name : BitVec 16), ∀ x ∈ [SoftTarget.memUnit n true, .vecReg n k true, .aReg a true,
         .shape n true, .segUnit i name n true, .queueEntry n k true, .transit n true, .stationary n true, .accumulator n true,
         .shelf n true, .asideShelf n true, .scale n true, .smallReg true], exec (.softError x) s = .next { s with corrected := s.corrected + 1 }) ∧
     (∀ pa : Nat, ∃ t, exec (.softError (.memUnit pa false)) s = .next t ∧
       t = { s with memPoison := t.memPoison, fresh := s.fresh + 1 } ∧
       ((∀ u, t.memPoison.get false u = (s.memPoison.get false u || u == pa / 64)) ∨
         (∀ u, t.memPoison.get false u = (s.memPoison.get false u || u / 8 == pa / 512)))) ∧
     (∀ cl phys : Nat, cl < 8 → phys < 640 → ∃ t, exec (.softError (.vecReg cl phys false)) s = .next t ∧
       t = { s with vPoison := t.vPoison } ∧ t.vPoison.get false (640 * cl + phys) = true ∧
       ∀ k, k ≠ 640 * cl + phys → t.vPoison.get false k = s.vPoison.get false k) ∧
     (∀ a : AReg, a ≠ 0 → ∃ t, exec (.softError (.aReg a false)) s = .next t ∧
       t = { s with ctx := { s.ctx with regs := { s.ctx.regs with aPoison := t.ctx.regs.aPoison } } } ∧
       t.ctx.regs.aPoison.get false a.toNat = true ∧
       ∀ b : AReg, b ≠ a → t.ctx.regs.aPoison.get false b.toNat = s.ctx.regs.aPoison.get false b.toNat) ∧
     (∀ k : Nat, k < 24 → ∃ t, exec (.softError (.shape k false)) s = .next t ∧
       t = { s with ctx := { s.ctx with regs := { s.ctx.regs with shPoison := t.ctx.regs.shPoison } } } ∧
       ∀ j, t.ctx.regs.shPoison.get false j = (s.ctx.regs.shPoison.get false j || j == k)) ∧
     (∀ (i : BitVec 2) (name : BitVec 16) (u : Nat) (e : SegEntry), s.seg i name = some e → e.here = true → u < 2 * e.size →
       ∃ (t : State) (e1 : SegEntry), exec (.softError (.segUnit i name u false)) s = .next t ∧ t = { s with segs := t.segs } ∧
         t.seg i name = some e1 ∧ e1 = { e with poison := e1.poison } ∧
         ∀ j, e1.poison.get false j = (e.poison.get false j || j == u)) ∧
     (∀ k : Nat,
       (k < 128 → ∃ t, exec (.softError (.transit k false)) s = .next t ∧ t = { s with vPoison := t.vPoison } ∧
         ∀ j, t.vPoison.get false j = (s.vPoison.get false j || j == 5120 + k)) ∧
       (k < 512 → ∃ t, exec (.softError (.stationary k false)) s = .next t ∧ t = { s with mPoison := t.mPoison } ∧
         ∀ j, t.mPoison.get false j = (s.mPoison.get false j || j == k)) ∧
       (k < 256 → ∃ t, exec (.softError (.accumulator k false)) s = .next t ∧
         t = { s with ctx := { s.ctx with zPoison := t.ctx.zPoison } } ∧
         ∀ j, t.ctx.zPoison.get false j = (s.ctx.zPoison.get false j || j == k)) ∧
       (∃ t, exec (.softError (.shelf k false)) s = .next t ∧ t = { s with ctx := { s.ctx with flight := t.ctx.flight } } ∧
         t.ctx.flight.length = s.ctx.flight.length ∧
         ∀ (j : Nat) (f : Flight), s.ctx.flight[j]? = some f →
           t.ctx.flight[j]? = some (if j = k then { f with poison := true } else f)) ∧
       (k < 128 → ∃ t, exec (.softError (.scale k false)) s = .next t ∧ t = { s with mPoison := t.mPoison } ∧
         ∀ j, t.mPoison.get false j = (s.mPoison.get false j || j / 4 == k)) ∧
       (∀ a : Aside, s.ctx.aside = some a → ∃ (t : State) (b : Aside), exec (.softError (.asideShelf k false)) s = .next t ∧
         t = { s with ctx := { s.ctx with aside := some b } } ∧ b = { a with flight := b.flight } ∧
         b.flight.length = a.flight.length ∧ ∀ (j : Nat) (f : Flight), a.flight[j]? = some f →
           b.flight[j]? = some (if j = k then { f with poison := true } else f)) ∧
       (∀ n : Nat, ∃ t, exec (.softError (.queueEntry n k false)) s = .next t ∧
         t = { s with ctx := { s.ctx with queues := t.ctx.queues } } ∧
         ∀ (j : Nat) (e : QEntry), (s.ctx.queue n)[j]? = some e →
           (t.ctx.queue n)[j]? = some (if j = k then { e with poison := true } else e))) ∧
     (∃ t, exec (.softError .parity) s = .next t ∧
       t = { s with l1 := t.l1, tlb := t.tlb, tcache := t.tcache, fresh := s.fresh + 1 } ∧ t.l1.Sublist s.l1 ∧
       t.tlb.Sublist s.tlb ∧ t.tcache.Sublist s.tcache ∧
       s.l1.length + s.tlb.length + s.tcache.length ≤ t.l1.length + t.tlb.length + t.tcache.length + 1) ∧
     (∀ x ∈ [SoftTarget.coreState, .smallReg false], ∃ t, exec (.softError x) s = .next t ∧ t.frozen = true ∧
       t.mem = s.mem ∧ t.ctx = s.ctx ∧ t.others = s.others ∧ t.segs = s.segs) ∧
     (∀ pa : Nat, (∃ t, exec (.softError (.row pa true)) s = .next t ∧ t.mem = s.mem ∧ t.corrected = s.corrected + 1 ∧
         t.boot.repairs = s.boot.repairs ++ [.row pa] ∧ t.retiredPages = s.retiredPages) ∧
       (∃ t, exec (.softError (.row pa false)) s = .next t ∧ t.mem = s.mem ∧ t.corrected = s.corrected + 1 ∧
         pa / 65536 ∈ t.retiredPages ∧ (pa / 65536 ∉ s.retiredPages → .page (pa / 65536) ∈ t.boot.repairs) ∧ (t.barAt 0 0x40008).getLsbD 0 = true)) ∧
     (∀ n : Nat, exec (.softError (.l2Tag n false)) s =
       exec (.sliceSpare (BitVec.ofNat 9 n) true) { s with corrected := s.corrected + 1 }) ∧
     (∀ n : Nat, s.ctx.phase = .running → ∃ t, exec (.softError (.l2Tag n true)) s = .next t ∧ t.l2 = [] ∧ t.mem = s.mem ∧
       t.ctx.phase = .retiring ∧ ∃ f ∈ t.faultLog, f.cause = .l2Lost ∧ f.ctx = s.cur) ∧
     (∀ (n : Nat) (i : BitVec 2) (k : Task) (l : Launch) (d : LaunchDesc), (s.ctxAt i).phase = .admitted →
       (s.ctxAt i).task = some k → s.launchBy k.launch = some l → l.desc = some d →
       ∃ t, exec (.softError (.l2Tag n true)) s = .next t ∧ t.ctxAt i = Ctx.zero ∧
         ∃ p ∈ t.posts, p.lvl = 1 ∧ p.jcb = d.ljcb ∧ p.launch = k.launch ∧ p.status = .poisoned)) ∧
  ((∀ (spare : Option (BitVec 10)) (images : BitVec 4) (s : State),
     (s.frozen = false → exec (.coreMigration spare images) s = .next s)) ∧
   (∀ (p : BitVec 10) (s : State), s.frozen = true → s.phase = none →
     let d := dieOf s.core.toNat
     (s.spareCores.get 0 d ≠ 0 → ∀ images, (s.freeSpare d p = false → exec (.coreMigration (some p) images) s = .next s) ∧
       exec (.coreMigration none images) s = .next s) ∧
     (s.spareCores.get 0 d ≠ 0 → s.freeSpare d p = true → ∃ t, exec (.coreMigration (some p) 0xF) s = .next t ∧ t.frozen = false ∧ t.phys = p ∧
       t.core = s.core ∧ t.online = s.online ∧ t.spareCores.get 0 d = s.spareCores.get 0 d - 1 ∧ t.segs = s.segs ∧
       t.v = s.v ∧ t.m = s.m ∧ (s.untraced 11 → t.mem = s.mem) ∧ t.bars = s.bars ∧ t.ctx.regs = s.ctx.regs ∧ t.ctx.pc = s.ctx.pc ∧
       t.ctx.lag = s.ctx.lag ∧ t.ctx.task = s.ctx.task ∧ t.copies = s.copies ∧ t.l1 = [] ∧ t.tlb = [] ∧
       .core s.core.toNat p ∈ t.boot.repairs ∧ (t.barAt 0 0x40008).getLsbD 0 = true) ∧
     (s.freeSpare d p = true → 512 + 16 * d ≤ p.toNat ∧ p.toNat < 512 + 16 * d + 16 ∧
       ∀ c, .core c p ∉ s.boot.repairs) ∧
     (s.spareCores.get 0 d = 0 → s.ctx.phase = .running → ∀ q, ∃ t, exec (.coreMigration q 0xF) s = .next t ∧
       t.online = false ∧ .offline s.core.toNat ∈ t.boot.repairs ∧ t.frozen = false ∧ t.ctx.phase = .retiring ∧ (∃ f ∈ t.faultLog, f.cause = .core) ∧
       (t.barAt 0 0x40008).getLsbD 0 = true)) ∧
   (∀ (slice : BitVec 9) (spare : Bool) (s : State),
     (s.sliceOut.get false slice.toNat = true ∨ (s.spareSlices.get 0 (slice.toNat / 128) ≠ 0 ∧ spare = false) →
       exec (.sliceSpare slice spare) s = .next s) ∧
     (s.sliceOut.get false slice.toNat = false → spare = true → s.spareSlices.get 0 (slice.toNat / 128) ≠ 0 →
       ∃ t, exec (.sliceSpare slice spare) s = .next t ∧ t.mem = s.mem ∧ t.sliceOut = s.sliceOut ∧
         t.l2 = s.l2.filter (fun l => l.slice != slice.toNat) ∧
         t.spareSlices.get 0 (slice.toNat / 128) = s.spareSlices.get 0 (slice.toNat / 128) - 1 ∧ t.segs = s.segs ∧
         t.ctx.regs = s.ctx.regs ∧ .slice slice.toNat ∈ t.boot.repairs ∧
         ∀ w ∈ s.ctx.watch.lines, (∃ l ∈ s.l2, l.line = w.1 ∧ l.slice = slice.toNat) → t.ctx.watch.lost = true) ∧
     (s.sliceOut.get false slice.toNat = false → s.spareSlices.get 0 (slice.toNat / 128) = 0 →
       ∃ t, exec (.sliceSpare slice spare) s = .next t ∧ t.sliceOut.get false slice.toNat = true ∧
         t.mem = s.mem ∧ t.ctx.regs = s.ctx.regs ∧ .sliceGone slice.toNat ∈ t.boot.repairs ∧
         (s.partOf (groupOf slice.toNat) = some s.part →
           t.l2 = [] ∧ (s.ctx.watch.lines ≠ [] → t.ctx.watch.lost = true)) ∧
         (s.partOf (groupOf slice.toNat) ≠ some s.part → t.l2 = s.l2.filter (fun l => l.slice != slice.toNat) ∧
           ((∀ w ∈ s.ctx.watch.lines, s.homeSlice (128 * w.1) ≠ slice.toNat ∧
               ∀ l ∈ s.l2, l.line = w.1 → l.slice ≠ slice.toNat) →
             s.ctx.watch.bare = [] → t.ctx.watch = s.ctx.watch)) ∧
         (t.barAt 0 0x40008).getLsbD 0 = true))) ∧
  (∀ s : State,
     (∀ die : BitVec 5, ∃ t u, exec (.thermalThrottle die) s = .next t ∧
       t = { s with throttled := t.throttled, hot := t.hot, fresh := s.fresh + 1, bar0 := t.bar0, msi := t.msi, mgmt := t.mgmt } ∧
       t.hot.get 0 die.toNat = s.hot.get 0 die.toNat + 1 ∧
       (s.hot.get 0 die.toNat + 1 < 10 → t.bar0 = s.bar0 ∧ t.msi = s.msi ∧ t.mgmt = s.mgmt) ∧
       (t.barAt 0 0x40008 = s.barAt 0 0x40008 ∨
         ((t.barAt 0 0x40008).getLsbD 0 = true ∧ (t.barAt 0 0x40008).getLsbD 4 = true)) ∧
       t.throttled.get false die.toNat = true ∧ exec (.throttleRelease die) s = .next u ∧
       u = { s with throttled := u.throttled } ∧ u.throttled.get false die.toNat = false) ∧
     (∀ v : Word, (500 ≤ ufield v 0 12 ∧ ufield v 0 12 ≤ 3000 → ∃ t, exec (.pwrcapWrite v) s = .next t ∧
         t = { s with bar0 := t.bar0 } ∧ (t.barAt 0 0x40010).toNat = ufield v 0 12) ∧
       (¬ (500 ≤ ufield v 0 12 ∧ ufield v 0 12 ≤ 3000) → exec (.pwrcapWrite v) s = .next s)) ∧
     (∀ die : BitVec 5, ∃ t, exec (.thermalShutdown die) s = .next t ∧ t.inReset = true ∧ t.mem = s.mem ∧
       (s.ctx.phase = .running → t.ctx.phase = .retiring ∧ ∃ f ∈ t.faultLog, f.cause = .core) ∧
       (t.agenda = [] → step t = .fault .heldInReset)))

/-- R386, R387: a slot takes the word written, but for a word 0 handed over again, which is dropped and counted; the
device takes the next slot once its word 0 is owned with the expected SEQ, and completes it with OWN = 0, the same
KIND, LVL and SEQ, its STS, vector 0 and the next slot in MBSTAT; a reserved kind is BADREC. R325, R344, R354, R361,
R386, R387, R404: what each record does where the slot it stands in is the next: a launch enters the table or is BUSY,
a cancel is queued, a job is pre-empted or may go on, a queue is created or destroyed; each completes its slot with
its status. -/
def Obligations.Mailboxes : Prop :=
  ((∀ (slot : BitVec 8) (word : BitVec 2) (v : Word) (s : State),
     let off := 32 * slot.toNat + 8 * word.toNat
     let again : Prop := word = 0 ∧ v.getLsbD 7 = true ∧ (s.bar (32 * slot.toNat)).getLsbD 7 = true
     (¬ again → ∃ t, exec (.mailboxSlotWrite slot word v) s = .next t ∧ t = { s with bar0 := t.bar0 } ∧ t.bar off = v ∧
       ∀ o, o ≠ off → o < 2097152 → t.bar o = s.bar o) ∧
     (again → ∃ t, exec (.mailboxSlotWrite slot word v) s = .next t ∧ t = { s with bar0 := t.bar0 } ∧
       ufield (t.bar 0x2000) 32 16 = (ufield (s.bar 0x2000) 32 16 + 1) % 65536 ∧
       ufield (t.bar 0x2000) 0 16 = ufield (s.bar 0x2000) 0 16 ∧ ∀ o, o ≠ 0x2000 → o < 2097152 → t.bar o = s.bar o)) ∧
   (∀ s : State,
     let st := s.bar 0x2000
     let n := ufield st 0 8
     let w0 := s.bar (32 * n)
     (w0.getLsbD 7 = false ∨ ufield w0 8 8 ≠ ufield st 8 8 → (∀ p : BitVec 3, p ≠ s.part → s.mbHeadOf p = none) → exec .badrec s = .next s ∧ exec .launch s = .next s) ∧
     (w0.getLsbD 7 = true → ufield w0 8 8 = ufield st 8 8 → (ufield w0 0 4 = 0 ∨ 8 < ufield w0 0 4) →
       ∃ t, exec .badrec s = .next t ∧ t = { s with bar0 := t.bar0, msi := s.msi ++ [(s.part.toNat, 0)] } ∧
         ufield (t.bar (32 * n)) 0 7 = ufield w0 0 7 ∧ (t.bar (32 * n)).getLsbD 7 = false ∧
         ufield (t.bar (32 * n)) 8 8 = ufield w0 8 8 ∧
         ufield (t.bar (32 * n)) 16 8 = (if s.barAt 0 (0x30000 + 8 * s.part.toNat) = 0 then 3 else 2) ∧
         ufield (t.bar 0x2000) 0 8 = (n + 1) % 256 ∧
         ufield (t.bar 0x2000) 8 8 = (if n = 255 then (ufield st 8 8 + 1) % 256 else ufield st 8 8)))) ∧
  (∀ (s : State) (n : Nat) (w : List Word), s.mbHead = some (n, w) → s.barAt 0 (0x30000 + 8 * s.part.toNat) ≠ 0 →
     s.twinOn = false →
     let k := ufield (wd w 0) 0 8
     let plain : Prop := ufield (wd w 0) 24 40 = 0
     let done (t : State) (sts : Nat) : Prop := (t.bar (32 * n)).getLsbD 7 = false ∧ ufield (t.bar (32 * n)) 16 8 = sts ∧
       ufield (t.bar (32 * n)) 0 7 = ufield (wd w 0) 0 7 ∧ ufield (t.bar (32 * n)) 8 8 = ufield (wd w 0) 8 8 ∧
       ufield (t.bar 0x2000) 0 8 = (n + 1) % 256 ∧ t.msi = s.msi ++ [(s.part.toNat, 0)]
     (k = 0x81 → plain → wd w 3 = 0 →
       (s.launches.countP (fun l => l.part == s.part && !l.done) < 4096 → ∃ (t : State) (l : Launch),
         exec .launch s = .next t ∧ done t 0 ∧ l.part = s.part ∧ l.jd = wd w 1 ∧ l.ld = wd w 2 ∧ l.job = none ∧
         l.done = false ∧
         t = { s with bar0 := t.bar0, msi := t.msi, launches := s.launches ++ [l], fresh := s.fresh + 1 }) ∧
       (4096 ≤ s.launches.countP (fun l => l.part == s.part && !l.done) → ∃ t, exec .launch s = .next t ∧ done t 1 ∧
         t = { s with bar0 := t.bar0, msi := t.msi })) ∧
     (k = 0x81 → plain → wd w 3 ≠ 0 → ∃ t, exec .launch s = .next t ∧ done t 2 ∧ t = { s with bar0 := t.bar0, msi := t.msi }) ∧
     (∀ lvl : Nat, lvl ≤ 4 → k = 0x82 + 16 * lvl → plain → ufield (wd w 3) 32 32 = 0 → (lvl ≠ 0 → ufield (wd w 3) 0 32 = 0) →
       ∃ t, exec .cancel s = .next t ∧ done t 0 ∧
         t = { s with bar0 := t.bar0, msi := t.msi, cancelQ := s.cancelQ ++ [(lvl, wd w 1, wd w 2, ufield (wd w 3) 0 32)] }) ∧
     (k = 0x83 → plain → ∃ t, exec .preempt s = .next t ∧ done t 0 ∧ wd w 1 ∈ t.preempted ∧
       (∀ x ∈ s.preempted, x ∈ t.preempted) ∧ t.mem = s.mem ∧
       ∀ (i : BitVec 2) (x : Task), (s.ctxAt i).task = some x →
         (x.jd = wd w 1 → (s.ctxAt i).phase = .admitted → t.ctxAt i = Ctx.zero ∧ ∀ e ∈ t.segs, e.ctx ≠ i) ∧
         (x.jd ≠ wd w 1 ∨ (s.ctxAt i).phase ≠ .admitted → t.ctxAt i = s.ctxAt i)) ∧
     (k = 0x84 → plain → ∃ t, exec .resume s = .next t ∧ done t 0 ∧
       t = { s with bar0 := t.bar0, msi := t.msi, preempted := s.preempted.filter (fun x => x != wd w 1) }) ∧
     (k = 0x87 → plain → (wd w 1).toNat < 256 → (wd w 2).toNat % 32 = 0 → 1 ≤ (wd w 3).toNat → (wd w 3).toNat < 2 ^ 20 →
       let idx : BitVec 8 := (wd w 1).setWidth 8
       (s.enqQ s.part idx = none → ∃ (t : State) (q : EnqQ), exec .qcreate s = .next t ∧ done t 0 ∧
         t = { s with bar0 := t.bar0, msi := t.msi, enqs := s.enqs ++ [q] } ∧ q.part = s.part ∧ q.idx = idx ∧ q.gen = 0 ∧
         q.exists_ = true ∧ q.ring = [] ∧ q.ringVa = wd w 2 ∧ q.cap = (wd w 3).toNat ∧
         t.bar (32 * n + 8) = BitVec.ofNat 64 (idx.toNat + 65536 * s.part.toNat)) ∧
       (∀ q, s.enqQ s.part idx = some q → q.exists_ = true → ∃ t, exec .qcreate s = .next t ∧ done t 32 ∧
         t = { s with bar0 := t.bar0, msi := t.msi })) ∧
     (k = 0x88 → plain → ufield (wd w 1) 19 5 = 0 → ufield (wd w 1) 32 32 = 0 →
       let idx : BitVec 8 := (wd w 1).setWidth 8
       (s.enqQ s.part idx = none → ∃ t, exec .qdestroy s = .next t ∧ done t 33 ∧ t = { s with bar0 := t.bar0, msi := t.msi }) ∧
       (∀ q, s.enqQ s.part idx = some q → q.exists_ = true →
         wd w 1 = BitVec.ofNat 64 (idx.toNat + 256 * q.gen.toNat + 65536 * s.part.toNat) →
         ∃ t, exec .qdestroy s = .next t ∧ done t 0 ∧ t = { s with bar0 := t.bar0, msi := t.msi, enqs := t.enqs } ∧
           t.enqQ s.part idx = some { q with exists_ := false, gen := q.gen + 1 })))

/-- R73, R92, R387: TBIND refuses a descriptor that is not valid, or that is bound, and TUNBIND one that is not bound,
with its status and nothing changed but what reading the descriptor does; a region that runs past the address space is
NOTMAPPED; TBIND of a tensor of one page seals that page's leaf and sets BND; TUNBIND clears both and moves the
generation on; before either writes the descriptor, DT of its page is set. A record whose descriptor's page is behind
a miss waits (R75). That other fields out of their values answer NOTVALID too is the model's choice (log entry 58). -/
def Obligations.TensorBinding : Prop :=
  (∀ (s : State) (n : Nat) (w : List Word) (s1 : State), s.mbHead = some (n, w) →
    s.barAt 0 (0x30000 + 8 * s.part.toNat) ≠ 0 → s.twinOn = false → ufield (wd w 0) 24 40 = 0 →
    ufield (wd w 1) 12 52 = 0 → s.descriptor (ufield (wd w 1) 0 12) = .waits s1 →
    (ufield (wd w 0) 0 8 = 0x85 → exec .tbind s = .next s1) ∧ (ufield (wd w 0) 0 8 = 0x86 → exec .tunbind s = .next s1)) ∧
  ∀ (s : State) (n : Nat) (w d : List Word) (pa : Nat) (s1 : State), s.mbHead = some (n, w) →
    s.barAt 0 (0x30000 + 8 * s.part.toNat) ≠ 0 → s.twinOn = false → ufield (wd w 0) 24 40 = 0 →
    ufield (wd w 1) 12 52 = 0 → s1.layerOff pa = false → s.descriptor (ufield (wd w 1) 0 12) = .ok (d, pa) s1 →
    let idx := ufield (wd w 1) 0 12
    let va := s1.descVa s1.part idx
    let done (t : State) (sts : Nat) : Prop := (t.bar (32 * n)).getLsbD 7 = false ∧ ufield (t.bar (32 * n)) 16 8 = sts
    let quiet : Prop := s1.reqs = [] ∧ s1.zstores = [] ∧ s1.ctx.watch.staged = [] ∧ ∀ c ∈ s1.others, c.2.watch.staged = []
    -- apart from the table entry of the descriptor's page, whose AC and DT the write of the descriptor sets
    let apart (t : State) (a : Nat) : Prop :=
      ∀ e, (s1.lookup 0 s1.sysRootOf va).1 = .leaf e ∨ (t.lookup 0 t.sysRootOf va).1 = .leaf e → a < e.ent ∨ e.ent + 8 ≤ a
    let dirty (t : State) : Prop := ∀ e, t.tlb.find? (fun x => x.covers 0 va) = some e → e.dt = true
    (ufield (wd w 0) 0 8 = 0x85 → (∀ b ∈ s1.bound, b.part = s1.part → b.idx = idx → b.opening = false) →
      ((wd d 0).getLsbD 0 = false → ∃ t, exec .tbind s = .next t ∧ done t 16 ∧ t = { s1 with bar0 := t.bar0, msi := t.msi }) ∧
      (badTensor d = false → (wd d 0).getLsbD 1 = true → ∃ t, exec .tbind s = .next t ∧ done t 17 ∧
        t = { s1 with bar0 := t.bar0, msi := t.msi }) ∧
      (badTensor d = false → (wd d 0).getLsbD 1 = false → (wd d 0).getLsbD 2 = false →
        2 ^ 56 < (wd d 1).toNat + tensorSize d → ∃ t, exec .tbind s = .next t ∧ done t 18 ∧
        t = { s1 with bar0 := t.bar0, msi := t.msi }) ∧
      (badTensor d = false → (wd d 0).getLsbD 1 = false → (wd d 0).getLsbD 2 = false → tensorSize d ≤ 65536 →
        ∀ x, s1.rawWalk 0 s1.sysRootOf (wd d 1) = .leaf x → x.kind = 0 → x.sl = false → quiet →
        (pa + 64 ≤ x.ent ∨ x.ent + 8 ≤ pa) →
        ∃ t, exec .tbind s = .next t ∧ done t 0 ∧
          ((∀ k, k < 8 → apart t (x.ent + k)) → t.memWord x.ent = s1.memWord x.ent ||| 0x80) ∧
          t.memWord pa = wd d 0 ||| 2 ∧ dirty t ∧
          (∀ a, (a < pa ∨ pa + 8 ≤ a) → (a < x.ent ∨ x.ent + 8 ≤ a) → apart t a → t.memByte a = s1.memByte a) ∧
          t.bound = s1.bound ++ [⟨s1.part, idx, (wd d 1).toNat, tensorSize d, false, false, [x.ent]⟩] ∧
          ∀ y ∈ t.tlb, y.covers 0 va = false →
            y.ent ≠ x.ent ∧ ¬ (y.asid = 0 ∧ y.va < (wd d 1).toNat + tensorSize d ∧ (wd d 1).toNat < y.va + y.size))) ∧
    (ufield (wd w 0) 0 8 = 0x86 → (∀ b ∈ s1.bound, b.part = s1.part → b.idx = idx → b.closing = false) →
      let s2 := (s1.sysDirty s1.part va).feltWrite pa (natBytes 8 (wd d 0 &&& ~~~(2#64)).toNat) 0 false
      ((wd d 0).getLsbD 1 = false → ∃ t, exec .tunbind s = .next t ∧ done t 21 ∧ t = { s1 with bar0 := t.bar0, msi := t.msi }) ∧
      ((wd d 0).getLsbD 1 = true → quiet →
        ∀ x, s2.leaves s.part (unitsOfRun (wd d 1).toNat (tensorSize d)) = some [x] → s1.layerOff x.ent = false →
          (pa + 64 ≤ x.ent ∨ x.ent + 8 ≤ pa) →
        ∃ t, exec .tunbind s = .next t ∧ done t 0 ∧
          ((∀ k, k < 8 → apart t (x.ent + k)) → t.memWord x.ent = s1.memWord x.ent &&& ~~~(0x80#64)) ∧
          (t.memWord pa).getLsbD 1 = false ∧ ufield (t.memWord pa) 8 8 = (ufield (wd d 0) 8 8 + 1) % 256 ∧
          ufield (t.memWord pa) 16 48 = ufield (wd d 0) 16 48 ∧ dirty t ∧
          (∀ b ∈ t.bound, ¬ (b.part = s1.part ∧ b.idx = idx)) ∧
          ∀ m ∈ t.mapCache, ¬ (m.part = s1.part ∧ ufield m.handle 0 12 = idx)))

/-- R389, R391: BAR2 of a function reaches the HBM4 range and the reserved bank groups of the near stores at its GWB
plus any offset, reads and writes the 8 bytes there without translation, and drops writes elsewhere; a peer module
reads and writes in the same way, at aligned addresses. An access of which not every byte can be reached is refused as
a whole: the model's reading (log entry 81). R7, R84, R103, R114, R334, R384, R392, R401, R402: a write of a
function's BAR0 at an aligned offset keeps reserved bits zero and a value out of range out; offsets that are reserved,
read-only or unaligned, and module-wide registers in a function but 0, are dropped. Offsets inside the blocks that
R384 gives only as blocks are the model's choice (log entry 6). R7, R15, R385, R392, R393, R404: a partition mask is
taken where the partitions that change hold no job and no group stands twice, else refused with PCFGS set, which
writing 0 clears (which partitions must be idle is the model's reading, log entry 42); TWIN and CGSPAN keep their
values while in use, and TWIN takes no pair of unequal group counts (the model's choice, log entry 27); CMPST loses
STOP and KIND. R354, R383, R388: a function-level reset of the function that the host names (an input, log entry 81)
puts its registers back to their reset values and leaves the module-wide ones (the model's reading, log entry 41) and
those of other functions, cancels each job of its partition, of launches not read yet too, and keeps memory and the
L2. What the dispatcher of another partition does with its cancelled launches is not this core's (log entry 81). -/
def Obligations.HostRegisters : Prop :=
  ((∀ (p : RegPlace) (v : Word) (s : State),
     let pa := (s.barAt p.fn.toNat 0x10600).toNat + p.off
     let may (a : Nat) : Prop := inHbm a = true ∨ (inNear a = true ∧
       (s.barAt 0 (0x20010 + 0x1000 * (nearGroup a / 32))).getLsbD (nearGroup a % 32) = true)
     let there : Prop := p.off + 8 ≤ 2 ^ 36 ∧ may pa ∧ may (pa + 7)
     (there → s.layerOff pa = false → s.layerOff (pa + 7) = false →
       (∃ t, exec (.bar2Read p) s = .next t ∧ t.hostRead = some (s.memWord pa) ∧ t.mem = s.mem ∧ t.ctx = s.ctx) ∧
       (∃ t, exec (.bar2Write p v) s = .next t ∧ t.memWord pa = v ∧ t.ctx = s.ctx ∧
         ∀ a, a < pa ∨ pa + 8 ≤ a → t.memByte a = s.memByte a)) ∧
     (there → s.layerOff pa = true → ∃ t, exec (.bar2Read p) s = .next t ∧ t.hostRead ≠ none ∧ t.mem = s.mem ∧
       ∃ f ∈ t.faultLog, f.cause = if s.flitLost = true then .linkFail else .layerOff) ∧
     (¬ there → exec (.bar2Read p) s = .next { s with hostRead := none } ∧ exec (.bar2Write p v) s = .next s)) ∧
   (∀ (pa : Nat) (v : Word) (s : State), s.layerOff pa = false → pa % 8 = 0 →
     (∃ t, exec (.remoteWindowAccess pa none) s = .next t ∧ t.hostRead = some (s.memWord pa) ∧ t.mem = s.mem ∧
       t.ctx = s.ctx) ∧
     (∃ t, exec (.remoteWindowAccess pa (some v)) s = .next t ∧ t.memWord pa = v ∧ t.ctx = s.ctx ∧
       ∀ a, a < pa ∨ pa + 8 ≤ a → t.memByte a = s.memByte a))) ∧
  (∀ (fn : BitVec 3) (v : Word) (s : State),
     (∀ off : Nat, off % 8 ≠ 0 → exec (.registerWrite ⟨fn, off⟩ v) s = .next s) ∧
     (∀ off : Nat, off ∈ [0x2000, 0x10018, 0x10180, 0x10208, 0x10308, 0x10410, 0x40000, 0x40008, 0x80018, 0x80028, 0x80058] →
       exec (.registerWrite ⟨fn, off⟩ v) s = .next s) ∧
     (∀ off : Nat, (0x2008 ≤ off ∧ off < 0x10000) ∨ (0x10F00 ≤ off ∧ off < 0x20000) ∨ (0x24000 ≤ off ∧ off < 0x30000) ∨
       (0x31000 ≤ off ∧ off < 0x40000) ∨ (0x40018 ≤ off ∧ off < 0x80000) ∨ (0x800A0 ≤ off ∧ off < 0x100000) ∨ 0x200000 ≤ off →
       exec (.registerWrite ⟨fn, off⟩ v) s = .next s) ∧
     (∀ off : Nat, 0x20000 ≤ off → off < 0x80000 → fn ≠ 0 → exec (.registerWrite ⟨fn, off⟩ v) s = .next s) ∧
     (∀ om ∈ [(0x10000, (0x00FFFFFFFFFF0000 : Word)), (0x10008, 0xFFFFFFFF), (0x10100, 0xFFFF), (0x10178, 0xFFFF),
         (0x10200, 0xF01FF), (0x10300, 1), (0x10500, 0x00FFFFFFFFFF0000), (0x10600, 0x000FFFF000000000), (0x80000, 1),
         (0x80008, 0x7FF), (0x80050, 0xFFE)],
       ∃ t, exec (.registerWrite ⟨fn, om.1⟩ v) s = .next t ∧ t = { s with bar0 := t.bar0 } ∧
         t.barAt fn.toNat om.1 = v &&& om.2) ∧
     (∀ g : BitVec 8, ((∃ x ∈ s.groups, x.part = fn ∧ x.gid = g) →
         exec (.registerWrite ⟨fn, 0x10700 + 8 * g.toNat⟩ v) s = .next s) ∧
       ((∀ x ∈ s.groups, ¬ (x.part = fn ∧ x.gid = g)) → ∃ t, exec (.registerWrite ⟨fn, 0x10700 + 8 * g.toNat⟩ v) s = .next t ∧
         t = { s with bar0 := t.bar0 } ∧ t.barAt fn.toNat (0x10700 + 8 * g.toNat) = v &&& 0xFFFFFFFF001FFFFF)) ∧
     (v.getLsbD 31 = false ∨ v.getLsbD 0 = false → ∃ t, exec (.registerWrite ⟨fn, 0x80020⟩ v) s = .next t ∧
       t = { s with bar0 := t.bar0 } ∧ t.barAt fn.toNat 0x80020 = v &&& 0xF) ∧
     (v.getLsbD 31 = true → v.getLsbD 0 = true → ∃ t, exec (.registerWrite ⟨fn, 0x80020⟩ v) s = .next t ∧
       t = { s with bar0 := t.bar0, snap := t.snap, fresh := s.fresh + 1, msi := t.msi } ∧ (fn.toNat, 5) ∈ t.msi ∧
       t.barAt fn.toNat 0x80020 = v &&& 0xE ∧ ∀ x : Nat, x < 8 → t.barAt x 0x80028 = Config.freeWord s.fresh) ∧
     (s.barAt fn.toNat 0x80050 ≠ 0 → exec (.registerWrite ⟨fn, 0x80040⟩ v) s = .next s ∧
       exec (.registerWrite ⟨fn, 0x80048⟩ v) s = .next s) ∧
     (s.barAt fn.toNat 0x80050 = 0 →
       (∃ t, exec (.registerWrite ⟨fn, 0x80040⟩ v) s = .next t ∧ t = { s with bar0 := t.bar0, trace := t.trace } ∧
         t.barAt fn.toNat 0x80040 = v &&& 0x000FFFFFFFFFF000 ∧ t.barAt fn.toNat 0x80058 = 0) ∧
       (ufield v 0 20 ≠ 0 → ∃ t, exec (.registerWrite ⟨fn, 0x80048⟩ v) s = .next t ∧ t = { s with bar0 := t.bar0 } ∧
         t.barAt fn.toNat 0x80048 = v &&& 0xFFFFF)) ∧
     (1 ≤ ufield v 0 3 ∧ ufield v 0 3 ≤ 4 → ∃ t, exec (.registerWrite ⟨fn, 0x10400⟩ v) s = .next t ∧
       t = { s with bar0 := t.bar0 } ∧ (t.barAt fn.toNat 0x10400).toNat = ufield v 0 3) ∧
     (¬ (1 ≤ ufield v 0 3 ∧ ufield v 0 3 ≤ 4) → exec (.registerWrite ⟨fn, 0x10400⟩ v) s = .next s) ∧
     (ufield v 0 16 = 0 → exec (.registerWrite ⟨fn, 0x10408⟩ v) s = .next s) ∧
     (∀ die : Nat, die < 4 →
       (10 ≤ ufield v 0 5 ∧ ufield v 0 5 ≤ 30 → ∃ t, exec (.registerWrite ⟨0, 0x20008 + 0x1000 * die⟩ v) s = .next t ∧
         t = { s with bar0 := t.bar0 } ∧ (t.barAt 0 (0x20008 + 0x1000 * die)).toNat = ufield v 0 5) ∧
       (¬ (10 ≤ ufield v 0 5 ∧ ufield v 0 5 ≤ 30) →
         exec (.registerWrite ⟨0, 0x20008 + 0x1000 * die⟩ v) s = .next s))) ∧
  (∀ s : State,
     (∀ (i : BitVec 3) (v : Word),
       let old (j : BitVec 3) : Word := s.barAt 0 (0x30000 + 8 * j.toNat)
       let idle (j : BitVec 3) : Prop := ∀ l ∈ s.launches, l.part = j → l.done = true
       let free : Prop := (old i = v ∨ idle i) ∧
         ∀ j : BitVec 3, j ≠ i → old j &&& v = 0 ∧ (old j &&& (old i ^^^ v) = 0 ∨ idle j)
       (free → ∃ t, exec (.pcfgWrite i v) s = .next t ∧ t = { s with bar0 := t.bar0 } ∧
         t.barAt 0 (0x30000 + 8 * i.toNat) = v ∧ t.barAt 0 0x30040 = 0 ∧
         ∀ j : BitVec 3, j ≠ i → t.barAt 0 (0x30000 + 8 * j.toNat) = old j) ∧
       (¬ free → ∃ t, exec (.pcfgWrite i v) s = .next t ∧ t = { s with bar0 := t.bar0 } ∧ t.barAt 0 0x30040 = 1 ∧
         ∀ j : BitVec 3, t.barAt 0 (0x30000 + 8 * j.toNat) = old j)) ∧
     (∃ t, exec .pcfgsClear s = .next t ∧ t = { s with bar0 := t.bar0 } ∧ t.barAt 0 0x30040 = 0) ∧
     (∀ v : Word,
       ((∃ l ∈ s.launches, l.done = false ∧ (l.part.toNat = ufield v 0 3 ∨ l.part.toNat = ufield v 3 3)) →
         exec (.twinWrite v) s = .next s) ∧
       let groups (p : Nat) : Nat := (List.range 64).countP (fun g => (s.barAt 0 (0x30000 + 8 * p)).getLsbD g)
       let paired : Prop := v.getLsbD 6 = true → groups (ufield v 0 3) = groups (ufield v 3 3)
       (¬ paired → exec (.twinWrite v) s = .next s) ∧
       ((∀ l ∈ s.launches, l.done = true) → paired → ∃ t, exec (.twinWrite v) s = .next t ∧
         t = { s with bar0 := t.bar0, cmpKeys := [] } ∧ t.barAt 0 0x30048 = v &&& 0x7F)) ∧
     (∃ t, exec .cmpstClear s = .next t ∧ t = { s with bar0 := t.bar0 } ∧
       ufield (t.barAt 0 0x30050) 0 2 = 0 ∧ ufield (t.barAt 0 0x30050) 2 2 = ufield (s.barAt 0 0x30050) 2 2) ∧
     (∀ (g : BitVec 8) (v : Word),
       ((∃ x ∈ s.groups, x.part = s.part ∧ x.gid = g) → exec (.cgspanWrite g v) s = .next s) ∧
       ((∀ x ∈ s.groups, ¬ (x.part = s.part ∧ x.gid = g)) → ∃ t, exec (.cgspanWrite g v) s = .next t ∧
         t = { s with bar0 := t.bar0 } ∧ t.bar (0x10700 + 8 * g.toNat) = v &&& 0xFFFFFFFF001FFFFF))) ∧
  (∀ s : State, let f := s.flrFn
     ∃ t, exec .functionLevelReset s = .next t ∧ t.ctx = s.ctx ∧
     (f ≠ s.part ∨ (∀ l ∈ s.launches, l.part = f → l.done = false → l.job ≠ none) → t.mem = s.mem ∧ t.l2 = s.l2 ∧
       ∀ fn off : Nat, fn < 8 → off < 0x200000 → (fn ≠ f.toNat ∨ (0x20000 ≤ off ∧ off < 0x80000)) →
         t.barAt fn off = s.barAt fn off) ∧
     (∀ off : Nat, off < 0x200000 → ¬ (0x20000 ≤ off ∧ off < 0x80000) →
       t.barAt f.toNat off = State.reset.barAt f.toNat off) ∧
     t.cmpSaved.get 0 f.toNat = 0 ∧ (f = s.part → t.lpRun = [] ∧ t.trace = [] ∧ t.inval = none) ∧
     (∀ c ∈ s.cancelQ, c ∈ t.cancelQ) ∧
     (f ≠ s.part → ∀ l ∈ t.launches, l.part = f → l.done = false → l.cancelled = true) ∧
     (f = s.part → ∀ l ∈ s.launches, l.part = s.part → l.done = false → ∀ j, l.job = some j →
       (4, l.jd, j.jjcb, 0) ∈ t.cancelQ) ∧
     (f = s.part → ∀ l dws s1, s.launches = [l] → l.part = s.part → l.done = false → l.job = none →
       s.jobWords l.jd = (.ok dws, s1) → (4, l.jd, (jobOf dws).jjcb, 0) ∈ t.cancelQ))

/-- R404: of two writes under one key, one of each side, equal ones match and are gone; at the first that differ both
partitions' jobs stop, CMPST tells, and vector 3 is signalled (to the functions of both partitions: the model's
reading, log entry 27); a key alone is kept until its match comes, and stops both sides where the other side's task
has retired without it, on another core's member too. R109, R376, R400: STOP, GO and STEP act on the context that
DBGSEL names while it runs a task, and on no other; a stopped context's image may be written but not its positions.
That windows which would leave the core are not taken is the model's choice (log entry 57). R385, R401 to R403: the
common trigger fires once a function has armed it, taking ARM of every function away, latching the snapshot and
signalling those that had armed it (that they all share it is the model's reading, log entry 81); TRCBASE is taken
only while TRCEN is 0 and sets TRCHEAD to 0; TRCLOST clears; LPSEL takes its defined bits and clears the three
counters. -/
def Obligations.ComparisonDebuggingAndProfiling : Prop :=
  ((∀ (id n : Nat) (st : BitVec 2) (s : State) (l : Launch) (d : LaunchDesc) (k : Unmatched), s.launchBy id = some l →
     l.desc = some d → l.away.contains n = true → s.groupOfTask l d n ≠ groupOf s.core.toNat → s.twinOn = true →
     (l.part = s.primary ∨ l.part = s.twinPart) → k ∈ s.cmpKeys → k.twin ≠ (l.part == s.twinPart) → k.w.jcb = d.ljcb →
     k.w.task = BitVec.ofNat 32 ((l.xy n).1 + 65536 * (l.xy n).2) → (s.barAt 0 0x30050).getLsbD 0 = false →
     ∃ t, exec (.taskRelease (.away id n st)) s = .next t ∧ (t.barAt 0 0x30050).getLsbD 0 = true ∧
       (t.barAt 0 0x30050).getLsbD 1 = true ∧ (s.primary.toNat, 3) ∈ t.msi ∧ (s.twinPart.toNat, 3) ∈ t.msi ∧
       ∀ x ∈ s.launches, x.done = false → (x.part = s.primary ∨ x.part = s.twinPart) → x.jd ∈ t.preempted) ∧
   ∀ (twin : Bool) (w : KeyedWrite) (s : State),
     (s.twinOn = false → exec (.comparatorCheck twin w) s = .next s) ∧
     (s.twinOn = true →
       let other (k : Unmatched) : Prop := k.twin ≠ twin ∧ k.w.jcb = w.jcb ∧ k.w.task = w.task ∧ k.w.seq = w.seq ∧
         k.w.unit = w.unit
       ((∀ k ∈ s.cmpKeys, ¬ other k) → s.cmpKeys.countP (fun k => k.twin == twin) < 65536 →
         ∃ t, exec (.comparatorCheck twin w) s = .next t ∧
           t = { s with bar0 := t.bar0, cmpKeys := s.cmpKeys ++ [⟨twin, w⟩] } ∧
           ufield (t.barAt 0 0x30050) 0 2 = ufield (s.barAt 0 0x30050) 0 2) ∧
       ((∀ k ∈ s.cmpKeys, ¬ other k) → 65536 ≤ s.cmpKeys.countP (fun k => k.twin == twin) →
         exec (.comparatorCheck twin w) s = .next s) ∧
       (∀ k, s.cmpKeys = [k] → other k →
         (k.w.pa = w.pa ∧ k.w.mask = w.mask ∧ k.w.bytes = w.bytes → ∃ t, exec (.comparatorCheck twin w) s = .next t ∧
           t = { s with bar0 := t.bar0, cmpKeys := [] } ∧ t.preempted = s.preempted) ∧
         (¬ (k.w.pa = w.pa ∧ k.w.mask = w.mask ∧ k.w.bytes = w.bytes) → (s.barAt 0 0x30050).getLsbD 0 = false →
           (∀ fn : Nat, fn < 8 → (s.barAt fn 0x80020).getLsbD 3 = false) → ∃ t, exec (.comparatorCheck twin w) s = .next t ∧
             t = { s with bar0 := t.bar0, cmpKeys := [], preempted := t.preempted,
                          msi := s.msi ++ [(s.primary.toNat, 3), (s.twinPart.toNat, 3)] } ∧
             (t.barAt 0 0x30050).getLsbD 0 = true ∧ (t.barAt 0 0x30050).getLsbD 1 = false ∧
             ∀ l ∈ s.launches, l.done = false → (l.part = s.primary ∨ l.part = s.twinPart) → l.jd ∈ t.preempted)))) ∧
  (∀ (s : State) (i : BitVec 2), ufield (s.bar 0x80008) 0 9 = s.core.toNat → ufield (s.bar 0x80008) 9 2 = i.toNat →
     let c := s.ctxAt i
     (c.phase ≠ .running → ∀ x, (∃ t, exec .dbgStop s = .next t ∧ t.ctxAt x = s.ctxAt x) ∧
       (∃ t, exec .dbgGo s = .next t ∧ t.ctxAt x = s.ctxAt x) ∧ (∃ t, exec .dbgStep s = .next t ∧ t.ctxAt x = s.ctxAt x)) ∧
     (c.phase = .running →
       (∃ t, exec .dbgStop s = .next t ∧ t.ctxAt i = { c with stopped := true, stopCause := (t.ctxAt i).stopCause,
                                                                                watch := (t.ctxAt i).watch } ∧
         (c.stopped = true → (t.ctxAt i).stopCause = c.stopCause ∧ (t.ctxAt i).watch = c.watch) ∧
         (c.stopped = false → (t.ctxAt i).stopCause = 0 ∧ (t.ctxAt i).watch.lines = [] ∧
           (c.watch.lines ≠ [] → (t.ctxAt i).watch.lost = true)) ∧ (∀ x, x ≠ i → t.ctxAt x = s.ctxAt x) ∧ t.mem = s.mem) ∧
       (c.stopped = true →
         (∃ t, exec .dbgGo s = .next t ∧ t.ctxAt i = { c with stopped := false, brkOnce := true, stepTo := none } ∧
           (∀ x, x ≠ i → t.ctxAt x = s.ctxAt x) ∧ t.mem = s.mem) ∧
         (∃ t, exec .dbgStep s = .next t ∧ t.ctxAt i = { c with stopped := false, brkOnce := true, stepTo := some (c.an + 1) } ∧
           (∀ x, x ≠ i → t.ctxAt x = s.ctxAt x) ∧ t.mem = s.mem) ∧
         (∀ (a : AReg) (v : Word), ∃ t, exec (.registerWrite ⟨s.part, 0x100040 + 8 * a.toNat⟩ v) s = .next t ∧
           t.ctxAt i = { c with regs := (t.ctxAt i).regs } ∧ (a ≠ 0 → (t.ctxAt i).regs.ra a = v) ∧
           ∀ b : AReg, b ≠ a → (t.ctxAt i).regs.ra b = c.regs.ra b) ∧
         (∀ v : Word, c.vbase + ufield v 16 10 ≤ 640 → c.mbase + ufield v 32 4 ≤ 8 →
           ∃ t, exec (.registerWrite ⟨s.part, 0x100000⟩ v) s = .next t ∧
             t.ctxAt i = { c with active := v.getLsbD 2, hmask := BitVec.ofNat 5 (ufield v 3 5), vcnt := ufield v 16 10
                                  mcnt := ufield v 32 4 }) ∧
         (∀ v : Word, ∀ o ∈ [0x100010, 0x100018], ∃ t, exec (.registerWrite ⟨s.part, o⟩ v) s = .next t ∧ t.ctxAt i = c)) ∧
       (c.stopped = false → ∀ x, (∃ t, exec .dbgGo s = .next t ∧ t.ctxAt x = s.ctxAt x) ∧
         ∃ t, exec .dbgStep s = .next t ∧ t.ctxAt x = s.ctxAt x))) ∧
  (∀ s : State,
     ((s.bar 0x80020).getLsbD 0 = false → exec .snapshotFire s = .next s) ∧
     ((s.bar 0x80020).getLsbD 0 = true → ∃ t, exec .snapshotFire s = .next t ∧ (t.bar 0x80020).getLsbD 0 = false ∧
       ufield (t.bar 0x80020) 1 63 = ufield (s.bar 0x80020) 1 63 ∧
       (t = { s with bar0 := t.bar0, snap := t.snap, fresh := s.fresh + 1, msi := t.msi }) ∧
       t.msi = s.msi ++ ((List.range 8).filter (fun fn => (s.barAt fn 0x80020).getLsbD 0)).map (fun fn => (fn, 5)) ∧
       ∀ fn : Nat, fn < 8 → (t.barAt fn 0x80020).getLsbD 0 = false ∧ t.barAt fn 0x80028 = Config.freeWord s.fresh) ∧
     (∀ v : Word, (s.bar 0x80050 ≠ 0 → exec (.trcbaseWrite v) s = .next s) ∧
       (s.bar 0x80050 = 0 → ∃ t, exec (.trcbaseWrite v) s = .next t ∧ t = { s with bar0 := t.bar0, trace := [] } ∧
         t.bar 0x80040 = v &&& 0x000FFFFFFFFFF000 ∧ t.bar 0x80058 = 0)) ∧
     (∃ t, exec .trclostClear s = .next t ∧ t = { s with bar0 := t.bar0 } ∧ t.bar 0x80060 = 0) ∧
     (∀ v : Word, ∃ t, exec (.lpselWrite v) s = .next t ∧ t = { s with bar0 := t.bar0, lpRun := [] } ∧
       t.bar 0x80080 = v &&& 0x3FFF ∧ t.bar 0x80088 = 0 ∧ t.bar 0x80090 = 0 ∧ t.bar 0x80098 = 0))

/-- R394 to R396: boot goes from stage to stage as each action succeeds, and back or nowhere where it fails; an image
is taken only where both key hashes and both signatures hold, no slot is revoked, its fields are in range and SVN
reaches the floor, and its error code names every failure; firmware raises the rollback floor and never lowers it; the
payload's core enables and masks are applied and its revocations made, and a core, slice or page that the map says is
gone stays so. That memory is empty and BAR0 at the model's reset values after power-on is the model's choice (log
entries 2 and 5). The hash and the signature checks are the standards'; the layout of the payload's trailer and of
what it configures is the model's (log entry 75). -/
def Obligations.BootStages : Prop :=
  ∀ s : State,
    (∀ ok : Bool, ∃ t, exec (.powerOn ok) s = .next t ∧ t.boot.stage = (if ok = true then 2 else 1) ∧
      t.boot.err = (if ok = true then 0 else 1) ∧ t.inReset = !ok ∧ t.boot.floor = s.boot.floor ∧
      t.boot.repairs = s.boot.repairs ∧ t.boot.revRsa = s.boot.revRsa ∧ t.boot.revSlh = s.boot.revSlh ∧ t.mem = [] ∧
      t.launches = [] ∧ t.bar0 = State.reset.bar0) ∧
    (exec (.bootLinkUp false) s = .next s ∧ exec (.bootDhcp false) s = .next s) ∧
    (s.boot.stage = 2 → exec (.bootLinkUp true) s = .next { s with boot := { s.boot with stage := 3 } }) ∧
    (s.boot.stage = 3 → exec (.bootDhcp true) s = .next { s with boot := { s.boot with stage := 4 } }) ∧
    (s.boot.stage = 4 → ∀ ok : Bool,
      exec (.bootTftp ok) s = .next { s with boot := { s.boot with stage := if ok = true then 5 else 3 } }) ∧
    (s.boot.stage = 5 → ∀ g : BootImage,
      let w (i : Nat) : Word := g.header.getD i 0
      let svn := ufield (w 0) 32 32
      let minsvn := ufield (w 1) 0 32
      let rsaSlot := ufield (w 2) 0 2
      let slhSlot := ufield (w 2) 2 2
      let tail (at_ n : Nat) : List Byte := (g.payload.drop (g.payload.length - 536 + at_)).take n
      let rsaKey : Prop := sha384 (tail 0 392) = tail 440 48 ∧ beNat (tail 440 48) = (Config.romHash true rsaSlot).toNat ∧
        s.boot.revRsa.getLsbD rsaSlot = false
      let slhKey : Prop := sha384 (tail 392 48) = tail 488 48 ∧ beNat (tail 488 48) = (Config.romHash false slhSlot).toNat ∧
        s.boot.revSlh.getLsbD slhSlot = false
      let rsaSig : Prop :=
        rsaPssOk (beNat ((tail 0 392).take 384)) (beNat ((tail 0 392).drop 384)) (imgSigned g) g.rsaSig = true
      let slhSig : Prop := slhDsaOk (tail 392 48) (imgSigned g) g.slhSig = true
      let format : Prop := g.header.length = 64 ∧ ufield (w 0) 0 32 = 0x434C3546 ∧ 1 ≤ svn ∧ 1 ≤ minsvn ∧ minsvn ≤ svn ∧
        ufield (w 1) 32 32 % 64 = 0 ∧ ufield (w 1) 32 32 = g.payload.length ∧ rsaSlot ≤ 1 ∧ slhSlot ≤ 1 ∧
        ufield (w 2) 4 60 = 0 ∧ (∀ i, 3 ≤ i → w i = 0) ∧ g.rsaSig.length = 384 ∧ 536 ≤ g.payload.length
      let good : Prop := rsaKey ∧ rsaSig ∧ slhKey ∧ slhSig ∧ s.boot.floor.toNat ≤ svn ∧ format
      (good → exec (.imageVerify g) s = .next { s with
        boot := { s.boot with stage := 6, err := 0, svn := BitVec.ofNat 32 svn, minsvn := BitVec.ofNat 32 minsvn,
                              config := payloadConfig g.payload } }) ∧
      (¬ good → ∃ e : BitVec 8, exec (.imageVerify g) s = .next { s with boot := { s.boot with stage := 3, err := e } } ∧
        (e.getLsbD 0 = true ↔ ¬ rsaKey) ∧ (e.getLsbD 1 = true ↔ ¬ rsaSig) ∧ (e.getLsbD 2 = true ↔ ¬ slhKey) ∧
        (e.getLsbD 3 = true ↔ ¬ slhSig) ∧ (e.getLsbD 4 = true ↔ svn < s.boot.floor.toNat) ∧
        (e.getLsbD 5 = true ↔ ¬ format) ∧ ufield (e.setWidth 64) 6 2 = 0)) ∧
    (s.boot.stage = 6 →
      exec (.bootConfigure false) s = .next { s with boot := { s.boot with err := 0x30 } } ∧
      ∃ t, exec (.bootConfigure true) s = .next t ∧ t.boot.stage = 7 ∧ t.boot.err = 0 ∧
        t.boot.floor.toNat = Nat.max s.boot.floor.toNat s.boot.minsvn.toNat ∧ t.boot.svn = s.boot.svn ∧
        t.boot.revRsa = (s.boot.revRsa ||| s.boot.config.revRsa) ∧ t.boot.revSlh = (s.boot.revSlh ||| s.boot.config.revSlh) ∧
        (t.online = true ↔ s.core.toNat ∉ s.boot.config.off ∧ Repair.offline s.core.toNat ∉ s.boot.repairs) ∧
        (∀ n, t.sliceOut.get false n = true ↔ Repair.sliceGone n ∈ s.boot.repairs) ∧
        (∀ n, n ∈ t.retiredPages ↔ Repair.page n ∈ s.boot.repairs) ∧
        (∀ (i : Nat) (m : Word), i < 8 → s.boot.config.masks[i]? = some m → t.barAt 0 (0x30000 + 8 * i) = m) ∧
        t.mem = s.mem ∧ (s.boot.repairs = [] → t.phys = s.phys ∧ ∀ d, d < 4 → t.spareCores.get 0 d = 16 ∧
          t.spareSlices.get 0 d = 8)) ∧
    (s.boot.stage ≠ 2 → exec (.bootLinkUp true) s = .next s) ∧ (s.boot.stage ≠ 3 → exec (.bootDhcp true) s = .next s) ∧
    (s.boot.stage ≠ 4 → ∀ ok : Bool, exec (.bootTftp ok) s = .next s) ∧
    (s.boot.stage ≠ 5 → ∀ g, exec (.imageVerify g) s = .next s) ∧
    (s.boot.stage ≠ 6 → ∀ ok : Bool, exec (.bootConfigure ok) s = .next s)

/-- R24 to R29, R63, R117, R168, R182, R210, R254, R294, R309, R314, R357, R363: the words that the spec writes out
for its example slots decode to the instructions they stand for. -/
def Obligations.SpecWords : Prop :=
  decodeSlot (.c 0x3400000000) = .ok .trig ∧ decodeSlot (.c 0x3800000000) = .ok .wvis ∧
  decodeSlot (.c 0x4805000000) = .ok (.grow 5) ∧ decodeSlot (.c 0x4005000089) = .ok (.bara 9 5 .grp) ∧
  decodeSlot (.c 0x2400FFFFFF) = .ok (.lend 0 (-1)) ∧ decodeSlot (.c 0x2C01420013) = .ok (.trapSet 1 1 19) ∧
  decodeSlot (.s 0 0x1814503456) = .ok (.lih ⟨0, 5, 5, 0x3456⟩) ∧ decodeSlot (.s 0 0x011861C000) = .ok (.add ⟨0, 6, 6, 7⟩) ∧
  decodeSlot (.m 0x0D80401C8C000000) = .ok (.ldqx ⟨false, 0, 2⟩ ⟨⟨7, 8, 3, 0⟩, 0, false, .plain, .ctx⟩) ∧
  decodeSlot (.m 0x1900A31C60100000) = .ok (.atomCas (.scalar 5) ⟨⟨7, 6, 0, 0⟩, 0, false, .acquire, .part⟩) ∧
  decodeSlot (.m 0x2800030000300000) = .ok (.fence .acqRel .part) ∧
  decodeSlot (.m 0x3800401C00000020) = .ok (.shld .ssh ⟨7, 0, 0, 0x20⟩ 0) ∧
  decodeSlot (.m 0x2980020000000004) = .ok (.sbind (.inq 0 0) (.loc 2) 0 0) ∧
  decodeSlot (.k 0x60001461C0000003) = .ok (.enq 5 6 7 3) ∧
  decodeSlot (.k 0x0C053801C0000005) = .ok (.cpgs 0 5 14 0 7 ⟨5, false, 0, false, 0⟩) ∧
  decodeSlot (.x 0x100080000000) = .ok (.mma .bf16 0 0 (.seg 2) 0 0 0) ∧ decodeSlot (.x 0x400000000000) = .ok (.zrd false 0 0) ∧
  decodeSlot (.v 0 0xEC07F802) = .ok (.isub ⟨⟨0, 0, false⟩, .w 0, .queue true 0, .reg 3⟩) ∧
  decodeSlot (.v 0 0x1CF40600635) = .ok (.xbc ⟨0, 0, false⟩ (.reg 3) (.reg 12) 5 7) ∧
  decodeSlot (.v 0 0x1C13850064A) = .ok (.fdiv ⟨⟨0, 0, false⟩, .reg 3, .imm 10, .imm 4⟩)

/-- R24 to R30, R59 to R65: every well-formed instruction that has an encoding is read back from it with every operand
as it was, at every value that the encoding admits. -/
def Obligations.EncodeThenDecode : Prop := ∀ (i : Instr) (b : SlotBits), i.wf = true → encode i = some b → decodeSlot b = .ok i

/-- R20, R31, R50: whatever a slot decodes to is well formed and encodes to the very bits it was read from: no bit is
ignored, no two words stand for one instruction, and only the slot of zeros is a no-op. -/
def Obligations.DecodeThenEncode : Prop :=
  ∀ (b : SlotBits) (i : Instr), decodeSlot b = .ok i → i.wf = true ∧
    (i = .nop → b = .c 0 ∨ b = .s 0 0 ∨ b = .s 1 0 ∨ b = .m 0 ∨ b = .k 0 ∨ b = .x 0 ∨ ∃ cl, b = .v cl 0) ∧
    (i ≠ .nop → encode i = some b)

/-- R84, R103, R114, R313, R334, R385, R399: the values that the spec gives for reset. The memory of the model at
reset has its canonical form, and no byte is listed (log entry 2 says what one reads as). The deckle of the model at
reset (its position is the model's choice: log entry 5). -/
def Obligations.AtReset : Prop :=
  (let s := State.reset
   (∀ fn : Nat, fn < 8 → (∀ c : Nat, c < 16 → s.barAt fn (0x10100 + 8 * c) = 0xFFFF) ∧ s.barAt fn 0x10300 = 1 ∧
     s.barAt fn 0x10400 = 2 ∧ s.barAt fn 0x10408 = 1000 ∧ s.barAt fn 0x80000 = 0 ∧ s.barAt fn 0x80020 = 0) ∧
   (∀ d : Nat, d < 4 → s.barAt 0 (0x20000 + 0x1000 * d) = 16 ∧ s.barAt 0 (0x20008 + 0x1000 * d) = 20) ∧
   s.barAt 0 0x40010 = 3000 ∧ (∀ h, s.bars.get 0 h = 0)) ∧
  (State.reset.MemoryOk ∧ State.reset.mem = []) ∧
  (State.reset.DeckleOk)

/-- Whatever a step does, from any state whose memory has its canonical form to a state whose memory has it: equal
memories stay equal data. R153, R155, R180: every step leaves the deckle between 1 and 16 ways, and at 2 or more while
a way is being given up. -/
def Obligations.EveryStepKeepsMemoryFormAndDeckle : Prop :=
  (∀ s t : State, s.MemoryOk → step s = .next t → t.MemoryOk) ∧
  (∀ s t : State, s.DeckleOk → step s = .next t → t.DeckleOk)
end

