-- ==== Sys2Proof/Laws/Fields.lean ====
section
/-! SUPPORT. Fields of a slot's word: each read back from the word that its fields make (R24 to R29). -/

namespace Sys2Proof

theorem extract_low {n m : Nat} (x : BitVec n) (y : BitVec m) (l k : Nat) (h : l + k ≤ m) :
    (x ++ y).extractLsb' l k = y.extractLsb' l k := by
  apply BitVec.eq_of_getLsbD_eq; intro i hi
  simp only [BitVec.getLsbD_extractLsb', BitVec.getLsbD_append, hi, decide_true, Bool.true_and]
  rw [if_pos (by omega)]

theorem extract_high {n m : Nat} (x : BitVec n) (y : BitVec m) (l k : Nat) :
    (x ++ y).extractLsb' (m + l) k = x.extractLsb' l k := by
  apply BitVec.eq_of_getLsbD_eq; intro i hi
  simp only [BitVec.getLsbD_extractLsb', BitVec.getLsbD_append, hi, decide_true, Bool.true_and]
  rw [if_neg (by omega), show m + l + i - m = l + i by omega]

theorem extract_all {n : Nat} (x : BitVec n) : x.extractLsb' 0 n = x := by
  apply BitVec.eq_of_getLsbD_eq; intro i hi
  simp [hi]

/-! ### The control slot -/

@[simp] theorem control_op (op : BitVec 6) (k : BitVec 3) (n : BitVec 1) (a : BitVec 6) (disp : BitVec 24) :
    (op ++ k ++ n ++ a ++ disp).extractLsb 39 34 = op :=
  (((((extract_high _ _ 10 6).trans (extract_high _ _ 4 6)).trans (extract_high _ _ 3 6)).trans (extract_high _ _ 0 6)).trans (extract_all op))
@[simp] theorem control_k (op : BitVec 6) (k : BitVec 3) (n : BitVec 1) (a : BitVec 6) (disp : BitVec 24) :
    (op ++ k ++ n ++ a ++ disp).extractLsb 33 31 = k :=
  (((((extract_high _ _ 7 3).trans (extract_high _ _ 1 3)).trans (extract_high _ _ 0 3)).trans (extract_low _ _ 0 3 (by decide))).trans (extract_all k))
@[simp] theorem control_n (op : BitVec 6) (k : BitVec 3) (n : BitVec 1) (a : BitVec 6) (disp : BitVec 24) :
    (op ++ k ++ n ++ a ++ disp).extractLsb 30 30 = n :=
  ((((extract_high _ _ 6 1).trans (extract_high _ _ 0 1)).trans (extract_low _ _ 0 1 (by decide))).trans (extract_all n))
@[simp] theorem control_a (op : BitVec 6) (k : BitVec 3) (n : BitVec 1) (a : BitVec 6) (disp : BitVec 24) :
    (op ++ k ++ n ++ a ++ disp).extractLsb 29 24 = a :=
  (((extract_high _ _ 0 6).trans (extract_low _ _ 0 6 (by decide))).trans (extract_all a))
@[simp] theorem control_disp (op : BitVec 6) (k : BitVec 3) (n : BitVec 1) (a : BitVec 6) (disp : BitVec 24) :
    (op ++ k ++ n ++ a ++ disp).extractLsb 23 0 = disp :=
  ((extract_low _ _ 0 24 (by decide)).trans (extract_all disp))

/-! ### The scalar slot -/

@[simp] theorem scalar_op (op : BitVec 8) (d : BitVec 6) (a : BitVec 6) (b : BitVec 6) (imm : BitVec 14) :
    (op ++ d ++ a ++ b ++ imm).extractLsb 39 32 = op :=
  (((((extract_high _ _ 18 8).trans (extract_high _ _ 12 8)).trans (extract_high _ _ 6 8)).trans (extract_high _ _ 0 8)).trans (extract_all op))
@[simp] theorem scalar_d (op : BitVec 8) (d : BitVec 6) (a : BitVec 6) (b : BitVec 6) (imm : BitVec 14) :
    (op ++ d ++ a ++ b ++ imm).extractLsb 31 26 = d :=
  (((((extract_high _ _ 12 6).trans (extract_high _ _ 6 6)).trans (extract_high _ _ 0 6)).trans (extract_low _ _ 0 6 (by decide))).trans (extract_all d))
@[simp] theorem scalar_a (op : BitVec 8) (d : BitVec 6) (a : BitVec 6) (b : BitVec 6) (imm : BitVec 14) :
    (op ++ d ++ a ++ b ++ imm).extractLsb 25 20 = a :=
  ((((extract_high _ _ 6 6).trans (extract_high _ _ 0 6)).trans (extract_low _ _ 0 6 (by decide))).trans (extract_all a))
@[simp] theorem scalar_b (op : BitVec 8) (d : BitVec 6) (a : BitVec 6) (b : BitVec 6) (imm : BitVec 14) :
    (op ++ d ++ a ++ b ++ imm).extractLsb 19 14 = b :=
  (((extract_high _ _ 0 6).trans (extract_low _ _ 0 6 (by decide))).trans (extract_all b))
@[simp] theorem scalar_imm (op : BitVec 8) (d : BitVec 6) (a : BitVec 6) (b : BitVec 6) (imm : BitVec 14) :
    (op ++ d ++ a ++ b ++ imm).extractLsb 13 0 = imm :=
  ((extract_low _ _ 0 14 (by decide)).trans (extract_all imm))

/-! ### The memory slot -/

@[simp] theorem memory_op (op : BitVec 8) (d : BitVec 11) (g : BitVec 5) (base : BitVec 6) (idx : BitVec 6) (sc : BitVec 2) (hint : BitVec 2) (w : BitVec 1) (ord : BitVec 3) (off : BitVec 20) :
    (op ++ d ++ g ++ base ++ idx ++ sc ++ hint ++ w ++ ord ++ off).extractLsb 63 56 = op :=
  ((((((((((extract_high _ _ 36 8).trans (extract_high _ _ 33 8)).trans (extract_high _ _ 32 8)).trans (extract_high _ _ 30 8)).trans (extract_high _ _ 28 8)).trans (extract_high _ _ 22 8)).trans (extract_high _ _ 16 8)).trans (extract_high _ _ 11 8)).trans (extract_high _ _ 0 8)).trans (extract_all op))
@[simp] theorem memory_d (op : BitVec 8) (d : BitVec 11) (g : BitVec 5) (base : BitVec 6) (idx : BitVec 6) (sc : BitVec 2) (hint : BitVec 2) (w : BitVec 1) (ord : BitVec 3) (off : BitVec 20) :
    (op ++ d ++ g ++ base ++ idx ++ sc ++ hint ++ w ++ ord ++ off).extractLsb 55 45 = d :=
  ((((((((((extract_high _ _ 25 11).trans (extract_high _ _ 22 11)).trans (extract_high _ _ 21 11)).trans (extract_high _ _ 19 11)).trans (extract_high _ _ 17 11)).trans (extract_high _ _ 11 11)).trans (extract_high _ _ 5 11)).trans (extract_high _ _ 0 11)).trans (extract_low _ _ 0 11 (by decide))).trans (extract_all d))
@[simp] theorem memory_g (op : BitVec 8) (d : BitVec 11) (g : BitVec 5) (base : BitVec 6) (idx : BitVec 6) (sc : BitVec 2) (hint : BitVec 2) (w : BitVec 1) (ord : BitVec 3) (off : BitVec 20) :
    (op ++ d ++ g ++ base ++ idx ++ sc ++ hint ++ w ++ ord ++ off).extractLsb 44 40 = g :=
  (((((((((extract_high _ _ 20 5).trans (extract_high _ _ 17 5)).trans (extract_high _ _ 16 5)).trans (extract_high _ _ 14 5)).trans (extract_high _ _ 12 5)).trans (extract_high _ _ 6 5)).trans (extract_high _ _ 0 5)).trans (extract_low _ _ 0 5 (by decide))).trans (extract_all g))
@[simp] theorem memory_base (op : BitVec 8) (d : BitVec 11) (g : BitVec 5) (base : BitVec 6) (idx : BitVec 6) (sc : BitVec 2) (hint : BitVec 2) (w : BitVec 1) (ord : BitVec 3) (off : BitVec 20) :
    (op ++ d ++ g ++ base ++ idx ++ sc ++ hint ++ w ++ ord ++ off).extractLsb 39 34 = base :=
  ((((((((extract_high _ _ 14 6).trans (extract_high _ _ 11 6)).trans (extract_high _ _ 10 6)).trans (extract_high _ _ 8 6)).trans (extract_high _ _ 6 6)).trans (extract_high _ _ 0 6)).trans (extract_low _ _ 0 6 (by decide))).trans (extract_all base))
@[simp] theorem memory_idx (op : BitVec 8) (d : BitVec 11) (g : BitVec 5) (base : BitVec 6) (idx : BitVec 6) (sc : BitVec 2) (hint : BitVec 2) (w : BitVec 1) (ord : BitVec 3) (off : BitVec 20) :
    (op ++ d ++ g ++ base ++ idx ++ sc ++ hint ++ w ++ ord ++ off).extractLsb 33 28 = idx :=
  (((((((extract_high _ _ 8 6).trans (extract_high _ _ 5 6)).trans (extract_high _ _ 4 6)).trans (extract_high _ _ 2 6)).trans (extract_high _ _ 0 6)).trans (extract_low _ _ 0 6 (by decide))).trans (extract_all idx))
@[simp] theorem memory_sc (op : BitVec 8) (d : BitVec 11) (g : BitVec 5) (base : BitVec 6) (idx : BitVec 6) (sc : BitVec 2) (hint : BitVec 2) (w : BitVec 1) (ord : BitVec 3) (off : BitVec 20) :
    (op ++ d ++ g ++ base ++ idx ++ sc ++ hint ++ w ++ ord ++ off).extractLsb 27 26 = sc :=
  ((((((extract_high _ _ 6 2).trans (extract_high _ _ 3 2)).trans (extract_high _ _ 2 2)).trans (extract_high _ _ 0 2)).trans (extract_low _ _ 0 2 (by decide))).trans (extract_all sc))
@[simp] theorem memory_hint (op : BitVec 8) (d : BitVec 11) (g : BitVec 5) (base : BitVec 6) (idx : BitVec 6) (sc : BitVec 2) (hint : BitVec 2) (w : BitVec 1) (ord : BitVec 3) (off : BitVec 20) :
    (op ++ d ++ g ++ base ++ idx ++ sc ++ hint ++ w ++ ord ++ off).extractLsb 25 24 = hint :=
  (((((extract_high _ _ 4 2).trans (extract_high _ _ 1 2)).trans (extract_high _ _ 0 2)).trans (extract_low _ _ 0 2 (by decide))).trans (extract_all hint))
@[simp] theorem memory_w (op : BitVec 8) (d : BitVec 11) (g : BitVec 5) (base : BitVec 6) (idx : BitVec 6) (sc : BitVec 2) (hint : BitVec 2) (w : BitVec 1) (ord : BitVec 3) (off : BitVec 20) :
    (op ++ d ++ g ++ base ++ idx ++ sc ++ hint ++ w ++ ord ++ off).extractLsb 23 23 = w :=
  ((((extract_high _ _ 3 1).trans (extract_high _ _ 0 1)).trans (extract_low _ _ 0 1 (by decide))).trans (extract_all w))
@[simp] theorem memory_ord (op : BitVec 8) (d : BitVec 11) (g : BitVec 5) (base : BitVec 6) (idx : BitVec 6) (sc : BitVec 2) (hint : BitVec 2) (w : BitVec 1) (ord : BitVec 3) (off : BitVec 20) :
    (op ++ d ++ g ++ base ++ idx ++ sc ++ hint ++ w ++ ord ++ off).extractLsb 22 20 = ord :=
  (((extract_high _ _ 0 3).trans (extract_low _ _ 0 3 (by decide))).trans (extract_all ord))
@[simp] theorem memory_off (op : BitVec 8) (d : BitVec 11) (g : BitVec 5) (base : BitVec 6) (idx : BitVec 6) (sc : BitVec 2) (hint : BitVec 2) (w : BitVec 1) (ord : BitVec 3) (off : BitVec 20) :
    (op ++ d ++ g ++ base ++ idx ++ sc ++ hint ++ w ++ ord ++ off).extractLsb 19 0 = off :=
  ((extract_low _ _ 0 20 (by decide)).trans (extract_all off))

/-! ### The copy slot -/

@[simp] theorem copy_op (op : BitVec 6) (sg : BitVec 5) (dg : BitVec 5) (sa : BitVec 6) (da : BitVec 6) (len : BitVec 6) (csh : BitVec 2) (bar : BitVec 6) (dcore : BitVec 4) (hint : BitVec 2) (imm : BitVec 16) :
    (op ++ sg ++ dg ++ sa ++ da ++ len ++ csh ++ bar ++ dcore ++ hint ++ imm).extractLsb 63 58 = op :=
  (((((((((((extract_high _ _ 42 6).trans (extract_high _ _ 40 6)).trans (extract_high _ _ 36 6)).trans (extract_high _ _ 30 6)).trans (extract_high _ _ 28 6)).trans (extract_high _ _ 22 6)).trans (extract_high _ _ 16 6)).trans (extract_high _ _ 10 6)).trans (extract_high _ _ 5 6)).trans (extract_high _ _ 0 6)).trans (extract_all op))
@[simp] theorem copy_sg (op : BitVec 6) (sg : BitVec 5) (dg : BitVec 5) (sa : BitVec 6) (da : BitVec 6) (len : BitVec 6) (csh : BitVec 2) (bar : BitVec 6) (dcore : BitVec 4) (hint : BitVec 2) (imm : BitVec 16) :
    (op ++ sg ++ dg ++ sa ++ da ++ len ++ csh ++ bar ++ dcore ++ hint ++ imm).extractLsb 57 53 = sg :=
  (((((((((((extract_high _ _ 37 5).trans (extract_high _ _ 35 5)).trans (extract_high _ _ 31 5)).trans (extract_high _ _ 25 5)).trans (extract_high _ _ 23 5)).trans (extract_high _ _ 17 5)).trans (extract_high _ _ 11 5)).trans (extract_high _ _ 5 5)).trans (extract_high _ _ 0 5)).trans (extract_low _ _ 0 5 (by decide))).trans (extract_all sg))
@[simp] theorem copy_dg (op : BitVec 6) (sg : BitVec 5) (dg : BitVec 5) (sa : BitVec 6) (da : BitVec 6) (len : BitVec 6) (csh : BitVec 2) (bar : BitVec 6) (dcore : BitVec 4) (hint : BitVec 2) (imm : BitVec 16) :
    (op ++ sg ++ dg ++ sa ++ da ++ len ++ csh ++ bar ++ dcore ++ hint ++ imm).extractLsb 52 48 = dg :=
  ((((((((((extract_high _ _ 32 5).trans (extract_high _ _ 30 5)).trans (extract_high _ _ 26 5)).trans (extract_high _ _ 20 5)).trans (extract_high _ _ 18 5)).trans (extract_high _ _ 12 5)).trans (extract_high _ _ 6 5)).trans (extract_high _ _ 0 5)).trans (extract_low _ _ 0 5 (by decide))).trans (extract_all dg))
@[simp] theorem copy_sa (op : BitVec 6) (sg : BitVec 5) (dg : BitVec 5) (sa : BitVec 6) (da : BitVec 6) (len : BitVec 6) (csh : BitVec 2) (bar : BitVec 6) (dcore : BitVec 4) (hint : BitVec 2) (imm : BitVec 16) :
    (op ++ sg ++ dg ++ sa ++ da ++ len ++ csh ++ bar ++ dcore ++ hint ++ imm).extractLsb 47 42 = sa :=
  (((((((((extract_high _ _ 26 6).trans (extract_high _ _ 24 6)).trans (extract_high _ _ 20 6)).trans (extract_high _ _ 14 6)).trans (extract_high _ _ 12 6)).trans (extract_high _ _ 6 6)).trans (extract_high _ _ 0 6)).trans (extract_low _ _ 0 6 (by decide))).trans (extract_all sa))
@[simp] theorem copy_da (op : BitVec 6) (sg : BitVec 5) (dg : BitVec 5) (sa : BitVec 6) (da : BitVec 6) (len : BitVec 6) (csh : BitVec 2) (bar : BitVec 6) (dcore : BitVec 4) (hint : BitVec 2) (imm : BitVec 16) :
    (op ++ sg ++ dg ++ sa ++ da ++ len ++ csh ++ bar ++ dcore ++ hint ++ imm).extractLsb 41 36 = da :=
  ((((((((extract_high _ _ 20 6).trans (extract_high _ _ 18 6)).trans (extract_high _ _ 14 6)).trans (extract_high _ _ 8 6)).trans (extract_high _ _ 6 6)).trans (extract_high _ _ 0 6)).trans (extract_low _ _ 0 6 (by decide))).trans (extract_all da))
@[simp] theorem copy_len (op : BitVec 6) (sg : BitVec 5) (dg : BitVec 5) (sa : BitVec 6) (da : BitVec 6) (len : BitVec 6) (csh : BitVec 2) (bar : BitVec 6) (dcore : BitVec 4) (hint : BitVec 2) (imm : BitVec 16) :
    (op ++ sg ++ dg ++ sa ++ da ++ len ++ csh ++ bar ++ dcore ++ hint ++ imm).extractLsb 35 30 = len :=
  (((((((extract_high _ _ 14 6).trans (extract_high _ _ 12 6)).trans (extract_high _ _ 8 6)).trans (extract_high _ _ 2 6)).trans (extract_high _ _ 0 6)).trans (extract_low _ _ 0 6 (by decide))).trans (extract_all len))
@[simp] theorem copy_csh (op : BitVec 6) (sg : BitVec 5) (dg : BitVec 5) (sa : BitVec 6) (da : BitVec 6) (len : BitVec 6) (csh : BitVec 2) (bar : BitVec 6) (dcore : BitVec 4) (hint : BitVec 2) (imm : BitVec 16) :
    (op ++ sg ++ dg ++ sa ++ da ++ len ++ csh ++ bar ++ dcore ++ hint ++ imm).extractLsb 29 28 = csh :=
  ((((((extract_high _ _ 12 2).trans (extract_high _ _ 10 2)).trans (extract_high _ _ 6 2)).trans (extract_high _ _ 0 2)).trans (extract_low _ _ 0 2 (by decide))).trans (extract_all csh))
@[simp] theorem copy_bar (op : BitVec 6) (sg : BitVec 5) (dg : BitVec 5) (sa : BitVec 6) (da : BitVec 6) (len : BitVec 6) (csh : BitVec 2) (bar : BitVec 6) (dcore : BitVec 4) (hint : BitVec 2) (imm : BitVec 16) :
    (op ++ sg ++ dg ++ sa ++ da ++ len ++ csh ++ bar ++ dcore ++ hint ++ imm).extractLsb 27 22 = bar :=
  (((((extract_high _ _ 6 6).trans (extract_high _ _ 4 6)).trans (extract_high _ _ 0 6)).trans (extract_low _ _ 0 6 (by decide))).trans (extract_all bar))
@[simp] theorem copy_dcore (op : BitVec 6) (sg : BitVec 5) (dg : BitVec 5) (sa : BitVec 6) (da : BitVec 6) (len : BitVec 6) (csh : BitVec 2) (bar : BitVec 6) (dcore : BitVec 4) (hint : BitVec 2) (imm : BitVec 16) :
    (op ++ sg ++ dg ++ sa ++ da ++ len ++ csh ++ bar ++ dcore ++ hint ++ imm).extractLsb 21 18 = dcore :=
  ((((extract_high _ _ 2 4).trans (extract_high _ _ 0 4)).trans (extract_low _ _ 0 4 (by decide))).trans (extract_all dcore))
@[simp] theorem copy_hint (op : BitVec 6) (sg : BitVec 5) (dg : BitVec 5) (sa : BitVec 6) (da : BitVec 6) (len : BitVec 6) (csh : BitVec 2) (bar : BitVec 6) (dcore : BitVec 4) (hint : BitVec 2) (imm : BitVec 16) :
    (op ++ sg ++ dg ++ sa ++ da ++ len ++ csh ++ bar ++ dcore ++ hint ++ imm).extractLsb 17 16 = hint :=
  (((extract_high _ _ 0 2).trans (extract_low _ _ 0 2 (by decide))).trans (extract_all hint))
@[simp] theorem copy_imm (op : BitVec 6) (sg : BitVec 5) (dg : BitVec 5) (sa : BitVec 6) (da : BitVec 6) (len : BitVec 6) (csh : BitVec 2) (bar : BitVec 6) (dcore : BitVec 4) (hint : BitVec 2) (imm : BitVec 16) :
    (op ++ sg ++ dg ++ sa ++ da ++ len ++ csh ++ bar ++ dcore ++ hint ++ imm).extractLsb 15 0 = imm :=
  ((extract_low _ _ 0 16 (by decide)).trans (extract_all imm))

/-! ### The matrix slot -/

@[simp] theorem matrix_op (op : BitVec 6) (z : BitVec 1) (ml : BitVec 3) (bk : BitVec 2) (bs : BitVec 6) (bo : BitVec 6) (msh : BitVec 2) (ss : BitVec 6) (hint : BitVec 2) (pin : BitVec 1) (r : BitVec 13) :
    (op ++ z ++ ml ++ bk ++ bs ++ bo ++ msh ++ ss ++ hint ++ pin ++ r).extractLsb 47 42 = op :=
  (((((((((((extract_high _ _ 29 6).trans (extract_high _ _ 28 6)).trans (extract_high _ _ 26 6)).trans (extract_high _ _ 20 6)).trans (extract_high _ _ 18 6)).trans (extract_high _ _ 12 6)).trans (extract_high _ _ 6 6)).trans (extract_high _ _ 4 6)).trans (extract_high _ _ 1 6)).trans (extract_high _ _ 0 6)).trans (extract_all op))
@[simp] theorem matrix_z (op : BitVec 6) (z : BitVec 1) (ml : BitVec 3) (bk : BitVec 2) (bs : BitVec 6) (bo : BitVec 6) (msh : BitVec 2) (ss : BitVec 6) (hint : BitVec 2) (pin : BitVec 1) (r : BitVec 13) :
    (op ++ z ++ ml ++ bk ++ bs ++ bo ++ msh ++ ss ++ hint ++ pin ++ r).extractLsb 41 41 = z :=
  (((((((((((extract_high _ _ 28 1).trans (extract_high _ _ 27 1)).trans (extract_high _ _ 25 1)).trans (extract_high _ _ 19 1)).trans (extract_high _ _ 17 1)).trans (extract_high _ _ 11 1)).trans (extract_high _ _ 5 1)).trans (extract_high _ _ 3 1)).trans (extract_high _ _ 0 1)).trans (extract_low _ _ 0 1 (by decide))).trans (extract_all z))
@[simp] theorem matrix_ml (op : BitVec 6) (z : BitVec 1) (ml : BitVec 3) (bk : BitVec 2) (bs : BitVec 6) (bo : BitVec 6) (msh : BitVec 2) (ss : BitVec 6) (hint : BitVec 2) (pin : BitVec 1) (r : BitVec 13) :
    (op ++ z ++ ml ++ bk ++ bs ++ bo ++ msh ++ ss ++ hint ++ pin ++ r).extractLsb 40 38 = ml :=
  ((((((((((extract_high _ _ 25 3).trans (extract_high _ _ 24 3)).trans (extract_high _ _ 22 3)).trans (extract_high _ _ 16 3)).trans (extract_high _ _ 14 3)).trans (extract_high _ _ 8 3)).trans (extract_high _ _ 2 3)).trans (extract_high _ _ 0 3)).trans (extract_low _ _ 0 3 (by decide))).trans (extract_all ml))
@[simp] theorem matrix_bk (op : BitVec 6) (z : BitVec 1) (ml : BitVec 3) (bk : BitVec 2) (bs : BitVec 6) (bo : BitVec 6) (msh : BitVec 2) (ss : BitVec 6) (hint : BitVec 2) (pin : BitVec 1) (r : BitVec 13) :
    (op ++ z ++ ml ++ bk ++ bs ++ bo ++ msh ++ ss ++ hint ++ pin ++ r).extractLsb 37 36 = bk :=
  (((((((((extract_high _ _ 23 2).trans (extract_high _ _ 22 2)).trans (extract_high _ _ 20 2)).trans (extract_high _ _ 14 2)).trans (extract_high _ _ 12 2)).trans (extract_high _ _ 6 2)).trans (extract_high _ _ 0 2)).trans (extract_low _ _ 0 2 (by decide))).trans (extract_all bk))
@[simp] theorem matrix_bs (op : BitVec 6) (z : BitVec 1) (ml : BitVec 3) (bk : BitVec 2) (bs : BitVec 6) (bo : BitVec 6) (msh : BitVec 2) (ss : BitVec 6) (hint : BitVec 2) (pin : BitVec 1) (r : BitVec 13) :
    (op ++ z ++ ml ++ bk ++ bs ++ bo ++ msh ++ ss ++ hint ++ pin ++ r).extractLsb 35 30 = bs :=
  ((((((((extract_high _ _ 17 6).trans (extract_high _ _ 16 6)).trans (extract_high _ _ 14 6)).trans (extract_high _ _ 8 6)).trans (extract_high _ _ 6 6)).trans (extract_high _ _ 0 6)).trans (extract_low _ _ 0 6 (by decide))).trans (extract_all bs))
@[simp] theorem matrix_bo (op : BitVec 6) (z : BitVec 1) (ml : BitVec 3) (bk : BitVec 2) (bs : BitVec 6) (bo : BitVec 6) (msh : BitVec 2) (ss : BitVec 6) (hint : BitVec 2) (pin : BitVec 1) (r : BitVec 13) :
    (op ++ z ++ ml ++ bk ++ bs ++ bo ++ msh ++ ss ++ hint ++ pin ++ r).extractLsb 29 24 = bo :=
  (((((((extract_high _ _ 11 6).trans (extract_high _ _ 10 6)).trans (extract_high _ _ 8 6)).trans (extract_high _ _ 2 6)).trans (extract_high _ _ 0 6)).trans (extract_low _ _ 0 6 (by decide))).trans (extract_all bo))
@[simp] theorem matrix_msh (op : BitVec 6) (z : BitVec 1) (ml : BitVec 3) (bk : BitVec 2) (bs : BitVec 6) (bo : BitVec 6) (msh : BitVec 2) (ss : BitVec 6) (hint : BitVec 2) (pin : BitVec 1) (r : BitVec 13) :
    (op ++ z ++ ml ++ bk ++ bs ++ bo ++ msh ++ ss ++ hint ++ pin ++ r).extractLsb 23 22 = msh :=
  ((((((extract_high _ _ 9 2).trans (extract_high _ _ 8 2)).trans (extract_high _ _ 6 2)).trans (extract_high _ _ 0 2)).trans (extract_low _ _ 0 2 (by decide))).trans (extract_all msh))
@[simp] theorem matrix_ss (op : BitVec 6) (z : BitVec 1) (ml : BitVec 3) (bk : BitVec 2) (bs : BitVec 6) (bo : BitVec 6) (msh : BitVec 2) (ss : BitVec 6) (hint : BitVec 2) (pin : BitVec 1) (r : BitVec 13) :
    (op ++ z ++ ml ++ bk ++ bs ++ bo ++ msh ++ ss ++ hint ++ pin ++ r).extractLsb 21 16 = ss :=
  (((((extract_high _ _ 3 6).trans (extract_high _ _ 2 6)).trans (extract_high _ _ 0 6)).trans (extract_low _ _ 0 6 (by decide))).trans (extract_all ss))
@[simp] theorem matrix_hint (op : BitVec 6) (z : BitVec 1) (ml : BitVec 3) (bk : BitVec 2) (bs : BitVec 6) (bo : BitVec 6) (msh : BitVec 2) (ss : BitVec 6) (hint : BitVec 2) (pin : BitVec 1) (r : BitVec 13) :
    (op ++ z ++ ml ++ bk ++ bs ++ bo ++ msh ++ ss ++ hint ++ pin ++ r).extractLsb 15 14 = hint :=
  ((((extract_high _ _ 1 2).trans (extract_high _ _ 0 2)).trans (extract_low _ _ 0 2 (by decide))).trans (extract_all hint))
@[simp] theorem matrix_pin (op : BitVec 6) (z : BitVec 1) (ml : BitVec 3) (bk : BitVec 2) (bs : BitVec 6) (bo : BitVec 6) (msh : BitVec 2) (ss : BitVec 6) (hint : BitVec 2) (pin : BitVec 1) (r : BitVec 13) :
    (op ++ z ++ ml ++ bk ++ bs ++ bo ++ msh ++ ss ++ hint ++ pin ++ r).extractLsb 13 13 = pin :=
  (((extract_high _ _ 0 1).trans (extract_low _ _ 0 1 (by decide))).trans (extract_all pin))
@[simp] theorem matrix_r (op : BitVec 6) (z : BitVec 1) (ml : BitVec 3) (bk : BitVec 2) (bs : BitVec 6) (bo : BitVec 6) (msh : BitVec 2) (ss : BitVec 6) (hint : BitVec 2) (pin : BitVec 1) (r : BitVec 13) :
    (op ++ z ++ ml ++ bk ++ bs ++ bo ++ msh ++ ss ++ hint ++ pin ++ r).extractLsb 12 0 = r :=
  ((extract_low _ _ 0 13 (by decide)).trans (extract_all r))

/-! ### The cluster slot -/

@[simp] theorem cluster_nw (nw : BitVec 1) (pr : BitVec 3) (c : BitVec 11) (b : BitVec 11) (a : BitVec 11) (d : BitVec 10) (op : BitVec 9) :
    (nw ++ pr ++ c ++ b ++ a ++ d ++ op).extractLsb 55 55 = nw :=
  (((((((extract_high _ _ 46 1).trans (extract_high _ _ 36 1)).trans (extract_high _ _ 25 1)).trans (extract_high _ _ 14 1)).trans (extract_high _ _ 3 1)).trans (extract_high _ _ 0 1)).trans (extract_all nw))
@[simp] theorem cluster_pr (nw : BitVec 1) (pr : BitVec 3) (c : BitVec 11) (b : BitVec 11) (a : BitVec 11) (d : BitVec 10) (op : BitVec 9) :
    (nw ++ pr ++ c ++ b ++ a ++ d ++ op).extractLsb 54 52 = pr :=
  (((((((extract_high _ _ 43 3).trans (extract_high _ _ 33 3)).trans (extract_high _ _ 22 3)).trans (extract_high _ _ 11 3)).trans (extract_high _ _ 0 3)).trans (extract_low _ _ 0 3 (by decide))).trans (extract_all pr))
@[simp] theorem cluster_c (nw : BitVec 1) (pr : BitVec 3) (c : BitVec 11) (b : BitVec 11) (a : BitVec 11) (d : BitVec 10) (op : BitVec 9) :
    (nw ++ pr ++ c ++ b ++ a ++ d ++ op).extractLsb 51 41 = c :=
  ((((((extract_high _ _ 32 11).trans (extract_high _ _ 22 11)).trans (extract_high _ _ 11 11)).trans (extract_high _ _ 0 11)).trans (extract_low _ _ 0 11 (by decide))).trans (extract_all c))
@[simp] theorem cluster_b (nw : BitVec 1) (pr : BitVec 3) (c : BitVec 11) (b : BitVec 11) (a : BitVec 11) (d : BitVec 10) (op : BitVec 9) :
    (nw ++ pr ++ c ++ b ++ a ++ d ++ op).extractLsb 40 30 = b :=
  (((((extract_high _ _ 21 11).trans (extract_high _ _ 11 11)).trans (extract_high _ _ 0 11)).trans (extract_low _ _ 0 11 (by decide))).trans (extract_all b))
@[simp] theorem cluster_a (nw : BitVec 1) (pr : BitVec 3) (c : BitVec 11) (b : BitVec 11) (a : BitVec 11) (d : BitVec 10) (op : BitVec 9) :
    (nw ++ pr ++ c ++ b ++ a ++ d ++ op).extractLsb 29 19 = a :=
  ((((extract_high _ _ 10 11).trans (extract_high _ _ 0 11)).trans (extract_low _ _ 0 11 (by decide))).trans (extract_all a))
@[simp] theorem cluster_d (nw : BitVec 1) (pr : BitVec 3) (c : BitVec 11) (b : BitVec 11) (a : BitVec 11) (d : BitVec 10) (op : BitVec 9) :
    (nw ++ pr ++ c ++ b ++ a ++ d ++ op).extractLsb 18 9 = d :=
  (((extract_high _ _ 0 10).trans (extract_low _ _ 0 10 (by decide))).trans (extract_all d))
@[simp] theorem cluster_op (nw : BitVec 1) (pr : BitVec 3) (c : BitVec 11) (b : BitVec 11) (a : BitVec 11) (d : BitVec 10) (op : BitVec 9) :
    (nw ++ pr ++ c ++ b ++ a ++ d ++ op).extractLsb 8 0 = op :=
  ((extract_low _ _ 0 9 (by decide)).trans (extract_all op))

end Sys2Proof
end

