-- ==== Sys2Proof/Laws/Store.lean ====
section
/-! SUPPORT. Laws of sparse maps: what a read gives after a write, and that every operation keeps the
canonical form. -/

namespace Sys2Proof.Machine

variable {β : Type}

@[simp] theorem Store.get_nil (d : β) (k : Nat) : Store.get d [] k = d := rfl

theorem Store.get_insert_same (d : β) (m : Store β) (k : Nat) (v : β) :
    Store.get d (Store.insert m k v) k = v := by
  induction m with
  | nil => simp [Store.insert, Store.get]
  | cons x r ih =>
    obtain ⟨i, w⟩ := x
    simp only [Store.insert]
    split
    · simp [Store.get, *]
    · split
      · simp [Store.get]
      · simp [Store.get, *]

theorem Store.get_insert_other (d : β) (m : Store β) (k j : Nat) (v : β) (h : j ≠ k) :
    Store.get d (Store.insert m k v) j = Store.get d m j := by
  induction m with
  | nil => simp [Store.insert, Store.get, h]
  | cons x r ih =>
    obtain ⟨i, w⟩ := x
    simp only [Store.insert]
    split
    · rename_i e; subst e; simp [Store.get, h]
    · split
      · simp [Store.get, h]
      · simp [Store.get, ih]

theorem Store.get_erase_other (d : β) (m : Store β) (k j : Nat) (h : j ≠ k) :
    Store.get d (Store.erase m k) j = Store.get d m j := by
  induction m with
  | nil => simp [Store.erase]
  | cons x r ih =>
    obtain ⟨i, w⟩ := x
    simp only [Store.erase]
    split
    · rename_i e; subst e; simp [Store.get, h, ih]
    · simp [Store.get, ih]

theorem Store.get_erase_same (d : β) (m : Store β) (k : Nat) :
    Store.get d (Store.erase m k) k = d := by
  induction m with
  | nil => rfl
  | cons x r ih =>
    obtain ⟨i, w⟩ := x
    simp only [Store.erase]
    split
    · exact ih
    · simp [Store.get, *]

section
variable [DecidableEq β]

theorem Store.wfFrom_mono (d : β) {lo lo' : Nat} {m : Store β} (h : lo' ≤ lo) (w : Store.wfFrom d lo m = true) :
    Store.wfFrom d lo' m = true := by
  cases m with
  | nil => rfl
  | cons x r =>
    obtain ⟨i, v⟩ := x
    simp only [Store.wfFrom, Bool.and_eq_true, decide_eq_true_eq] at *
    exact ⟨⟨by omega, w.1.2⟩, w.2⟩

theorem Store.get_below (d : β) {lo k : Nat} {m : Store β} (w : Store.wfFrom d lo m = true) (h : k < lo) :
    Store.get d m k = d := by
  induction m generalizing lo with
  | nil => rfl
  | cons x r ih =>
    obtain ⟨i, v⟩ := x
    simp only [Store.wfFrom, Bool.and_eq_true, decide_eq_true_eq] at w
    have : k ≠ i := by omega
    simp only [Store.get, this, if_false]
    exact ih w.2 (by omega)

/-- Reading what was written: at the same number. -/
theorem Store.get_set_same (d : β) (m : Store β) (k : Nat) (v : β) :
    Store.get d (Store.set d m k v) k = v := by
  unfold Store.set
  split
  · rename_i e; rw [e]; exact Store.get_erase_same d m k
  · exact Store.get_insert_same d m k v

/-- A write leaves every other number alone. -/
theorem Store.get_set_other (d : β) (m : Store β) (k j : Nat) (v : β) (h : j ≠ k) :
    Store.get d (Store.set d m k v) j = Store.get d m j := by
  unfold Store.set
  split
  · exact Store.get_erase_other d m k j h
  · exact Store.get_insert_other d m k j v h

theorem Store.erase_wfFrom (d : β) {lo : Nat} {m : Store β} (k : Nat) (w : Store.wfFrom d lo m = true) :
    Store.wfFrom d lo (Store.erase m k) = true := by
  induction m generalizing lo with
  | nil => rfl
  | cons x r ih =>
    obtain ⟨i, v⟩ := x
    have w0 := w
    simp only [Store.wfFrom, Bool.and_eq_true, decide_eq_true_eq] at w
    simp only [Store.erase]
    split
    · exact Store.wfFrom_mono d (by omega) (ih w.2)
    · simp only [Store.wfFrom, Bool.and_eq_true, decide_eq_true_eq]
      exact ⟨w.1, ih w.2⟩

theorem Store.insert_wfFrom (d : β) {lo : Nat} {m : Store β} (k : Nat) (v : β) (hv : v ≠ d) (hk : lo ≤ k)
    (w : Store.wfFrom d lo m = true) : Store.wfFrom d lo (Store.insert m k v) = true := by
  induction m generalizing lo with
  | nil => simp [Store.insert, Store.wfFrom, hv, hk]
  | cons x r ih =>
    obtain ⟨i, u⟩ := x
    simp only [Store.wfFrom, Bool.and_eq_true, decide_eq_true_eq] at w
    simp only [Store.insert]
    split
    · simp only [Store.wfFrom, Bool.and_eq_true, decide_eq_true_eq]
      exact ⟨⟨w.1.1, hv⟩, w.2⟩
    · split
      · simp only [Store.wfFrom, Bool.and_eq_true, decide_eq_true_eq]
        exact ⟨⟨hk, hv⟩, ⟨by omega, w.1.2⟩, w.2⟩
      · simp only [Store.wfFrom, Bool.and_eq_true, decide_eq_true_eq]
        exact ⟨w.1, ih (by omega) w.2⟩

/-- A write keeps the canonical form. -/
theorem Store.set_wf (d : β) {m : Store β} (k : Nat) (v : β) (w : Store.wf d m = true) :
    Store.wf d (Store.set d m k v) = true := by
  unfold Store.set
  split
  · exact Store.erase_wfFrom d k w
  · rename_i h; exact Store.insert_wfFrom d k v h (Nat.zero_le _) w

/-- A run of writes keeps the canonical form. -/
theorem Store.setRun_wf (d : β) {m : Store β} (k : Nat) (l : List β) (w : Store.wf d m = true) :
    Store.wf d (Store.setRun d m k l) = true := by
  induction l generalizing m k with
  | nil => exact w
  | cons v r ih => exact ih (k + 1) (Store.set_wf d k v w)

/-- A run of writes leaves every number outside it alone. -/
theorem Store.get_setRun_other (d : β) (m : Store β) (k j : Nat) (l : List β) (h : j < k ∨ k + l.length ≤ j) :
    Store.get d (Store.setRun d m k l) j = Store.get d m j := by
  induction l generalizing m k with
  | nil => rfl
  | cons v r ih =>
    simp only [List.length_cons] at h
    simp only [Store.setRun]
    rw [ih _ _ (by omega), Store.get_set_other d m k j v (by omega)]

/-- Inside the run it gives what was written. -/
theorem Store.get_setRun_same (d : β) (m : Store β) (k i : Nat) (l : List β)
    (h : i < l.length) : Store.get d (Store.setRun d m k l) (k + i) = l[i] := by
  induction l generalizing m k i with
  | nil => simp at h
  | cons v r ih =>
    simp only [Store.setRun]
    cases i with
    | zero =>
      rw [Store.get_setRun_other d _ _ _ _ (by omega)]
      exact Store.get_set_same d m k v
    | succ n =>
      have := ih (Store.set d m k v) (k + 1) n (by simpa using h)
      rw [show k + (n + 1) = k + 1 + n by omega, this]
      rfl

/-- Equal memories are equal data: two canonical maps that read alike are the same list. -/
theorem Store.ext_wfFrom (d : β) {lo : Nat} {m n : Store β} (hm : Store.wfFrom d lo m = true)
    (hn : Store.wfFrom d lo n = true) (h : ∀ k, Store.get d m k = Store.get d n k) : m = n := by
  induction m generalizing lo n with
  | nil =>
    cases n with
    | nil => rfl
    | cons y r =>
      obtain ⟨j, u⟩ := y
      simp only [Store.wfFrom, Bool.and_eq_true, decide_eq_true_eq] at hn
      have := h j
      simp [Store.get] at this
      exact absurd this.symm hn.1.2
  | cons x r ih =>
    obtain ⟨i, v⟩ := x
    have hm0 := hm
    simp only [Store.wfFrom, Bool.and_eq_true, decide_eq_true_eq] at hm
    cases n with
    | nil =>
      have := h i
      simp [Store.get] at this
      exact absurd this hm.1.2
    | cons y t =>
      obtain ⟨j, u⟩ := y
      have hn0 := hn
      simp only [Store.wfFrom, Bool.and_eq_true, decide_eq_true_eq] at hn
      have hij : i = j := by
        rcases Nat.lt_trichotomy i j with e | e | e
        · have h1 := h i
          have h2 : Store.get d ((j, u) :: t) i = d :=
            Store.get_below d (lo := j) (by
              simp only [Store.wfFrom, Bool.and_eq_true, decide_eq_true_eq]; exact ⟨⟨by omega, hn.1.2⟩, hn.2⟩) e
          rw [h2] at h1
          simp [Store.get] at h1
          exact absurd h1 hm.1.2
        · exact e
        · have h1 := h j
          have h2 : Store.get d ((i, v) :: r) j = d :=
            Store.get_below d (lo := i) (by
              simp only [Store.wfFrom, Bool.and_eq_true, decide_eq_true_eq]; exact ⟨⟨by omega, hm.1.2⟩, hm.2⟩) e
          rw [h2] at h1
          simp [Store.get] at h1
          exact absurd h1.symm hn.1.2
      subst hij
      have hv : v = u := by have := h i; simpa [Store.get] using this
      subst hv
      have : r = t := ih hm.2 hn.2 (fun k => by
        have := h k
        by_cases e : k = i
        · subst e
          rw [Store.get_below d hm.2 (by omega), Store.get_below d hn.2 (by omega)]
        · simpa [Store.get, e] using this)
      rw [this]

end

end Sys2Proof.Machine
end

