-- ==== Sys2Proof/Laws/Memory.lean ====
section
/-! SUPPORT. Memory: what a read gives after a write, and which operations keep the form of memory and the deckle. -/

namespace Sys2Proof.Machine

/-! ### Reading after writing -/

@[simp] theorem State.touchVersion_mem (s : State) (line : Nat) : (s.touchVersion line).mem = s.mem := by
  unfold State.touchVersion; split <;> rfl

@[simp] theorem State.memWrite_mem (s : State) (pa : Nat) (bs : List Byte) (p : Bool) :
    (s.memWrite pa bs p).mem = s.mem.setRun memDefault pa bs := State.touchVersion_mem _ _

/-- A byte outside the written ones reads as before. -/
theorem State.memWrite_other (s : State) (pa : Nat) (bs : List Byte) (p : Bool) (a : Nat)
    (h : a < pa ∨ pa + bs.length ≤ a) : (s.memWrite pa bs p).memByte a = s.memByte a := by
  unfold State.memByte
  rw [State.memWrite_mem, Store.get_setRun_other _ _ _ _ _ h]

/-- A written byte reads as written. -/
theorem State.memWrite_same (s : State) (pa : Nat) (bs : List Byte) (p : Bool) (i : Nat) (h : i < bs.length) :
    (s.memWrite pa bs p).memByte (pa + i) = bs[i] := by
  unfold State.memByte
  rw [State.memWrite_mem, Store.get_setRun_same _ _ _ _ _ h]

/-! ### The form of memory, and the deckle -/

/-- From s to t the form of memory and the range of the deckle are kept. -/
def State.Keeps (s t : State) : Prop := (s.MemoryOk → t.MemoryOk) ∧ (s.DeckleOk → t.DeckleOk)

theorem State.Keeps.refl (s : State) : s.Keeps s := ⟨id, id⟩

theorem State.Keeps.trans {s t u : State} (h : s.Keeps t) (g : t.Keeps u) : s.Keeps u :=
  ⟨fun m => g.1 (h.1 m), fun d => g.2 (h.2 d)⟩

/-- A change of other fields keeps both. -/
theorem State.Keeps.of_eq {s t : State} (m : t.mem = s.mem) (w : t.sw = s.sw) (d : t.deckMove = s.deckMove) : s.Keeps t := by
  refine ⟨fun h => ?_, fun h => ?_⟩
  · unfold State.MemoryOk at *; rw [m]; exact h
  · unfold State.DeckleOk at *; rw [w, d]; exact h

/-- A fold of operations that keep both keeps both. -/
theorem State.Keeps.fold {α : Type} (f : State → α → State) (h : ∀ (s : State) (a : α), s.Keeps (f s a)) (l : List α) (s : State) :
    s.Keeps (l.foldl f s) := by
  induction l generalizing s with
  | nil => exact .refl s
  | cons a r ih => exact (h s a).trans (ih (f s a))

theorem State.touchVersion_keeps (s : State) (line : Nat) : s.Keeps (s.touchVersion line) := by
  unfold State.touchVersion; split
  · exact .of_eq rfl rfl rfl
  · exact .refl s

theorem State.memWrite_keeps (s : State) (pa : Nat) (bs : List Byte) (p : Bool) : s.Keeps (s.memWrite pa bs p) := by
  unfold State.memWrite
  refine State.Keeps.trans (t := { s with mem := s.mem.setRun memDefault pa bs, memPoison := _ }) ⟨fun h => ?_, id⟩
    (State.touchVersion_keeps _ _)
  exact Store.setRun_wf _ _ _ h

theorem State.modCtx_keeps (s : State) (f : Ctx → Ctx) : s.Keeps (s.modCtx f) := .of_eq rfl rfl rfl
theorem State.modRegs_keeps (s : State) (f : ARegs → ARegs) : s.Keeps (s.modRegs f) := .of_eq rfl rfl rfl
theorem State.bump_keeps (s : State) : s.Keeps s.bump := .of_eq rfl rfl rfl
theorem State.wait_keeps (s : State) (w : WaitFor) : s.Keeps (s.wait w) := .of_eq rfl rfl rfl
theorem State.signal_keeps (s : State) (fn vec : Nat) : s.Keeps (s.signal fn vec) := .of_eq rfl rfl rfl
theorem State.setBar_keeps (s : State) (fn off : Nat) (v : Word) : s.Keeps (s.setBar fn off v) := .of_eq rfl rfl rfl
theorem State.logFault_keeps (s : State) (r : FaultRec) : s.Keeps (s.logFault r) :=
  (State.Keeps.of_eq rfl rfl rfl : s.Keeps { s.bump with faultLog := s.faultLog ++ [{ r with cycle := s.freeWord }] }).trans
    (State.signal_keeps _ _ _)

theorem State.latchSnapshot_keeps (s : State) : s.Keeps s.latchSnapshot := by
  unfold State.latchSnapshot
  extract_lets snap one
  refine State.Keeps.trans (t := { s with snap := snap, fresh := s.fresh + 1 }) (.of_eq rfl rfl rfl)
    (State.Keeps.fold one (fun u fn => ?_) _ _)
  show u.Keeps (if s.armed fn 0 then _ else _)
  split
  · exact (State.setBar_keeps u _ _ _).trans ((State.setBar_keeps _ _ _ _).trans (State.signal_keeps _ _ _))
  · exact State.setBar_keeps u _ _ _
theorem State.snapCause_keeps (s : State) (bit : Nat) : s.Keeps (s.snapCause bit) := by
  unfold State.snapCause; split
  · exact State.latchSnapshot_keeps s
  · exact .refl s
theorem State.fireFor_keeps (s : State) (fn : Nat) : s.Keeps (s.fireFor fn) := by
  unfold State.fireFor; split
  · exact State.latchSnapshot_keeps s
  · exact .refl s
theorem State.fireSnapshot_keeps (s : State) : s.Keeps s.fireSnapshot := State.fireFor_keeps s _
theorem State.machineCheck_keeps (s : State) : s.Keeps s.machineCheck := State.snapCause_keeps s 2

theorem State.report_keeps (s : State) (c : Cause) (detail : Word) : s.Keeps (s.report c detail) :=
  (State.logFault_keeps s _).trans (State.machineCheck_keeps _)

theorem State.wakeStack_keeps (s : State) (pa : Nat) : s.Keeps (s.wakeStack pa) := by
  unfold State.wakeStack; split
  · exact .of_eq rfl rfl rfl
  · exact .refl s

theorem State.noteAccess_keeps (s : State) (pa : Nat) : s.Keeps (s.noteAccess pa) := by
  unfold State.noteAccess; split
  · extract_lets k
    exact State.Keeps.trans (t := { s with nsCount := s.nsCount.set 0 k (Nat.min 255 (s.nsCount.get 0 k + 1)) })
      (.of_eq rfl rfl rfl) (State.wakeStack_keeps _ _)
  · exact .refl s

theorem State.writtenBack_keeps (s : State) : s.Keeps s.writtenBack := .of_eq rfl rfl rfl

theorem State.l2Access_keeps (s : State) (pa : Nat) (hint : BitVec 2) (cls : BitVec 4) (un write : Bool) :
    s.Keeps (s.l2Access pa hint cls un write) := by
  unfold State.l2Access
  split
  · exact .refl s
  · exact .of_eq rfl rfl rfl

theorem State.dropAccess_keeps (s : State) (pa : Nat) : s.Keeps (s.dropAccess pa) :=
  (State.report_keeps s _ _).trans (.of_eq rfl rfl rfl)

theorem State.orEntry_keeps (s : State) (ent : Nat) (bits : Word) : s.Keeps (s.orEntry ent bits) := by
  unfold State.orEntry
  refine State.Keeps.trans (t := { s with mem := s.mem.setRun memDefault ent _ }) ⟨fun h => ?_, id⟩
    (((State.touchVersion_keeps _ _).trans (State.wakeStack_keeps _ _)).trans (State.l2Access_keeps _ _ _ _ _ _))
  exact Store.setRun_wf _ _ _ h

theorem State.walkRead_keeps (s : State) (ent : Nat) : s.Keeps (s.walkRead ent) := by
  unfold State.walkRead; split
  · exact State.dropAccess_keeps s _
  · exact (State.wakeStack_keeps s _).trans (State.l2Access_keeps _ _ _ _ _ _)
theorem State.walkAccess_keeps (s : State) (root : Nat) (va : Word) : s.Keeps (s.walkAccess root va) :=
  State.Keeps.fold _ (fun s a => State.walkRead_keeps s a) _ _

theorem State.feltWrite_keeps (s : State) (pa : Nat) (bs : List Byte) (cls : BitVec 4) (un : Bool) :
    s.Keeps (s.feltWrite pa bs cls un) := by
  unfold State.feltWrite; split
  · exact State.dropAccess_keeps s _
  · exact ((State.memWrite_keeps s pa bs false).trans (State.wakeStack_keeps _ pa)).trans (State.l2Access_keeps _ _ _ _ _ _)

theorem State.traceOf_keeps (s : State) (ctx : BitVec 2) (kind : Nat) (pos detail : Word) :
    s.Keeps (s.traceOf ctx kind pos detail) := by
  unfold State.traceOf; split
  · extract_lets fn size head cap lost kept r b u w
    have h : s.Keeps u := .of_eq rfl rfl rfl
    have k : s.Keeps w := by
      show s.Keeps (if size = 0 then u else _)
      split
      · exact h
      · exact h.trans (State.feltWrite_keeps _ _ _ _ _)
    exact k.trans (t := w) (.trans (State.setBar_keeps w _ _ _) (State.setBar_keeps _ _ _ _))
  · exact .refl s
theorem State.traceRec_keeps (s : State) (kind : Nat) (pos detail : Word) : s.Keeps (s.traceRec kind pos detail) :=
  State.traceOf_keeps s _ _ _ _

theorem State.l2Pin_keeps (s : State) (pa : Nat) : s.Keeps (s.l2Pin pa).2 := by
  unfold State.l2Pin; dsimp only; split <;> exact .of_eq rfl rfl rfl

theorem State.physRead_keeps (s : State) (pa n : Nat) (hint : BitVec 2) (cls : BitVec 4) (un : Bool) :
    s.Keeps (s.physRead pa n hint cls un).2.2 := by
  unfold State.physRead; split
  · exact State.dropAccess_keeps s _
  · exact (State.noteAccess_keeps s pa).trans (State.l2Access_keeps _ _ _ _ _ _)

theorem State.physWrite_keeps (s : State) (pa : Nat) (bs : List Byte) (p : Bool) (hint : BitVec 2) (cls : BitVec 4)
    (un : Bool) : s.Keeps (s.physWrite pa bs p hint cls un) := by
  unfold State.physWrite; split
  · exact State.dropAccess_keeps s _
  · exact ((State.memWrite_keeps s pa bs p).trans (State.noteAccess_keeps _ pa)).trans (State.l2Access_keeps _ _ _ _ _ _)

theorem State.l2Lines_keeps (s : State) (pa n : Nat) (hint : BitVec 2) (cls : BitVec 4) (un : Bool) :
    s.Keeps (s.l2Lines pa n hint cls un) :=
  State.Keeps.fold _ (fun s a => (State.noteAccess_keeps s a).trans (State.l2Access_keeps _ _ _ _ _ _)) _ _
theorem State.feltLines_keeps (s : State) (pa n : Nat) (cls : BitVec 4) (un : Bool) : s.Keeps (s.feltLines pa n cls un) :=
  State.Keeps.fold _ (fun s a => (State.wakeStack_keeps s a).trans (State.l2Access_keeps _ _ _ _ _ _)) _ _

theorem State.feltRead_keeps (s : State) (pa n : Nat) (cls : BitVec 4) (un : Bool) : s.Keeps (s.feltRead pa n cls un).2 := by
  unfold State.feltRead; split
  · exact State.dropAccess_keeps s _
  · exact State.feltLines_keeps _ _ _ _ _

theorem State.install_keeps (s : State) (t : Tlb) : s.Keeps (s.install t) := by
  unfold State.install; dsimp only; split
  · exact .of_eq rfl rfl rfl
  · exact (State.orEntry_keeps s t.ent 0x100).trans (.of_eq rfl rfl rfl)

theorem State.lookup_keeps (s : State) (asid : BitVec 12) (root : Nat) (va : Word) :
    s.Keeps (s.lookup asid root va).2 := by
  unfold State.lookup; split
  · exact .refl s
  · split
    · exact .of_eq rfl rfl rfl
    · dsimp only
      split
      · exact (State.walkAccess_keeps s _ _).trans (State.install_keeps _ _)
      · exact State.walkAccess_keeps s _ _

theorem State.markWritten_keeps (s : State) (t : Tlb) : s.Keeps (s.markWritten t) := by
  unfold State.markWritten; split
  · exact .refl s
  · exact (State.orEntry_keeps s t.ent 0x200).trans (.of_eq rfl rfl rfl)

theorem State.translate_keeps (s : State) (asid : BitVec 12) (root : Nat) (va : Word) (acc : Access) :
    s.Keeps (s.translate asid root va acc).2 := by
  have h := State.lookup_keeps s asid root va
  unfold State.translate
  split
  · exact .refl s
  · split
    · rename_i e; rw [e] at h; split <;> exact h
    · rename_i e; rw [e] at h; exact h
    · rename_i e; rw [e] at h
      dsimp only at *
      split
      · exact h
      · split
        · exact h.trans (State.markWritten_keeps _ _)
        · exact h

end Sys2Proof.Machine
end

