-- ==== Sys2Proof/Laws/Scalar.lean ====
section
/-! SUPPORT. What the shared operations of the scalar slots do, each said once. -/

namespace Sys2Proof.Machine

theorem toNat_ne {n : Nat} {a b : BitVec n} (h : a ≠ b) : a.toNat ≠ b.toNat := fun e => h (BitVec.eq_of_toNat_eq e)

@[simp] theorem ARegs.wa_zero (r : ARegs) (v : Word) (p : Bool) : r.wa 0 v p = r := rfl

theorem ARegs.wa_of_ne (r : ARegs) {d : AReg} (h : d ≠ 0) (v : Word) (p : Bool) :
    r.wa d v p = { r with a := r.a.set 0 d.toNat v, aPoison := r.aPoison.set false d.toNat p } := if_neg h

theorem ARegs.ra_of_ne (r : ARegs) {d : AReg} (h : d ≠ 0) : r.ra d = r.a.get 0 d.toNat := if_neg h

@[simp] theorem ARegs.ra_zero (r : ARegs) : r.ra 0 = 0 := rfl

/-- a[d] after a write of a[d]. -/
theorem ARegs.wa_same (r : ARegs) {d : AReg} (h : d ≠ 0) (v : Word) (p : Bool) :
    (r.wa d v p).ra d = v ∧ (r.wa d v p).aPoison.get false d.toNat = p := by
  rw [ARegs.wa_of_ne r h, ARegs.ra_of_ne _ h]
  exact ⟨Store.get_set_same _ _ _ _, Store.get_set_same _ _ _ _⟩

/-- Every other register after a write of a[d]. -/
theorem ARegs.wa_other (r : ARegs) {d x : AReg} (h : x ≠ d ∨ x = 0) (v : Word) (p : Bool) :
    (r.wa d v p).ra x = r.ra x ∧ (r.wa d v p).aPoison.get false x.toNat = r.aPoison.get false x.toNat := by
  by_cases hd : d = 0
  · subst hd; exact ⟨rfl, rfl⟩
  · have hx : x ≠ d := by
      rcases h with h | h
      · exact h
      · subst h; exact Ne.symm hd
    rw [ARegs.wa_of_ne r hd]
    unfold ARegs.ra
    dsimp only
    rw [Store.get_set_other _ _ _ _ _ (toNat_ne hx), Store.get_set_other _ _ _ _ _ (toNat_ne hx)]
    exact ⟨rfl, rfl⟩

theorem ARegs.wa_frame (r : ARegs) (d : AReg) (v : Word) (p : Bool) :
    r.wa d v p = { r with a := (r.wa d v p).a, aPoison := (r.wa d v p).aPoison } := by
  by_cases hd : d = 0
  · subst hd; rfl
  · rw [ARegs.wa_of_ne r hd]

/-- A write of a[d], and of nothing else (R36, R50, R200). -/
theorem State.setA_wrote (s : State) (d : AReg) (v : Word) : s.WroteA (s.setA d v) d v false := by
  refine ⟨fun h => ARegs.wa_same _ h _ _, fun x hx => ARegs.wa_other _ hx _ _, ?_⟩
  unfold State.setA
  dsimp only
  rw [← ARegs.wa_frame]

/-- A slot none of whose registers is poisoned does what it does (R380). -/
theorem State.aSlot_clean {s : State} {l : List AReg} (h : s.Clean l) (slot : Nat) (t : State) :
    s.aSlot slot l t = t := by
  unfold State.aSlot
  rw [if_neg]
  simp only [List.any_eq_true, not_exists, not_and, Bool.not_eq_true]
  exact fun a ha => h a ha

/-- A write of k[d], and of nothing else. -/
theorem State.setK_wrote (s : State) (d : KReg) (b : Bool) :
    (d ≠ 0 → (s.setK d b).ctx.regs.rk d = b) ∧
    (∀ x : KReg, x ≠ d ∨ x = 0 → (s.setK d b).ctx.regs.rk x = s.ctx.regs.rk x) ∧
    s.setK d b = { s with ctx := { s.ctx with regs := { s.ctx.regs with k := (s.setK d b).ctx.regs.k } } } := by
  unfold State.setK ARegs.wk
  by_cases hd : d = 0
  · subst hd; exact ⟨fun h => absurd rfl h, fun _ _ => rfl, rfl⟩
  · rw [if_neg hd]
    have hb : (d == 0) = false := by simpa using hd
    refine ⟨fun _ => ?_, fun x hx => ?_, rfl⟩
    · simp only [ARegs.rk, hb, Bool.false_or, Store.get_set_same]
    · simp only [ARegs.rk]
      rcases hx with h | h
      · rw [Store.get_set_other _ _ _ _ _ (toNat_ne h)]
      · subst h; rfl

end Sys2Proof.Machine
end

