-- ==== Sys2Proof/Laws/Ops.lean ====
section
/-! SUPPORT. What the shared operations can do, each said once: the checks that slots make, jumps, contexts and
queues, segments, taking a trap. -/

namespace Sys2Proof.Machine

/-! ### Checks: what they answer -/

/-- No poisoned register: the slot goes on (R380). -/
theorem State.live_ok {s : State} {l : List AReg} (h : s.Clean l) (slot : Nat) : s.live slot l = .ok () := by
  unfold State.live
  rw [if_neg]
  simp only [List.any_eq_true, not_exists, not_and, Bool.not_eq_true]
  exact fun a ha => h a ha

/-- A register check goes on only without poison. -/
theorem State.live_clean {s : State} {l : List AReg} {slot : Nat} (h : s.live slot l = .ok ()) : s.Clean l := by
  unfold State.live at h
  split at h
  · cases h
  · rename_i n
    simp only [List.any_eq_true, not_exists, not_and, Bool.not_eq_true] at n
    exact fun a ha => n a ha

theorem State.need_ok (s : State) (slot : Nat) (c : Cause) (d : Word) : s.need true slot c d = .ok () := rfl
theorem State.need_no (s : State) (slot : Nat) (c : Cause) (d : Word) :
    s.need false slot c d = .error (s.aFault slot c d) := rfl
theorem State.until_ok (s : State) (w : WaitFor) : s.until true w = .ok () := rfl
theorem State.until_no (s : State) (w : WaitFor) : s.until false w = .error (s.wait w) := rfl

theorem fin_ok (s : State) : fin (.ok s) = .next s := rfl
theorem fin_error (s : State) : fin (.error s) = .next s := rfl

/-- Every A-half meaning that ends in `fin` answers a next state. -/
theorem fin_next (r : Except State State) : ∃ t, fin r = .next t := ⟨_, rfl⟩

/-! ### Jumps (R56, R292) -/

theorem State.jump_ok {s : State} {t : Word} (h : s.targetOk t) : s.jump t = .ok (s.goTo t) := by
  unfold State.jump; rw [h.1, h.2]; rfl

theorem State.jump_no {s : State} {t : Word} {c : Cause} (h : s.targetBad t c) :
    s.jump t = .error ((s.targetReport t c).aFault 0 c (if c = .codeFault then t else 0)) := by
  unfold State.jump; rw [h.1, h.2]; rfl

/-- A jump whose target's quire is behind a miss that waits holds its half. -/
theorem State.jump_waits {s : State} {t : Word} (h : s.targetServed t = false) :
    s.jump t = .error (s.awaitPage (frameOf t)) := by
  unfold State.jump; rw [h]; rfl

theorem State.jumpIf_no (s : State) (t : Word) : s.jumpIf false t = .ok s := rfl
theorem State.jumpIf_yes (s : State) (t : Word) : s.jumpIf true t = s.jump t := rfl

/-! ### Contexts and queues -/

theorem State.ctxAt_setCtxAt_other (s : State) (i j : BitVec 2) (c : Ctx) (h : j ≠ i) :
    (s.setCtxAt i c).ctxAt j = s.ctxAt j := by
  unfold State.setCtxAt State.ctxAt
  by_cases hi : i = s.cur
  · subst hi; rw [if_pos rfl, if_neg (by exact h), if_neg h]
  · rw [if_neg hi]
    dsimp only
    rw [Store.get_insert_other _ _ _ _ _ (toNat_ne h)]

theorem State.ctxAt_setCtxAt_same (s : State) (i : BitVec 2) (c : Ctx) : (s.setCtxAt i c).ctxAt i = c := by
  unfold State.setCtxAt State.ctxAt
  by_cases hi : i = s.cur
  · rw [if_pos hi, if_pos (by exact hi)]
  · rw [if_neg hi, if_neg (by exact hi)]
    exact Store.get_insert_same _ _ _ _

theorem Ctx.queue_setQueue_same (c : Ctx) (id : Nat) (q : List QEntry) : (c.setQueue id q).queue id = q :=
  Store.get_set_same _ _ _ _
theorem Ctx.queue_setQueue_other (c : Ctx) (id j : Nat) (q : List QEntry) (h : j ≠ id) :
    (c.setQueue id q).queue j = c.queue j := Store.get_set_other _ _ _ _ _ h

/-- A pop takes the head of its queue and of no other. -/
theorem Ctx.pop_same (c : Ctx) (id : Nat) : (c.pop id).queue id = (c.queue id).tail := Ctx.queue_setQueue_same _ _ _
theorem Ctx.pop_other (c : Ctx) (id j : Nat) (h : j ≠ id) : (c.pop id).queue j = c.queue j :=
  Ctx.queue_setQueue_other _ _ _ _ h

/-! ### Segments: an access that meets nothing -/

theorem State.segReady.here {s : State} {g : GReg} {off : Word} {w : Nat} {e : SegEntry} (h : s.segReady g off w e) :
    e.here = true := by
  unfold SegEntry.here
  rcases h.2.2.2.2.1 with h | h <;> rw [h] <;> rfl

theorem State.segCheck_ok {s : State} {g : GReg} {off : Word} {w : Nat} {e : SegEntry} (h : s.segReady g off w e)
    (slot : Nat) : s.segCheck slot g off w = .ok e := by
  have hh := h.here
  obtain ⟨h1, h2, h3, h4, -⟩ := h
  unfold State.segCheck State.own
  rw [h1]
  simp [Bind.bind, Except.bind, State.need, h2, h3, State.mayPin, h4, State.mustBeHere, hh]; rfl

theorem State.mustBeFull_ok {s : State} {g : GReg} {off : Word} {w : Nat} {e : SegEntry} (h : s.segReady g off w e) :
    s.mustBeFull e off = .ok () := by
  obtain ⟨-, -, -, -, -, h6, -⟩ := h
  simp [State.mustBeFull, SegEntry.isEmpty, h6]

theorem State.localOrder_ok {s : State} {g : GReg} {off : Word} {w : Nat} {e : SegEntry} (h : s.segReady g off w e) :
    s.localOrder = .ok () := by
  obtain ⟨-, -, -, -, -, -, h7⟩ := h
  unfold State.localOrder State.until
  rw [if_pos]
  simp
  intro q hq hc hk
  rcases h7 q hq hc with h | h
  · exact absurd h hk
  · exact h

/-! ### What keeps the form of memory and the deckle -/

theorem State.setA_keeps (s : State) (d : AReg) (v : Word) : s.Keeps (s.setA d v) := .of_eq rfl rfl rfl
theorem State.setK_keeps (s : State) (d : KReg) (v : Bool) : s.Keeps (s.setK d v) := .of_eq rfl rfl rfl
theorem State.setCtxAt_keeps (s : State) (i : BitVec 2) (c : Ctx) : s.Keeps (s.setCtxAt i c) := by
  unfold State.setCtxAt; split <;> exact .of_eq rfl rfl rfl
theorem State.modAt_keeps (s : State) (i : BitVec 2) (f : Ctx → Ctx) : s.Keeps (s.modAt i f) :=
  State.setCtxAt_keeps _ _ _
theorem State.clearLatches_keeps (s : State) : s.Keeps s.clearLatches := .of_eq rfl rfl rfl

theorem State.switchTo_keeps (s : State) (i : BitVec 2) : s.Keeps (s.switchTo i) := by
  unfold State.switchTo; split
  · exact .refl s
  · extract_lets out0 out c0 c u w
    refine State.Keeps.trans ?_ (State.traceRec_keeps _ _ _ _)
    have h : s.Keeps u := .of_eq rfl rfl rfl
    show s.Keeps w
    simp only [w]
    split
    · split
      · exact h.trans (State.clearLatches_keeps _)
      · exact h
    · exact h

theorem State.reserve_keeps (s : State) (id : Nat) (src : QFrom) (bun : Nat) : s.Keeps (s.reserve id src bun) :=
  (State.modCtx_keeps s _).trans (State.bump_keeps _)
theorem State.reserveAt_keeps (s : State) (i : BitVec 2) (id : Nat) (src : QFrom) (bun : Nat) :
    s.Keeps (s.reserveAt i id src bun) := (State.modAt_keeps s i _).trans (State.bump_keeps _)

theorem State.modSeg_keeps (s : State) (i : BitVec 2) (n : BitVec 16) (f : SegEntry → SegEntry) :
    s.Keeps (s.modSeg i n f) := .of_eq rfl rfl rfl
theorem State.touchSeg_keeps (s : State) (i : BitVec 2) (n : BitVec 16) : s.Keeps (s.touchSeg i n) :=
  (State.modSeg_keeps s i n _).trans (State.bump_keeps _)
theorem State.freeSeg_keeps (s : State) (i : BitVec 2) (n : BitVec 16) : s.Keeps (s.freeSeg i n) := .of_eq rfl rfl rfl
theorem State.pin_keeps (s : State) (i : BitVec 2) (l : List (BitVec 16)) : s.Keeps (s.pin i l) := .of_eq rfl rfl rfl
theorem State.unpin_keeps (s : State) (i : BitVec 2) (l : List (BitVec 16)) : s.Keeps (s.unpin i l) := .of_eq rfl rfl rfl
theorem State.spin_keeps (s : State) (i : BitVec 2) (l : List (BitVec 16)) : s.Keeps (s.spin i l) := .of_eq rfl rfl rfl
theorem State.unspin_keeps (s : State) (i : BitVec 2) (l : List (BitVec 16)) : s.Keeps (s.unspin i l) := .of_eq rfl rfl rfl
theorem State.modPeer_keeps (s : State) (core : Nat) (n : BitVec 16) (job : Word) (f : SegEntry → SegEntry) :
    s.Keeps (s.modPeer core n job f) := .of_eq rfl rfl rfl
theorem State.modPeerSeg_keeps (s : State) (core : Nat) (n : BitVec 16) (job : Word) (f : SegEntry → SegEntry) :
    s.Keeps (s.modPeerSeg core n job f) := by
  unfold State.modPeerSeg; split
  · exact .of_eq rfl rfl rfl
  · exact State.modPeer_keeps _ _ _ _ _

theorem State.unpinCopy_keeps (s : State) (c : Copy) : s.Keeps (s.unpinCopy c) := by
  unfold State.unpinCopy
  extract_lets u
  have h : s.Keeps u := State.unpin_keeps _ _ _
  split
  · split
    · exact h
    · exact h.trans (State.modPeerSeg_keeps _ _ _ _ _)
  · exact h

theorem State.l2Unpin_keeps (s : State) (l : List Nat) : s.Keeps (s.l2Unpin l) := .of_eq rfl rfl rfl
theorem State.endFetch_keeps (s : State) (i : BitVec 2) (f : Fetch) : s.Keeps (s.endFetch i f) :=
  (State.unpin_keeps s i _).trans (State.l2Unpin_keeps _ _)

theorem State.dropFetches_keeps (s : State) (l : List LagEntry) : s.Keeps (s.dropFetches l) := by
  refine State.Keeps.fold _ (fun s e => ?_) l s
  split
  · exact State.endFetch_keeps _ _ _
  · exact .refl s

theorem State.dropM_keeps (s : State) (i : BitVec 2) : s.Keeps (s.dropM i) := .of_eq rfl rfl rfl
theorem State.dropHead_keeps (s : State) : s.Keeps s.dropHead := by
  unfold State.dropHead; split
  · exact .refl s
  · exact (State.dropFetches_keeps s _).trans (State.modCtx_keeps _ _)

theorem State.unbind_keeps (s : State) (t : Stream) : s.Keeps (s.unbind t) := by
  unfold State.unbind
  extract_lets u
  have h : s.Keeps u := .of_eq rfl rfl rfl
  split
  · exact h.trans (State.unspin_keeps _ _ _)
  · exact h

theorem State.dropStreamEntries_keeps (s : State) (t : Stream) : s.Keeps (s.dropStreamEntries t) :=
  State.modAt_keeps _ _ _

theorem State.stopCopies_keeps (s : State) (i : BitVec 2) : s.Keeps (s.stopCopies i) := by
  unfold State.stopCopies
  extract_lets mine u
  exact (State.Keeps.fold _ (fun s c => State.unpinCopy_keeps s c) mine s).trans (.of_eq rfl rfl rfl)

theorem State.stopWork_keeps (s : State) (i : BitVec 2) : s.Keeps (s.stopWork i) := by
  unfold State.stopWork
  extract_lets u w x y
  have h : s.Keeps y := (((State.stopCopies_keeps s i).trans (State.Keeps.fold _ (fun s t => State.unbind_keeps s t) _ u)).trans
    (State.Keeps.fold _ (fun s (z : ZStore) => State.unpin_keeps s z.ctx z.seg.toList) _ w)).trans (.of_eq rfl rfl rfl)
  refine h.trans ?_
  split
  · split
    · rename_i p _ _
      exact (State.unspin_keeps y p.ctx [p.src, p.dst]).trans (.of_eq rfl rfl rfl)
    · exact .refl y
  · exact .refl y

theorem State.endTask_keeps (s : State) (st : Status) (stopped : Bool) : s.Keeps (s.endTask st stopped) := by
  unfold State.endTask
  extract_lets u w ins x keep
  have h : s.Keeps u := (State.dropFetches_keeps _ _).trans (State.dropM_keeps _ _)
  have h1 : s.Keeps w := by
    simp only [w]; split
    · exact h.trans (State.stopWork_keeps _ _)
    · exact h
  refine State.Keeps.trans ?_ (State.modCtx_keeps _ _)
  exact (h1.trans (State.Keeps.fold _ (fun s t => State.unbind_keeps s t) ins w)).trans (.of_eq rfl rfl rfl)

theorem State.stopTask_keeps (s : State) (c : Cause) (first : Option Cause) (d : Word) : s.Keeps (s.stopTask c first d) := by
  unfold State.stopTask
  extract_lets t u w x
  have h : s.Keeps u := State.logFault_keeps _ _
  have hw : u.Keeps w := State.machineCheck_keeps _
  refine State.Keeps.trans (t := x) ?_ (State.endTask_keeps x _ _)
  simp only [x]; split
  · exact (h.trans hw).trans (.of_eq rfl rfl rfl)
  · exact h

/-! ### Taking a trap -/

theorem State.fetchReport_keeps (s : State) (frame : Word) (c : Cause) : s.Keeps (s.fetchReport frame c) := by
  unfold State.fetchReport; split
  · split
    · exact State.dropAccess_keeps s _
    · exact .refl s
  · exact .refl s
theorem State.targetReport_keeps (s : State) (t : Word) (c : Cause) : s.Keeps (s.targetReport t c) :=
  State.fetchReport_keeps s _ _
theorem State.putLatches_keeps (s : State) (l : Latches) : s.Keeps (s.putLatches l) := .of_eq rfl rfl rfl

theorem State.marked_keeps (s : State) (m : Mark) : s.Keeps { s with mark := m } := .of_eq rfl rfl rfl

theorem State.park_keeps (s : State) (who : ParkedBy) (va : Word) (c : Cause) (j : JobDesc) : s.Keeps (s.park who va c j) := by
  unfold State.park; split
  · exact .refl s
  · exact .of_eq rfl rfl rfl

theorem State.frameWord_keeps (s : State) (pa off : Nat) (un : Bool) (v : Word) (p : Bool) :
    s.Keeps (s.frameWord pa off un v p) := State.physWrite_keeps _ _ _ _ _ _ _

theorem State.serveEntry_keeps (s : State) (t : TrapInfo) (va : Word) (c : Cause) : s.Keeps (s.serveEntry t va c) := by
  unfold State.serveEntry; split
  · exact (State.stopTask_keeps _ _ _ _).trans (State.marked_keeps _ _)
  · exact ((State.park_keeps _ _ _ _ _).trans (State.modCtx_keeps _ _)).trans (State.marked_keeps _ _)

theorem State.noteMiss_keeps (s : State) (asid : BitVec 12) (va : Word) (staging : Bool) : s.Keeps (s.noteMiss asid va staging) := by
  unfold State.noteMiss; split
  · exact .of_eq rfl rfl rfl
  · split
    · exact .refl s
    · exact .of_eq rfl rfl rfl
theorem State.entryWaits_keeps (s : State) (t : TrapInfo) : s.Keeps (s.entryWaits t) :=
  (State.modCtx_keeps s _).trans (State.wait_keeps _ _)

theorem State.enterHandler_keeps (s : State) (t : TrapInfo) : s.Keeps (s.enterHandler t) := by
  have h : s.Keeps (s.frameAt (s.ctx.handFor t).frame .write).2 := State.translate_keeps _ _ _ _ _
  have stop (u : State) : u.Keeps { (u.stopTask .double (some t.cause) t.detail) with mark := .trapped t } :=
    (State.stopTask_keeps _ _ _ _).trans (State.marked_keeps _ _)
  unfold State.enterHandler
  dsimp only
  split
  · rename_i e; rw [e] at h
    split
    · exact h.trans (State.serveEntry_keeps _ _ _ _)
    · exact h.trans (stop _)
  · rename_i e; rw [e] at h
    split
    · exact (h.trans (State.modCtx_keeps _ _)).trans (State.wait_keeps _ _)
    · split
      · exact (h.trans (State.dropAccess_keeps _ _)).trans (stop _)
      · split
        · split
          · exact h.trans (State.serveEntry_keeps _ _ _ _)
          · exact (h.trans (State.targetReport_keeps _ _ _)).trans (stop _)
        · refine State.Keeps.trans ?_ (State.marked_keeps _ _)
          refine State.Keeps.trans ?_ (State.modCtx_keeps _ _)
          refine State.Keeps.trans ?_ (State.Keeps.fold _ (fun s w => State.frameWord_keeps s _ _ _ _ _) _ _)
          split
          · exact h.trans (State.dropHead_keeps _)
          · exact h

theorem State.toControlCore_keeps (s : State) (t : TrapInfo) : s.Keeps (s.toControlCore t) := by
  unfold State.toControlCore
  extract_lets u w
  have h : s.Keeps w := (State.modCtx_keeps s _).trans (State.traceRec_keeps u _ _ _)
  split
  · split
    · exact h.trans (State.marked_keeps w _)
    · exact (h.trans (State.park_keeps w _ _ _ _)).trans (State.marked_keeps _ _)
  · exact ((h.trans (State.modCtx_keeps w _)).trans (State.signal_keeps _ _ _)).trans (State.marked_keeps _ _)
  · exact (h.trans (State.report_keeps w _ _)).trans (State.marked_keeps _ _)
  · split <;> exact (h.trans (State.stopTask_keeps w _ _ _)).trans (State.marked_keeps _ _)

theorem State.raise_keeps (s : State) (t : TrapInfo) : s.Keeps (s.raise t) := by
  unfold State.raise
  extract_lets refused
  split
  rename_i t' u e
  have h : s.Keeps u := by
    split at e
    · injection e with _ e; subst e; exact .of_eq rfl rfl rfl
    · injection e with _ e; subst e; exact .refl s
  split
  · dsimp only
    split
    · exact h.trans (State.entryWaits_keeps u _)
    · split
      · exact (h.trans (State.noteMiss_keeps u _ _ _)).trans (State.entryWaits_keeps _ _)
      · exact (h.trans (State.traceRec_keeps u _ _ _)).trans (State.enterHandler_keeps _ _)
  · exact h.trans (State.toControlCore_keeps u _)

theorem State.aFault_keeps (s : State) (slot : Nat) (c : Cause) (d : Word) : s.Keeps (s.aFault slot c d) :=
  State.raise_keeps _ _
theorem State.xFault_keeps (s : State) (slot : Nat) (c : Cause) (d : Word) : s.Keeps (s.xFault slot c d) :=
  State.raise_keeps _ _

theorem State.restoreA_keeps (s : State) (pa : Nat) (un : Bool) : s.Keeps (s.restoreA pa un) := by
  unfold State.restoreA
  refine State.Keeps.fold _ (fun s i => ?_) _ _
  exact (State.physRead_keeps s _ _ _ _ _).trans (.of_eq rfl rfl rfl)
theorem State.resumeAside_keeps (s : State) (a : Aside) : s.Keeps (s.resumeAside a) :=
  ((State.l2Unpin_keeps s _).trans (State.putLatches_keeps _ a.latches)).trans (State.modCtx_keeps _ _)
theorem State.dropAside_keeps (s : State) (a : Aside) (target : Word) : s.Keeps (s.dropAside a target) :=
  (State.dropFetches_keeps s _).trans (State.modCtx_keeps _ _)

/-! ### Misses and translated accesses (R75, R77) -/

/-- With no miss pending, the miss of an access holds an entry and a walker. -/
theorem State.walkServed_free {s : State} (h : s.misses = []) (asid : BitVec 12) (va : Word) (staging : Bool) :
    s.walkServed asid va staging = true := by
  unfold State.walkServed State.noteMiss
  cases hc : s.tcache.find? (·.covers asid va) with
  | some t =>
    have hm := List.find?_some hc
    have : s.tcache.any (·.covers asid va) = true := List.any_eq_true.2 ⟨t, List.mem_of_find?_eq_some hc, hm⟩
    simp [this]
  | none => cases staging <;> simp [h, missHeld, missRoom, missesServed, State.missOn]

/-- A translation that the TLB holds makes no miss. -/
theorem State.walkServed_hit {s : State} {asid : BitVec 12} {va : Word} (h : s.tlb.any (·.covers asid va) = true)
    (staging : Bool) : s.walkServed asid va staging = true := by
  simp [State.walkServed, h]

/-- A memory-slot access that meets nothing goes where it translates to. -/
theorem State.gCheck_ok {s s1 : State} {va : Word} {w : Nat} {acc : Access} {pa : Nat} {t : Tlb}
    (h : s.globReady va w acc pa t s1) (slot : Nat) : s.gCheck slot va w acc = .ok (pa, t, s1) := by
  obtain ⟨h1, h2, h3, h4⟩ := h
  have hi : ufield va 56 8 = 0 := by simp only [ufield, Nat.shiftRight_eq_div_pow, Nat.div_eq_of_lt h1, Nat.zero_mod]
  simp [State.gCheck, hi, h2, h3, h4]

/-- A memory-slot access whose miss no walker serves holds its half: the miss is noted, and nothing else changes. -/
theorem State.gCheck_waits {s : State} {va : Word} {w : Nat} {acc : Access} (h1 : va.toNat < 2 ^ 56)
    (h2 : va.toNat % w = 0) (h3 : s.walkServed s.ctx.job.asid va false = false) (slot : Nat) :
    s.gCheck slot va w acc = .error ((s.noteMiss s.ctx.job.asid va false).wait .engine) := by
  have hi : ufield va 56 8 = 0 := by simp only [ufield, Nat.shiftRight_eq_div_pow, Nat.div_eq_of_lt h1, Nat.zero_mod]
  simp [State.gCheck, hi, h2, h3]

end Sys2Proof.Machine
end

