-- ==== Sys2Proof/Laws/PerInstr.lean ====
section
/-! SUPPORT. Per-instruction laws. Family Codable: an instruction that no slot encodes (an event of the machine, or the slot
of zeros) writes no register a bundle names and pops no queue. -/

namespace Sys2Proof.Laws.Codable

/-- What no slot encodes names no destination and pops nothing. -/
def Statement (i : Instr) : Prop := (encode i).isNone = true → i.writes = [] ∧ i.aPops = []

theorem aHalfIssue : Statement (.aHalfIssue) := fun _ => ⟨rfl, rfl⟩
theorem xHalfIssue : Statement (.xHalfIssue) := fun _ => ⟨rfl, rfl⟩
theorem resultLanding : Statement (.resultLanding) := fun _ => ⟨rfl, rfl⟩
theorem yield : Statement (.yield) := fun _ => ⟨rfl, rfl⟩
theorem contextSwitch : Statement (.contextSwitch) := fun _ => ⟨rfl, rfl⟩
theorem quantumExpiry : Statement (.quantumExpiry) := fun _ => ⟨rfl, rfl⟩
theorem bundleExpansion : Statement (.bundleExpansion) := fun _ => ⟨rfl, rfl⟩
theorem quireFetch : ∀ x1, Statement (.quireFetch x1) := fun _ _ => ⟨rfl, rfl⟩
theorem nop : Statement (.nop) := fun _ => ⟨rfl, rfl⟩
theorem bra : ∀ x1, Statement (.bra x1) := fun _ h => nomatch h
theorem brf : ∀ x1 x2 x3, Statement (.brf x1 x2 x3) := fun _ _ _ h => nomatch h
theorem brq : ∀ x1 x2, Statement (.brq x1 x2) := fun _ _ h => nomatch h
theorem brp : ∀ x1 x2 x3, Statement (.brp x1 x2 x3) := fun _ _ _ h => nomatch h
theorem jmpr : ∀ x1 x2 x3 x4, Statement (.jmpr x1 x2 x3 x4) := fun _ _ _ _ h => nomatch h
theorem call : ∀ x1 x2, Statement (.call x1 x2) := fun _ _ h => nomatch h
theorem ret : ∀ x1 x2 x3, Statement (.ret x1 x2 x3) := fun _ _ _ h => nomatch h
theorem loop : ∀ x1 x2 x3, Statement (.loop x1 x2 x3) := fun _ _ _ h => nomatch h
theorem lend : ∀ x1 x2, Statement (.lend x1 x2) := fun _ _ h => nomatch h
theorem jtab : ∀ x1 x2 x3 x4, Statement (.jtab x1 x2 x3 x4) := fun _ _ _ _ h => nomatch h
theorem trap : ∀ x1 x2 x3, Statement (.trap x1 x2 x3) := fun _ _ _ h => nomatch h
theorem trapSet : ∀ x1 x2 x3, Statement (.trapSet x1 x2 x3) := fun _ _ _ h => nomatch h
theorem trapClr : Statement (.trapClr) := fun h => nomatch h
theorem retire : Statement (.retire) := fun h => nomatch h
theorem trig : Statement (.trig) := fun h => nomatch h
theorem wvis : Statement (.wvis) := fun h => nomatch h
theorem eret : Statement (.eret) := fun h => nomatch h
theorem eretGo : ∀ x1, Statement (.eretGo x1) := fun _ h => nomatch h
theorem bara : ∀ x1 x2 x3, Statement (.bara x1 x2 x3) := fun _ _ _ h => nomatch h
theorem barw : ∀ x1 x2 x3, Statement (.barw x1 x2 x3) := fun _ _ _ h => nomatch h
theorem grow : ∀ x1, Statement (.grow x1) := fun _ h => nomatch h
theorem add : ∀ x1, Statement (.add x1) := fun _ h => nomatch h
theorem sub : ∀ x1, Statement (.sub x1) := fun _ h => nomatch h
theorem and : ∀ x1, Statement (.and x1) := fun _ h => nomatch h
theorem or : ∀ x1, Statement (.or x1) := fun _ h => nomatch h
theorem xor : ∀ x1, Statement (.xor x1) := fun _ h => nomatch h
theorem shl : ∀ x1, Statement (.shl x1) := fun _ h => nomatch h
theorem shr : ∀ x1, Statement (.shr x1) := fun _ h => nomatch h
theorem sra : ∀ x1, Statement (.sra x1) := fun _ h => nomatch h
theorem mul : ∀ x1, Statement (.mul x1) := fun _ h => nomatch h
theorem mulh : ∀ x1, Statement (.mulh x1) := fun _ h => nomatch h
theorem mulhw : ∀ x1, Statement (.mulhw x1) := fun _ h => nomatch h
theorem min : ∀ x1, Statement (.min x1) := fun _ h => nomatch h
theorem max : ∀ x1, Statement (.max x1) := fun _ h => nomatch h
theorem wmin : ∀ x1, Statement (.wmin x1) := fun _ h => nomatch h
theorem wmax : ∀ x1, Statement (.wmax x1) := fun _ h => nomatch h
theorem addi : ∀ x1, Statement (.addi x1) := fun _ h => nomatch h
theorem andi : ∀ x1, Statement (.andi x1) := fun _ h => nomatch h
theorem ori : ∀ x1, Statement (.ori x1) := fun _ h => nomatch h
theorem xori : ∀ x1, Statement (.xori x1) := fun _ h => nomatch h
theorem shli : ∀ x1, Statement (.shli x1) := fun _ h => nomatch h
theorem shri : ∀ x1, Statement (.shri x1) := fun _ h => nomatch h
theorem srai : ∀ x1, Statement (.srai x1) := fun _ h => nomatch h
theorem li : ∀ x1 x2 x3, Statement (.li x1 x2 x3) := fun _ _ _ h => nomatch h
theorem lih : ∀ x1, Statement (.lih x1) := fun _ h => nomatch h
theorem lea : ∀ x1 x2 x3, Statement (.lea x1 x2 x3) := fun _ _ _ h => nomatch h
theorem cmpeq : ∀ x1, Statement (.cmpeq x1) := fun _ h => nomatch h
theorem cmplt : ∀ x1, Statement (.cmplt x1) := fun _ h => nomatch h
theorem cmpltw : ∀ x1, Statement (.cmpltw x1) := fun _ h => nomatch h
theorem cmpeqi : ∀ x1, Statement (.cmpeqi x1) := fun _ h => nomatch h
theorem cmplti : ∀ x1, Statement (.cmplti x1) := fun _ h => nomatch h
theorem selk : ∀ x1 x2, Statement (.selk x1 x2) := fun _ _ h => nomatch h
theorem kand : ∀ x1, Statement (.kand x1) := fun _ h => nomatch h
theorem kor : ∀ x1, Statement (.kor x1) := fun _ h => nomatch h
theorem kxor : ∀ x1, Statement (.kxor x1) := fun _ h => nomatch h
theorem knot : ∀ x1 x2 x3, Statement (.knot x1 x2 x3) := fun _ _ _ h => nomatch h
theorem bfx : ∀ x1 x2 x3, Statement (.bfx x1 x2 x3) := fun _ _ _ h => nomatch h
theorem bfi : ∀ x1 x2 x3, Statement (.bfi x1 x2 x3) := fun _ _ _ h => nomatch h
theorem clz : ∀ x1, Statement (.clz x1) := fun _ h => nomatch h
theorem ctz : ∀ x1, Statement (.ctz x1) := fun _ h => nomatch h
theorem popc : ∀ x1, Statement (.popc x1) := fun _ h => nomatch h
theorem mfsr : ∀ x1 x2 x3, Statement (.mfsr x1 x2 x3) := fun _ _ _ h => nomatch h
theorem mtsr : ∀ x1 x2 x3, Statement (.mtsr x1 x2 x3) := fun _ _ _ h => nomatch h
theorem getg : ∀ x1 x2 x3, Statement (.getg x1 x2 x3) := fun _ _ _ h => nomatch h
theorem setg : ∀ x1 x2 x3, Statement (.setg x1 x2 x3) := fun _ _ _ h => nomatch h
theorem popsq : ∀ x1 x2, Statement (.popsq x1 x2) := fun _ _ h => nomatch h
theorem popbq : ∀ x1 x2, Statement (.popbq x1 x2) := fun _ _ h => nomatch h
theorem lda : ∀ x1 x2 x3, Statement (.lda x1 x2 x3) := fun _ _ _ h => nomatch h
theorem ldaLocal : ∀ x1 x2 x3, Statement (.ldaLocal x1 x2 x3) := fun _ _ _ h => nomatch h
theorem sta : ∀ x1 x2 x3, Statement (.sta x1 x2 x3) := fun _ _ _ h => nomatch h
theorem staLocal : ∀ x1 x2 x3, Statement (.staLocal x1 x2 x3) := fun _ _ _ h => nomatch h
theorem ldq : ∀ x1 x2, Statement (.ldq x1 x2) := fun _ _ h => nomatch h
theorem ldqLocal : ∀ x1 x2, Statement (.ldqLocal x1 x2) := fun _ _ h => nomatch h
theorem ldqx : ∀ x1 x2, Statement (.ldqx x1 x2) := fun _ _ h => nomatch h
theorem ldqxLocal : ∀ x1 x2, Statement (.ldqxLocal x1 x2) := fun _ _ h => nomatch h
theorem stq : ∀ x1 x2, Statement (.stq x1 x2) := fun _ _ h => nomatch h
theorem stqLocal : ∀ x1 x2, Statement (.stqLocal x1 x2) := fun _ _ h => nomatch h
theorem loadDataArrival : ∀ x1, Statement (.loadDataArrival x1) := fun _ _ => ⟨rfl, rfl⟩
theorem storePerformed : ∀ x1, Statement (.storePerformed x1) := fun _ _ => ⟨rfl, rfl⟩
theorem atomAdd : ∀ x1 x2, Statement (.atomAdd x1 x2) := fun _ _ h => nomatch h
theorem atomMin : ∀ x1 x2, Statement (.atomMin x1 x2) := fun _ _ h => nomatch h
theorem atomMax : ∀ x1 x2, Statement (.atomMax x1 x2) := fun _ _ h => nomatch h
theorem atomWmin : ∀ x1 x2, Statement (.atomWmin x1 x2) := fun _ _ h => nomatch h
theorem atomWmax : ∀ x1 x2, Statement (.atomWmax x1 x2) := fun _ _ h => nomatch h
theorem atomAnd : ∀ x1 x2, Statement (.atomAnd x1 x2) := fun _ _ h => nomatch h
theorem atomOr : ∀ x1 x2, Statement (.atomOr x1 x2) := fun _ _ h => nomatch h
theorem atomXor : ∀ x1 x2, Statement (.atomXor x1 x2) := fun _ _ h => nomatch h
theorem atomSwap : ∀ x1 x2, Statement (.atomSwap x1 x2) := fun _ _ h => nomatch h
theorem atomCas : ∀ x1 x2, Statement (.atomCas x1 x2) := fun _ _ h => nomatch h
theorem atomFadd : ∀ x1 x2, Statement (.atomFadd x1 x2) := fun _ _ h => nomatch h
theorem atomQadd : ∀ x1 x2, Statement (.atomQadd x1 x2) := fun _ _ h => nomatch h
theorem atomLocal : ∀ x1 x2 x3, Statement (.atomLocal x1 x2 x3) := fun _ _ _ h => nomatch h
theorem clrd : ∀ x1 x2, Statement (.clrd x1 x2) := fun x1 _ h => by cases x1 <;> cases h
theorem cmstStage : ∀ x1 x2, Statement (.cmstStage x1 x2) := fun _ _ h => nomatch h
theorem cmstCommit : ∀ x1 x2 x3, Statement (.cmstCommit x1 x2 x3) := fun _ _ _ h => nomatch h
theorem cmab : Statement (.cmab) := fun h => nomatch h
theorem fence : ∀ x1 x2, Statement (.fence x1 x2) := fun _ _ h => nomatch h
theorem sbind : ∀ x1 x2 x3 x4, Statement (.sbind x1 x2 x3 x4) := fun _ x2 _ _ h => by cases x2 <;> cases h
theorem sunb : ∀ x1, Statement (.sunb x1) := fun _ h => nomatch h
theorem sfence : Statement (.sfence) := fun h => nomatch h
theorem segnew : ∀ x1 x2 x3 x4 x5, Statement (.segnew x1 x2 x3 x4 x5) := fun _ _ _ _ _ h => nomatch h
theorem segfree : ∀ x1, Statement (.segfree x1) := fun _ h => nomatch h
theorem segpin : ∀ x1, Statement (.segpin x1) := fun _ h => nomatch h
theorem segunpin : ∀ x1, Statement (.segunpin x1) := fun _ h => nomatch h
theorem segsz : ∀ x1 x2, Statement (.segsz x1 x2) := fun _ _ h => nomatch h
theorem segclr : ∀ x1 x2 x3 x4, Statement (.segclr x1 x2 x3 x4) := fun _ _ _ _ h => nomatch h
theorem segfmt : ∀ x1 x2 x3, Statement (.segfmt x1 x2 x3) := fun _ _ _ h => nomatch h
theorem shld : ∀ x1 x2 x3, Statement (.shld x1 x2 x3) := fun _ _ _ h => nomatch h
theorem shst : ∀ x1 x2 x3, Statement (.shst x1 x2 x3) := fun _ _ _ h => nomatch h
theorem cpss : ∀ x1 x2 x3 x4 x5 x6, Statement (.cpss x1 x2 x3 x4 x5 x6) := fun _ _ _ _ _ _ h => nomatch h
theorem cpsp : ∀ x1 x2 x3 x4 x5 x6 x7, Statement (.cpsp x1 x2 x3 x4 x5 x6 x7) := fun _ _ _ _ _ _ _ h => nomatch h
theorem cpgs : ∀ x1 x2 x3 x4 x5 x6, Statement (.cpgs x1 x2 x3 x4 x5 x6) := fun _ _ _ _ _ _ h => nomatch h
theorem cpsg : ∀ x1 x2 x3 x4 x5 x6, Statement (.cpsg x1 x2 x3 x4 x5 x6) := fun _ _ _ _ _ _ h => nomatch h
theorem cpts : ∀ x1 x2 x3 x4 x5 x6, Statement (.cpts x1 x2 x3 x4 x5 x6) := fun _ _ _ _ _ _ h => nomatch h
theorem cpst : ∀ x1 x2 x3 x4 x5 x6, Statement (.cpst x1 x2 x3 x4 x5 x6) := fun _ _ _ _ _ _ h => nomatch h
theorem cpwarm : ∀ x1 x2 x3 x4, Statement (.cpwarm x1 x2 x3 x4) := fun _ _ _ _ h => nomatch h
theorem cpfill : ∀ x1 x2 x3 x4 x5, Statement (.cpfill x1 x2 x3 x4 x5) := fun _ _ _ _ _ h => nomatch h
theorem cpwait : ∀ x1 x2, Statement (.cpwait x1 x2) := fun _ _ h => nomatch h
theorem cpcan : ∀ x1, Statement (.cpcan x1) := fun _ h => nomatch h
theorem copyUnitWrite : ∀ x1, Statement (.copyUnitWrite x1) := fun _ _ => ⟨rfl, rfl⟩
theorem copyCompletion : ∀ x1, Statement (.copyCompletion x1) := fun _ _ => ⟨rfl, rfl⟩
theorem parkedAccessRelease : ∀ x1 x2, Statement (.parkedAccessRelease x1 x2) := fun _ _ _ => ⟨rfl, rfl⟩
theorem xpin : ∀ x1 x2 x3 x4 x5, Statement (.xpin x1 x2 x3 x4 x5) := fun _ _ _ _ _ h => nomatch h
theorem xpout : Statement (.xpout) := fun h => nomatch h
theorem xmit : ∀ x1 x2, Statement (.xmit x1 x2) := fun _ _ h => nomatch h
theorem xsel : ∀ x1 x2 x3, Statement (.xsel x1 x2 x3) := fun _ _ _ h => nomatch h
theorem phaseStart : Statement (.phaseStart) := fun _ => ⟨rfl, rfl⟩
theorem phasetimeout : Statement (.phasetimeout) := fun _ => ⟨rfl, rfl⟩
theorem routerCycle : Statement (.routerCycle) := fun _ => ⟨rfl, rfl⟩
theorem phaseabort : ∀ x1, Statement (.phaseabort x1) := fun _ _ => ⟨rfl, rfl⟩
theorem cgjoin : ∀ x1 x2 x3 x4, Statement (.cgjoin x1 x2 x3 x4) := fun _ _ _ _ h => nomatch h
theorem cgred : ∀ x1 x2 x3 x4 x5 x6 x7 x8 x9 x10, Statement (.cgred x1 x2 x3 x4 x5 x6 x7 x8 x9 x10) := fun _ _ _ _ _ _ _ _ _ _ h => nomatch h
theorem cgbc : ∀ x1 x2 x3 x4 x5 x6 x7 x8 x9, Statement (.cgbc x1 x2 x3 x4 x5 x6 x7 x8 x9) := fun _ _ _ _ _ _ _ _ _ h => nomatch h
theorem cgleave : ∀ x1, Statement (.cgleave x1) := fun _ h => nomatch h
theorem collectiveStart : ∀ x1, Statement (.collectiveStart x1) := fun _ _ => ⟨rfl, rfl⟩
theorem groupDrained : ∀ x1, Statement (.groupDrained x1) := fun _ _ => ⟨rfl, rfl⟩
theorem enq : ∀ x1 x2 x3 x4, Statement (.enq x1 x2 x3 x4) := fun _ _ _ _ h => nomatch h
theorem enqDelivery : ∀ x1, Statement (.enqDelivery x1) := fun _ _ => ⟨rfl, rfl⟩
theorem mld : ∀ x1 x2 x3 x4, Statement (.mld x1 x2 x3 x4) := fun _ _ _ _ h => nomatch h
theorem zclr : ∀ x1, Statement (.zclr x1) := fun _ h => nomatch h
theorem mma : ∀ x1 x2 x3 x4 x5 x6 x7, Statement (.mma x1 x2 x3 x4 x5 x6 x7) := fun _ _ _ _ _ _ _ h => nomatch h
theorem zrd : ∀ x1 x2 x3, Statement (.zrd x1 x2 x3) := fun _ _ _ h => nomatch h
theorem zst : ∀ x1 x2 x3 x4 x5, Statement (.zst x1 x2 x3 x4 x5) := fun _ _ _ _ _ h => nomatch h
theorem tileFetch : ∀ x1, Statement (.tileFetch x1) := fun _ _ => ⟨rfl, rfl⟩
theorem arrayAccept : Statement (.arrayAccept) := fun _ => ⟨rfl, rfl⟩
theorem zstWritePerformed : ∀ x1, Statement (.zstWritePerformed x1) := fun _ _ => ⟨rfl, rfl⟩
theorem iadd : ∀ x1, Statement (.iadd x1) := fun _ h => nomatch h
theorem isub : ∀ x1, Statement (.isub x1) := fun _ h => nomatch h
theorem imin : ∀ x1, Statement (.imin x1) := fun _ h => nomatch h
theorem imax : ∀ x1, Statement (.imax x1) := fun _ h => nomatch h
theorem vWmin : ∀ x1, Statement (.vWmin x1) := fun _ h => nomatch h
theorem vWmax : ∀ x1, Statement (.vWmax x1) := fun _ h => nomatch h
theorem iabs : ∀ x1, Statement (.iabs x1) := fun _ h => nomatch h
theorem vAnd : ∀ x1, Statement (.vAnd x1) := fun _ h => nomatch h
theorem vOr : ∀ x1, Statement (.vOr x1) := fun _ h => nomatch h
theorem vXor : ∀ x1, Statement (.vXor x1) := fun _ h => nomatch h
theorem andn : ∀ x1, Statement (.andn x1) := fun _ h => nomatch h
theorem vShl : ∀ x1, Statement (.vShl x1) := fun _ h => nomatch h
theorem vShr : ∀ x1, Statement (.vShr x1) := fun _ h => nomatch h
theorem vSra : ∀ x1, Statement (.vSra x1) := fun _ h => nomatch h
theorem rol : ∀ x1, Statement (.rol x1) := fun _ h => nomatch h
theorem iadds : ∀ x1, Statement (.iadds x1) := fun _ h => nomatch h
theorem isubs : ∀ x1, Statement (.isubs x1) := fun _ h => nomatch h
theorem wadds : ∀ x1, Statement (.wadds x1) := fun _ h => nomatch h
theorem wsubs : ∀ x1, Statement (.wsubs x1) := fun _ h => nomatch h
theorem imul : ∀ x1, Statement (.imul x1) := fun _ h => nomatch h
theorem imulh : ∀ x1, Statement (.imulh x1) := fun _ h => nomatch h
theorem wmulh : ∀ x1, Statement (.wmulh x1) := fun _ h => nomatch h
theorem vdot4 : ∀ x1 x2, Statement (.vdot4 x1 x2) := fun x1 _ h => by cases x1 <;> cases h
theorem vPopc : ∀ x1, Statement (.vPopc x1) := fun _ h => nomatch h
theorem vClz : ∀ x1, Statement (.vClz x1) := fun _ h => nomatch h
theorem sel : ∀ x1, Statement (.sel x1) := fun _ h => nomatch h
theorem mov : ∀ x1, Statement (.mov x1) := fun _ h => nomatch h
theorem vBfx : ∀ x1, Statement (.vBfx x1) := fun _ h => nomatch h
theorem vBfi : ∀ x1, Statement (.vBfi x1) := fun _ h => nomatch h
theorem laneCompare : ∀ x1 x2 x3 x4 x5, Statement (.laneCompare x1 x2 x3 x4 x5) := fun _ _ _ _ _ h => nomatch h
theorem pand : ∀ x1, Statement (.pand x1) := fun _ h => nomatch h
theorem por : ∀ x1, Statement (.por x1) := fun _ h => nomatch h
theorem pxor : ∀ x1, Statement (.pxor x1) := fun _ h => nomatch h
theorem pnot : ∀ x1 x2 x3, Statement (.pnot x1 x2 x3) := fun _ _ _ h => nomatch h
theorem pany : ∀ x1 x2 x3, Statement (.pany x1 x2 x3) := fun _ _ _ h => nomatch h
theorem pcnt : ∀ x1 x2 x3, Statement (.pcnt x1 x2 x3) := fun _ _ _ h => nomatch h
theorem lperm : ∀ x1, Statement (.lperm x1) := fun _ h => nomatch h
theorem lbc : ∀ x1, Statement (.lbc x1) := fun _ h => nomatch h
theorem lrot : ∀ x1, Statement (.lrot x1) := fun _ h => nomatch h
theorem xmv : ∀ x1 x2 x3 x4, Statement (.xmv x1 x2 x3 x4) := fun _ _ _ _ h => nomatch h
theorem xbc : ∀ x1 x2 x3 x4 x5, Statement (.xbc x1 x2 x3 x4 x5) := fun _ _ _ _ _ h => nomatch h
theorem cvt : ∀ x1 x2, Statement (.cvt x1 x2) := fun x1 _ h => by cases x1 <;> cases h
theorem cvtWiden : ∀ x1 x2 x3, Statement (.cvtWiden x1 x2 x3) := fun _ _ _ h => nomatch h
theorem cvtNarrow : ∀ x1 x2 x3 x4 x5 x6, Statement (.cvtNarrow x1 x2 x3 x4 x5 x6) := fun _ _ _ _ _ _ h => nomatch h
theorem qntE2m1b : ∀ x1, Statement (.qntE2m1b x1) := fun _ h => nomatch h
theorem dqntE2m1b : ∀ x1 x2, Statement (.dqntE2m1b x1 x2) := fun _ _ h => nomatch h
theorem fadd : ∀ x1, Statement (.fadd x1) := fun _ h => nomatch h
theorem fsub : ∀ x1, Statement (.fsub x1) := fun _ h => nomatch h
theorem fmul : ∀ x1, Statement (.fmul x1) := fun _ h => nomatch h
theorem ffma : ∀ x1, Statement (.ffma x1) := fun _ h => nomatch h
theorem ffms : ∀ x1, Statement (.ffms x1) := fun _ h => nomatch h
theorem fnma : ∀ x1, Statement (.fnma x1) := fun _ h => nomatch h
theorem fdiv : ∀ x1, Statement (.fdiv x1) := fun _ h => nomatch h
theorem fsqrt : ∀ x1, Statement (.fsqrt x1) := fun _ h => nomatch h
theorem fmin : ∀ x1, Statement (.fmin x1) := fun _ h => nomatch h
theorem fmax : ∀ x1, Statement (.fmax x1) := fun _ h => nomatch h
theorem fabs : ∀ x1, Statement (.fabs x1) := fun _ h => nomatch h
theorem fneg : ∀ x1, Statement (.fneg x1) := fun _ h => nomatch h
theorem fcps : ∀ x1, Statement (.fcps x1) := fun _ h => nomatch h
theorem fclass : ∀ x1, Statement (.fclass x1) := fun _ h => nomatch h
theorem vred : ∀ x1 x2, Statement (.vred x1 x2) := fun _ _ h => nomatch h
theorem frcp : ∀ x1, Statement (.frcp x1) := fun _ h => nomatch h
theorem frsq : ∀ x1, Statement (.frsq x1) := fun _ h => nomatch h
theorem fexp2 : ∀ x1, Statement (.fexp2 x1) := fun _ h => nomatch h
theorem flog2 : ∀ x1, Statement (.flog2 x1) := fun _ h => nomatch h
theorem fsin : ∀ x1, Statement (.fsin x1) := fun _ h => nomatch h
theorem fcos : ∀ x1, Statement (.fcos x1) := fun _ h => nomatch h
theorem ftanh : ∀ x1, Statement (.ftanh x1) := fun _ h => nomatch h
theorem fsigm : ∀ x1, Statement (.fsigm x1) := fun _ h => nomatch h
theorem specialFunction16 : ∀ x1 x2 x3, Statement (.specialFunction16 x1 x2 x3) := fun _ _ _ h => nomatch h
theorem qenc : ∀ x1 x2, Statement (.qenc x1 x2) := fun _ _ h => nomatch h
theorem qadd : ∀ x1, Statement (.qadd x1) := fun _ h => nomatch h
theorem qsub : ∀ x1, Statement (.qsub x1) := fun _ h => nomatch h
theorem qneg : ∀ x1, Statement (.qneg x1) := fun _ h => nomatch h
theorem qmul : ∀ x1, Statement (.qmul x1) := fun _ h => nomatch h
theorem qdiv : ∀ x1, Statement (.qdiv x1) := fun _ h => nomatch h
theorem qinv : ∀ x1, Statement (.qinv x1) := fun _ h => nomatch h
theorem qcmpeq : ∀ x1 x2 x3 x4, Statement (.qcmpeq x1 x2 x3 x4) := fun _ _ _ _ h => nomatch h
theorem qdig : ∀ x1 x2, Statement (.qdig x1 x2) := fun _ _ h => nomatch h
theorem qsetd : ∀ x1 x2, Statement (.qsetd x1 x2) := fun _ _ h => nomatch h
theorem qdec : ∀ x1 x2, Statement (.qdec x1 x2) := fun _ _ h => nomatch h
theorem qcvt : ∀ x1, Statement (.qcvt x1) := fun _ h => nomatch h
theorem tlbMiss : ∀ x1 x2, Statement (.tlbMiss x1 x2) := fun _ _ _ => ⟨rfl, rfl⟩
theorem pageWalk : ∀ x1 x2, Statement (.pageWalk x1 x2) := fun _ _ _ => ⟨rfl, rfl⟩
theorem xivcGo : ∀ x1, Statement (.xivcGo x1) := fun _ _ => ⟨rfl, rfl⟩
theorem invalidationComplete : Statement (.invalidationComplete) := fun _ => ⟨rfl, rfl⟩
theorem nsEpochEnd : ∀ x1, Statement (.nsEpochEnd x1) := fun _ _ => ⟨rfl, rfl⟩
theorem nsPromotion : ∀ x1 x2, Statement (.nsPromotion x1 x2) := fun _ _ _ => ⟨rfl, rfl⟩
theorem nsDemotion : ∀ x1 x2, Statement (.nsDemotion x1 x2) := fun _ _ _ => ⟨rfl, rfl⟩
theorem nsrsvWrite : ∀ x1 x2, Statement (.nsrsvWrite x1 x2) := fun _ _ _ => ⟨rfl, rfl⟩
theorem layerPowerDown : ∀ x1, Statement (.layerPowerDown x1) := fun _ _ => ⟨rfl, rfl⟩
theorem hbmWake : ∀ x1, Statement (.hbmWake x1) := fun _ _ => ⟨rfl, rfl⟩
theorem tminvWrite : ∀ x1, Statement (.tminvWrite x1) := fun _ _ => ⟨rfl, rfl⟩
theorem l2wmWrite : ∀ x1 x2, Statement (.l2wmWrite x1 x2) := fun _ _ _ => ⟨rfl, rfl⟩
theorem l2WriteBack : Statement (.l2WriteBack) := fun _ => ⟨rfl, rfl⟩
theorem l2WriteBackInvalidate : Statement (.l2WriteBackInvalidate) := fun _ => ⟨rfl, rfl⟩
theorem cmpctlWrite : ∀ x1, Statement (.cmpctlWrite x1) := fun _ _ => ⟨rfl, rfl⟩
theorem linkReplay : ∀ x1, Statement (.linkReplay x1) := fun _ _ => ⟨rfl, rfl⟩
theorem linkRetrain : ∀ x1, Statement (.linkRetrain x1) := fun _ _ => ⟨rfl, rfl⟩
theorem segmentRecall : Statement (.segmentRecall) := fun _ => ⟨rfl, rfl⟩
theorem pushOut : ∀ x1 x2, Statement (.pushOut x1 x2) := fun _ _ _ => ⟨rfl, rfl⟩
theorem tamperMove : ∀ x1 x2 x3, Statement (.tamperMove x1 x2 x3) := fun _ _ _ _ => ⟨rfl, rfl⟩
theorem deckleTakeWay : Statement (.deckleTakeWay) := fun _ => ⟨rfl, rfl⟩
theorem deckleGiveWay : Statement (.deckleGiveWay) := fun _ => ⟨rfl, rfl⟩
theorem deckleEpochEnd : Statement (.deckleEpochEnd) := fun _ => ⟨rfl, rfl⟩
theorem streamFetch : ∀ x1, Statement (.streamFetch x1) := fun _ _ => ⟨rfl, rfl⟩
theorem streamWrite : ∀ x1, Statement (.streamWrite x1) := fun _ _ => ⟨rfl, rfl⟩
theorem admission : ∀ x1, Statement (.admission x1) := fun _ _ => ⟨rfl, rfl⟩
theorem launchCheck : ∀ x1, Statement (.launchCheck x1) := fun _ _ => ⟨rfl, rfl⟩
theorem lookaheadRevoke : Statement (.lookaheadRevoke) := fun _ => ⟨rfl, rfl⟩
theorem stagingStart : ∀ x1 x2, Statement (.stagingStart x1 x2) := fun _ _ _ => ⟨rfl, rfl⟩
theorem stagingAbandon : ∀ x1, Statement (.stagingAbandon x1) := fun _ _ => ⟨rfl, rfl⟩
theorem refill : ∀ x1 x2, Statement (.refill x1 x2) := fun _ _ _ => ⟨rfl, rfl⟩
theorem dispatch : ∀ x1, Statement (.dispatch x1) := fun _ _ => ⟨rfl, rfl⟩
theorem taskRelease : ∀ x1, Statement (.taskRelease x1) := fun _ _ => ⟨rfl, rfl⟩
theorem jcbPost : Statement (.jcbPost) := fun _ => ⟨rfl, rfl⟩
theorem cancelApply : Statement (.cancelApply) := fun _ => ⟨rfl, rfl⟩
theorem enqueueTake : ∀ x1, Statement (.enqueueTake x1) := fun _ _ => ⟨rfl, rfl⟩
theorem drainPoint : Statement (.drainPoint) := fun _ => ⟨rfl, rfl⟩
theorem heavySave : ∀ x1, Statement (.heavySave x1) := fun _ _ => ⟨rfl, rfl⟩
theorem preemptTask : ∀ x1, Statement (.preemptTask x1) := fun _ _ => ⟨rfl, rfl⟩
theorem taskResume : ∀ x1, Statement (.taskResume x1) := fun _ _ => ⟨rfl, rfl⟩
theorem trapEntry : ∀ x1, Statement (.trapEntry x1) := fun _ _ => ⟨rfl, rfl⟩
theorem trapToControlCore : ∀ x1, Statement (.trapToControlCore x1) := fun _ _ => ⟨rfl, rfl⟩
theorem softError : ∀ x1, Statement (.softError x1) := fun _ _ => ⟨rfl, rfl⟩
theorem coreMigration : ∀ x1 x2, Statement (.coreMigration x1 x2) := fun _ _ _ => ⟨rfl, rfl⟩
theorem sliceSpare : ∀ x1 x2, Statement (.sliceSpare x1 x2) := fun _ _ _ => ⟨rfl, rfl⟩
theorem thermalThrottle : ∀ x1, Statement (.thermalThrottle x1) := fun _ _ => ⟨rfl, rfl⟩
theorem thermalShutdown : ∀ x1, Statement (.thermalShutdown x1) := fun _ _ => ⟨rfl, rfl⟩
theorem pwrcapWrite : ∀ x1, Statement (.pwrcapWrite x1) := fun _ _ => ⟨rfl, rfl⟩
theorem launch : Statement (.launch) := fun _ => ⟨rfl, rfl⟩
theorem cancel : Statement (.cancel) := fun _ => ⟨rfl, rfl⟩
theorem preempt : Statement (.preempt) := fun _ => ⟨rfl, rfl⟩
theorem resume : Statement (.resume) := fun _ => ⟨rfl, rfl⟩
theorem tbind : Statement (.tbind) := fun _ => ⟨rfl, rfl⟩
theorem tunbind : Statement (.tunbind) := fun _ => ⟨rfl, rfl⟩
theorem qcreate : Statement (.qcreate) := fun _ => ⟨rfl, rfl⟩
theorem qdestroy : Statement (.qdestroy) := fun _ => ⟨rfl, rfl⟩
theorem functionLevelReset : Statement (.functionLevelReset) := fun _ => ⟨rfl, rfl⟩
theorem bar2Read : ∀ x1, Statement (.bar2Read x1) := fun _ _ => ⟨rfl, rfl⟩
theorem bar2Write : ∀ x1 x2, Statement (.bar2Write x1 x2) := fun _ _ _ => ⟨rfl, rfl⟩
theorem pcfgWrite : ∀ x1 x2, Statement (.pcfgWrite x1 x2) := fun _ _ _ => ⟨rfl, rfl⟩
theorem twinWrite : ∀ x1, Statement (.twinWrite x1) := fun _ _ => ⟨rfl, rfl⟩
theorem cmpstClear : Statement (.cmpstClear) := fun _ => ⟨rfl, rfl⟩
theorem comparatorCheck : ∀ x1 x2, Statement (.comparatorCheck x1 x2) := fun _ _ _ => ⟨rfl, rfl⟩
theorem cgspanWrite : ∀ x1 x2, Statement (.cgspanWrite x1 x2) := fun _ _ _ => ⟨rfl, rfl⟩
theorem dbgStop : Statement (.dbgStop) := fun _ => ⟨rfl, rfl⟩
theorem dbgGo : Statement (.dbgGo) := fun _ => ⟨rfl, rfl⟩
theorem dbgStep : Statement (.dbgStep) := fun _ => ⟨rfl, rfl⟩
theorem snapshotFire : Statement (.snapshotFire) := fun _ => ⟨rfl, rfl⟩
theorem trcbaseWrite : ∀ x1, Statement (.trcbaseWrite x1) := fun _ _ => ⟨rfl, rfl⟩
theorem trclostClear : Statement (.trclostClear) := fun _ => ⟨rfl, rfl⟩
theorem lpselWrite : ∀ x1, Statement (.lpselWrite x1) := fun _ _ => ⟨rfl, rfl⟩
theorem pcfgsClear : Statement (.pcfgsClear) := fun _ => ⟨rfl, rfl⟩
theorem registerWrite : ∀ x1 x2, Statement (.registerWrite x1 x2) := fun _ _ _ => ⟨rfl, rfl⟩
theorem powerOn : ∀ x1, Statement (.powerOn x1) := fun _ _ => ⟨rfl, rfl⟩
theorem bootLinkUp : ∀ x1, Statement (.bootLinkUp x1) := fun _ _ => ⟨rfl, rfl⟩
theorem bootDhcp : ∀ x1, Statement (.bootDhcp x1) := fun _ _ => ⟨rfl, rfl⟩
theorem bootTftp : ∀ x1, Statement (.bootTftp x1) := fun _ _ => ⟨rfl, rfl⟩
theorem imageVerify : ∀ x1, Statement (.imageVerify x1) := fun _ _ => ⟨rfl, rfl⟩
theorem bootConfigure : ∀ x1, Statement (.bootConfigure x1) := fun _ _ => ⟨rfl, rfl⟩
theorem mailboxSlotWrite : ∀ x1 x2 x3, Statement (.mailboxSlotWrite x1 x2 x3) := fun _ _ _ _ => ⟨rfl, rfl⟩
theorem badrec : Statement (.badrec) := fun _ => ⟨rfl, rfl⟩
theorem remoteWindowAccess : ∀ x1 x2, Statement (.remoteWindowAccess x1 x2) := fun _ _ _ => ⟨rfl, rfl⟩
theorem throttleRelease : ∀ x1, Statement (.throttleRelease x1) := fun _ _ => ⟨rfl, rfl⟩

end Sys2Proof.Laws.Codable
end

