-- ==== Sys2Proof/Laws/State.lean ====
section
/-! SUPPORT. What each update of the state leaves as it was, field by field. -/

namespace Sys2Proof.Machine

/-! ### setA -/

@[simp] theorem State.setA_agenda (s : State) (d : AReg) (v : Word) : (s.setA d v).agenda = s.agenda := rfl
@[simp] theorem State.setA_mark (s : State) (d : AReg) (v : Word) : (s.setA d v).mark = s.mark := rfl
@[simp] theorem State.setA_core (s : State) (d : AReg) (v : Word) : (s.setA d v).core = s.core := rfl
@[simp] theorem State.setA_phys (s : State) (d : AReg) (v : Word) : (s.setA d v).phys = s.phys := rfl
@[simp] theorem State.setA_online (s : State) (d : AReg) (v : Word) : (s.setA d v).online = s.online := rfl
@[simp] theorem State.setA_cur (s : State) (d : AReg) (v : Word) : (s.setA d v).cur = s.cur := rfl
@[simp] theorem State.setA_others (s : State) (d : AReg) (v : Word) : (s.setA d v).others = s.others := rfl
@[simp] theorem State.setA_lastJob (s : State) (d : AReg) (v : Word) : (s.setA d v).lastJob = s.lastJob := rfl
@[simp] theorem State.setA_v (s : State) (d : AReg) (v : Word) : (s.setA d v).v = s.v := rfl
@[simp] theorem State.setA_vPoison (s : State) (d : AReg) (v : Word) : (s.setA d v).vPoison = s.vPoison := rfl
@[simp] theorem State.setA_latch (s : State) (d : AReg) (v : Word) : (s.setA d v).latch = s.latch := rfl
@[simp] theorem State.setA_m (s : State) (d : AReg) (v : Word) : (s.setA d v).m = s.m := rfl
@[simp] theorem State.setA_mscale (s : State) (d : AReg) (v : Word) : (s.setA d v).mscale = s.mscale := rfl
@[simp] theorem State.setA_mPoison (s : State) (d : AReg) (v : Word) : (s.setA d v).mPoison = s.mPoison := rfl
@[simp] theorem State.setA_segs (s : State) (d : AReg) (v : Word) : (s.setA d v).segs = s.segs := rfl
@[simp] theorem State.setA_pushArea (s : State) (d : AReg) (v : Word) : (s.setA d v).pushArea = s.pushArea := rfl
@[simp] theorem State.setA_sw (s : State) (d : AReg) (v : Word) : (s.setA d v).sw = s.sw := rfl
@[simp] theorem State.setA_deckMove (s : State) (d : AReg) (v : Word) : (s.setA d v).deckMove = s.deckMove := rfl
@[simp] theorem State.setA_rcl (s : State) (d : AReg) (v : Word) : (s.setA d v).rcl = s.rcl := rfl
@[simp] theorem State.setA_rclLast (s : State) (d : AReg) (v : Word) : (s.setA d v).rclLast = s.rclLast := rfl
@[simp] theorem State.setA_smp (s : State) (d : AReg) (v : Word) : (s.setA d v).smp = s.smp := rfl
@[simp] theorem State.setA_smpLast (s : State) (d : AReg) (v : Word) : (s.setA d v).smpLast = s.smpLast := rfl
@[simp] theorem State.setA_ghosts (s : State) (d : AReg) (v : Word) : (s.setA d v).ghosts = s.ghosts := rfl
@[simp] theorem State.setA_l1 (s : State) (d : AReg) (v : Word) : (s.setA d v).l1 = s.l1 := rfl
@[simp] theorem State.setA_tlb (s : State) (d : AReg) (v : Word) : (s.setA d v).tlb = s.tlb := rfl
@[simp] theorem State.setA_dict (s : State) (d : AReg) (v : Word) : (s.setA d v).dict = s.dict := rfl
@[simp] theorem State.setA_dictRuns (s : State) (d : AReg) (v : Word) : (s.setA d v).dictRuns = s.dictRuns := rfl
@[simp] theorem State.setA_loopBuf (s : State) (d : AReg) (v : Word) : (s.setA d v).loopBuf = s.loopBuf := rfl
@[simp] theorem State.setA_streams (s : State) (d : AReg) (v : Word) : (s.setA d v).streams = s.streams := rfl
@[simp] theorem State.setA_copies (s : State) (d : AReg) (v : Word) : (s.setA d v).copies = s.copies := rfl
@[simp] theorem State.setA_staging (s : State) (d : AReg) (v : Word) : (s.setA d v).staging = s.staging := rfl
@[simp] theorem State.setA_grants (s : State) (d : AReg) (v : Word) : (s.setA d v).grants = s.grants := rfl
@[simp] theorem State.setA_copyTurn (s : State) (d : AReg) (v : Word) : (s.setA d v).copyTurn = s.copyTurn := rfl
@[simp] theorem State.setA_zstores (s : State) (d : AReg) (v : Word) : (s.setA d v).zstores = s.zstores := rfl
@[simp] theorem State.setA_arrayBusy (s : State) (d : AReg) (v : Word) : (s.setA d v).arrayBusy = s.arrayBusy := rfl
@[simp] theorem State.setA_phase (s : State) (d : AReg) (v : Word) : (s.setA d v).phase = s.phase := rfl
@[simp] theorem State.setA_mesh (s : State) (d : AReg) (v : Word) : (s.setA d v).mesh = s.mesh := rfl
@[simp] theorem State.setA_meshWords (s : State) (d : AReg) (v : Word) : (s.setA d v).meshWords = s.meshWords := rfl
@[simp] theorem State.setA_phaseFirst (s : State) (d : AReg) (v : Word) : (s.setA d v).phaseFirst = s.phaseFirst := rfl
@[simp] theorem State.setA_fresh (s : State) (d : AReg) (v : Word) : (s.setA d v).fresh = s.fresh := rfl
@[simp] theorem State.setA_mem (s : State) (d : AReg) (v : Word) : (s.setA d v).mem = s.mem := rfl
@[simp] theorem State.setA_memPoison (s : State) (d : AReg) (v : Word) : (s.setA d v).memPoison = s.memPoison := rfl
@[simp] theorem State.setA_tcache (s : State) (d : AReg) (v : Word) : (s.setA d v).tcache = s.tcache := rfl
@[simp] theorem State.setA_pages (s : State) (d : AReg) (v : Word) : (s.setA d v).pages = s.pages := rfl
@[simp] theorem State.setA_misses (s : State) (d : AReg) (v : Word) : (s.setA d v).misses = s.misses := rfl
@[simp] theorem State.setA_inval (s : State) (d : AReg) (v : Word) : (s.setA d v).inval = s.inval := rfl
@[simp] theorem State.setA_flitLost (s : State) (d : AReg) (v : Word) : (s.setA d v).flitLost = s.flitLost := rfl
@[simp] theorem State.setA_parked (s : State) (d : AReg) (v : Word) : (s.setA d v).parked = s.parked := rfl
@[simp] theorem State.setA_mapCache (s : State) (d : AReg) (v : Word) : (s.setA d v).mapCache = s.mapCache := rfl
@[simp] theorem State.setA_bound (s : State) (d : AReg) (v : Word) : (s.setA d v).bound = s.bound := rfl
@[simp] theorem State.setA_sysRoot (s : State) (d : AReg) (v : Word) : (s.setA d v).sysRoot = s.sysRoot := rfl
@[simp] theorem State.setA_ns (s : State) (d : AReg) (v : Word) : (s.setA d v).ns = s.ns := rfl
@[simp] theorem State.setA_nsCount (s : State) (d : AReg) (v : Word) : (s.setA d v).nsCount = s.nsCount := rfl
@[simp] theorem State.setA_nsOff (s : State) (d : AReg) (v : Word) : (s.setA d v).nsOff = s.nsOff := rfl
@[simp] theorem State.setA_hbmOff (s : State) (d : AReg) (v : Word) : (s.setA d v).hbmOff = s.hbmOff := rfl
@[simp] theorem State.setA_hbmSleep (s : State) (d : AReg) (v : Word) : (s.setA d v).hbmSleep = s.hbmSleep := rfl
@[simp] theorem State.setA_l2 (s : State) (d : AReg) (v : Word) : (s.setA d v).l2 = s.l2 := rfl
@[simp] theorem State.setA_l2Version (s : State) (d : AReg) (v : Word) : (s.setA d v).l2Version = s.l2Version := rfl
@[simp] theorem State.setA_l2Watches (s : State) (d : AReg) (v : Word) : (s.setA d v).l2Watches = s.l2Watches := rfl
@[simp] theorem State.setA_sliceOut (s : State) (d : AReg) (v : Word) : (s.setA d v).sliceOut = s.sliceOut := rfl
@[simp] theorem State.setA_coreOut (s : State) (d : AReg) (v : Word) : (s.setA d v).coreOut = s.coreOut := rfl
@[simp] theorem State.setA_spareCores (s : State) (d : AReg) (v : Word) : (s.setA d v).spareCores = s.spareCores := rfl
@[simp] theorem State.setA_spareSlices (s : State) (d : AReg) (v : Word) : (s.setA d v).spareSlices = s.spareSlices := rfl
@[simp] theorem State.setA_lanesUsed (s : State) (d : AReg) (v : Word) : (s.setA d v).lanesUsed = s.lanesUsed := rfl
@[simp] theorem State.setA_retiredPages (s : State) (d : AReg) (v : Word) : (s.setA d v).retiredPages = s.retiredPages := rfl
@[simp] theorem State.setA_bars (s : State) (d : AReg) (v : Word) : (s.setA d v).bars = s.bars := rfl
@[simp] theorem State.setA_barHeld (s : State) (d : AReg) (v : Word) : (s.setA d v).barHeld = s.barHeld := rfl
@[simp] theorem State.setA_groups (s : State) (d : AReg) (v : Word) : (s.setA d v).groups = s.groups := rfl
@[simp] theorem State.setA_launches (s : State) (d : AReg) (v : Word) : (s.setA d v).launches = s.launches := rfl
@[simp] theorem State.setA_posts (s : State) (d : AReg) (v : Word) : (s.setA d v).posts = s.posts := rfl
@[simp] theorem State.setA_kept (s : State) (d : AReg) (v : Word) : (s.setA d v).kept = s.kept := rfl
@[simp] theorem State.setA_posted (s : State) (d : AReg) (v : Word) : (s.setA d v).posted = s.posted := rfl
@[simp] theorem State.setA_cancels (s : State) (d : AReg) (v : Word) : (s.setA d v).cancels = s.cancels := rfl
@[simp] theorem State.setA_cancelQ (s : State) (d : AReg) (v : Word) : (s.setA d v).cancelQ = s.cancelQ := rfl
@[simp] theorem State.setA_preempted (s : State) (d : AReg) (v : Word) : (s.setA d v).preempted = s.preempted := rfl
@[simp] theorem State.setA_images (s : State) (d : AReg) (v : Word) : (s.setA d v).images = s.images := rfl
@[simp] theorem State.setA_enqs (s : State) (d : AReg) (v : Word) : (s.setA d v).enqs = s.enqs := rfl
@[simp] theorem State.setA_reserved (s : State) (d : AReg) (v : Word) : (s.setA d v).reserved = s.reserved := rfl
@[simp] theorem State.setA_faultLog (s : State) (d : AReg) (v : Word) : (s.setA d v).faultLog = s.faultLog := rfl
@[simp] theorem State.setA_faultRings (s : State) (d : AReg) (v : Word) : (s.setA d v).faultRings = s.faultRings := rfl
@[simp] theorem State.setA_logged (s : State) (d : AReg) (v : Word) : (s.setA d v).logged = s.logged := rfl
@[simp] theorem State.setA_trace (s : State) (d : AReg) (v : Word) : (s.setA d v).trace = s.trace := rfl
@[simp] theorem State.setA_msi (s : State) (d : AReg) (v : Word) : (s.setA d v).msi = s.msi := rfl
@[simp] theorem State.setA_mgmt (s : State) (d : AReg) (v : Word) : (s.setA d v).mgmt = s.mgmt := rfl
@[simp] theorem State.setA_bar0 (s : State) (d : AReg) (v : Word) : (s.setA d v).bar0 = s.bar0 := rfl
@[simp] theorem State.setA_boot (s : State) (d : AReg) (v : Word) : (s.setA d v).boot = s.boot := rfl
@[simp] theorem State.setA_inReset (s : State) (d : AReg) (v : Word) : (s.setA d v).inReset = s.inReset := rfl
@[simp] theorem State.setA_frozen (s : State) (d : AReg) (v : Word) : (s.setA d v).frozen = s.frozen := rfl
@[simp] theorem State.setA_hostRead (s : State) (d : AReg) (v : Word) : (s.setA d v).hostRead = s.hostRead := rfl
@[simp] theorem State.setA_flrFn (s : State) (d : AReg) (v : Word) : (s.setA d v).flrFn = s.flrFn := rfl
@[simp] theorem State.setA_throttled (s : State) (d : AReg) (v : Word) : (s.setA d v).throttled = s.throttled := rfl
@[simp] theorem State.setA_hot (s : State) (d : AReg) (v : Word) : (s.setA d v).hot = s.hot := rfl
@[simp] theorem State.setA_cmpSaved (s : State) (d : AReg) (v : Word) : (s.setA d v).cmpSaved = s.cmpSaved := rfl
@[simp] theorem State.setA_corrected (s : State) (d : AReg) (v : Word) : (s.setA d v).corrected = s.corrected := rfl
@[simp] theorem State.setA_cmpKeys (s : State) (d : AReg) (v : Word) : (s.setA d v).cmpKeys = s.cmpKeys := rfl
@[simp] theorem State.setA_peers (s : State) (d : AReg) (v : Word) : (s.setA d v).peers = s.peers := rfl
@[simp] theorem State.setA_lpRun (s : State) (d : AReg) (v : Word) : (s.setA d v).lpRun = s.lpRun := rfl
@[simp] theorem State.setA_snap (s : State) (d : AReg) (v : Word) : (s.setA d v).snap = s.snap := rfl

/-! ### setK -/

@[simp] theorem State.setK_agenda (s : State) (d : KReg) (b : Bool) : (s.setK d b).agenda = s.agenda := rfl
@[simp] theorem State.setK_mark (s : State) (d : KReg) (b : Bool) : (s.setK d b).mark = s.mark := rfl
@[simp] theorem State.setK_core (s : State) (d : KReg) (b : Bool) : (s.setK d b).core = s.core := rfl
@[simp] theorem State.setK_phys (s : State) (d : KReg) (b : Bool) : (s.setK d b).phys = s.phys := rfl
@[simp] theorem State.setK_online (s : State) (d : KReg) (b : Bool) : (s.setK d b).online = s.online := rfl
@[simp] theorem State.setK_cur (s : State) (d : KReg) (b : Bool) : (s.setK d b).cur = s.cur := rfl
@[simp] theorem State.setK_others (s : State) (d : KReg) (b : Bool) : (s.setK d b).others = s.others := rfl
@[simp] theorem State.setK_lastJob (s : State) (d : KReg) (b : Bool) : (s.setK d b).lastJob = s.lastJob := rfl
@[simp] theorem State.setK_v (s : State) (d : KReg) (b : Bool) : (s.setK d b).v = s.v := rfl
@[simp] theorem State.setK_vPoison (s : State) (d : KReg) (b : Bool) : (s.setK d b).vPoison = s.vPoison := rfl
@[simp] theorem State.setK_latch (s : State) (d : KReg) (b : Bool) : (s.setK d b).latch = s.latch := rfl
@[simp] theorem State.setK_m (s : State) (d : KReg) (b : Bool) : (s.setK d b).m = s.m := rfl
@[simp] theorem State.setK_mscale (s : State) (d : KReg) (b : Bool) : (s.setK d b).mscale = s.mscale := rfl
@[simp] theorem State.setK_mPoison (s : State) (d : KReg) (b : Bool) : (s.setK d b).mPoison = s.mPoison := rfl
@[simp] theorem State.setK_segs (s : State) (d : KReg) (b : Bool) : (s.setK d b).segs = s.segs := rfl
@[simp] theorem State.setK_pushArea (s : State) (d : KReg) (b : Bool) : (s.setK d b).pushArea = s.pushArea := rfl
@[simp] theorem State.setK_sw (s : State) (d : KReg) (b : Bool) : (s.setK d b).sw = s.sw := rfl
@[simp] theorem State.setK_deckMove (s : State) (d : KReg) (b : Bool) : (s.setK d b).deckMove = s.deckMove := rfl
@[simp] theorem State.setK_rcl (s : State) (d : KReg) (b : Bool) : (s.setK d b).rcl = s.rcl := rfl
@[simp] theorem State.setK_rclLast (s : State) (d : KReg) (b : Bool) : (s.setK d b).rclLast = s.rclLast := rfl
@[simp] theorem State.setK_smp (s : State) (d : KReg) (b : Bool) : (s.setK d b).smp = s.smp := rfl
@[simp] theorem State.setK_smpLast (s : State) (d : KReg) (b : Bool) : (s.setK d b).smpLast = s.smpLast := rfl
@[simp] theorem State.setK_ghosts (s : State) (d : KReg) (b : Bool) : (s.setK d b).ghosts = s.ghosts := rfl
@[simp] theorem State.setK_l1 (s : State) (d : KReg) (b : Bool) : (s.setK d b).l1 = s.l1 := rfl
@[simp] theorem State.setK_tlb (s : State) (d : KReg) (b : Bool) : (s.setK d b).tlb = s.tlb := rfl
@[simp] theorem State.setK_dict (s : State) (d : KReg) (b : Bool) : (s.setK d b).dict = s.dict := rfl
@[simp] theorem State.setK_dictRuns (s : State) (d : KReg) (b : Bool) : (s.setK d b).dictRuns = s.dictRuns := rfl
@[simp] theorem State.setK_loopBuf (s : State) (d : KReg) (b : Bool) : (s.setK d b).loopBuf = s.loopBuf := rfl
@[simp] theorem State.setK_reqs (s : State) (d : KReg) (b : Bool) : (s.setK d b).reqs = s.reqs := rfl
@[simp] theorem State.setK_streams (s : State) (d : KReg) (b : Bool) : (s.setK d b).streams = s.streams := rfl
@[simp] theorem State.setK_copies (s : State) (d : KReg) (b : Bool) : (s.setK d b).copies = s.copies := rfl
@[simp] theorem State.setK_staging (s : State) (d : KReg) (b : Bool) : (s.setK d b).staging = s.staging := rfl
@[simp] theorem State.setK_grants (s : State) (d : KReg) (b : Bool) : (s.setK d b).grants = s.grants := rfl
@[simp] theorem State.setK_copyTurn (s : State) (d : KReg) (b : Bool) : (s.setK d b).copyTurn = s.copyTurn := rfl
@[simp] theorem State.setK_zstores (s : State) (d : KReg) (b : Bool) : (s.setK d b).zstores = s.zstores := rfl
@[simp] theorem State.setK_arrayBusy (s : State) (d : KReg) (b : Bool) : (s.setK d b).arrayBusy = s.arrayBusy := rfl
@[simp] theorem State.setK_phase (s : State) (d : KReg) (b : Bool) : (s.setK d b).phase = s.phase := rfl
@[simp] theorem State.setK_mesh (s : State) (d : KReg) (b : Bool) : (s.setK d b).mesh = s.mesh := rfl
@[simp] theorem State.setK_meshWords (s : State) (d : KReg) (b : Bool) : (s.setK d b).meshWords = s.meshWords := rfl
@[simp] theorem State.setK_phaseFirst (s : State) (d : KReg) (b : Bool) : (s.setK d b).phaseFirst = s.phaseFirst := rfl
@[simp] theorem State.setK_fresh (s : State) (d : KReg) (b : Bool) : (s.setK d b).fresh = s.fresh := rfl
@[simp] theorem State.setK_mem (s : State) (d : KReg) (b : Bool) : (s.setK d b).mem = s.mem := rfl
@[simp] theorem State.setK_memPoison (s : State) (d : KReg) (b : Bool) : (s.setK d b).memPoison = s.memPoison := rfl
@[simp] theorem State.setK_tcache (s : State) (d : KReg) (b : Bool) : (s.setK d b).tcache = s.tcache := rfl
@[simp] theorem State.setK_pages (s : State) (d : KReg) (b : Bool) : (s.setK d b).pages = s.pages := rfl
@[simp] theorem State.setK_misses (s : State) (d : KReg) (b : Bool) : (s.setK d b).misses = s.misses := rfl
@[simp] theorem State.setK_inval (s : State) (d : KReg) (b : Bool) : (s.setK d b).inval = s.inval := rfl
@[simp] theorem State.setK_flitLost (s : State) (d : KReg) (b : Bool) : (s.setK d b).flitLost = s.flitLost := rfl
@[simp] theorem State.setK_parked (s : State) (d : KReg) (b : Bool) : (s.setK d b).parked = s.parked := rfl
@[simp] theorem State.setK_mapCache (s : State) (d : KReg) (b : Bool) : (s.setK d b).mapCache = s.mapCache := rfl
@[simp] theorem State.setK_bound (s : State) (d : KReg) (b : Bool) : (s.setK d b).bound = s.bound := rfl
@[simp] theorem State.setK_sysRoot (s : State) (d : KReg) (b : Bool) : (s.setK d b).sysRoot = s.sysRoot := rfl
@[simp] theorem State.setK_ns (s : State) (d : KReg) (b : Bool) : (s.setK d b).ns = s.ns := rfl
@[simp] theorem State.setK_nsCount (s : State) (d : KReg) (b : Bool) : (s.setK d b).nsCount = s.nsCount := rfl
@[simp] theorem State.setK_nsOff (s : State) (d : KReg) (b : Bool) : (s.setK d b).nsOff = s.nsOff := rfl
@[simp] theorem State.setK_hbmOff (s : State) (d : KReg) (b : Bool) : (s.setK d b).hbmOff = s.hbmOff := rfl
@[simp] theorem State.setK_hbmSleep (s : State) (d : KReg) (b : Bool) : (s.setK d b).hbmSleep = s.hbmSleep := rfl
@[simp] theorem State.setK_l2 (s : State) (d : KReg) (b : Bool) : (s.setK d b).l2 = s.l2 := rfl
@[simp] theorem State.setK_l2Version (s : State) (d : KReg) (b : Bool) : (s.setK d b).l2Version = s.l2Version := rfl
@[simp] theorem State.setK_l2Watches (s : State) (d : KReg) (b : Bool) : (s.setK d b).l2Watches = s.l2Watches := rfl
@[simp] theorem State.setK_sliceOut (s : State) (d : KReg) (b : Bool) : (s.setK d b).sliceOut = s.sliceOut := rfl
@[simp] theorem State.setK_coreOut (s : State) (d : KReg) (b : Bool) : (s.setK d b).coreOut = s.coreOut := rfl
@[simp] theorem State.setK_spareCores (s : State) (d : KReg) (b : Bool) : (s.setK d b).spareCores = s.spareCores := rfl
@[simp] theorem State.setK_spareSlices (s : State) (d : KReg) (b : Bool) : (s.setK d b).spareSlices = s.spareSlices := rfl
@[simp] theorem State.setK_lanesUsed (s : State) (d : KReg) (b : Bool) : (s.setK d b).lanesUsed = s.lanesUsed := rfl
@[simp] theorem State.setK_retiredPages (s : State) (d : KReg) (b : Bool) : (s.setK d b).retiredPages = s.retiredPages := rfl
@[simp] theorem State.setK_bars (s : State) (d : KReg) (b : Bool) : (s.setK d b).bars = s.bars := rfl
@[simp] theorem State.setK_barHeld (s : State) (d : KReg) (b : Bool) : (s.setK d b).barHeld = s.barHeld := rfl
@[simp] theorem State.setK_groups (s : State) (d : KReg) (b : Bool) : (s.setK d b).groups = s.groups := rfl
@[simp] theorem State.setK_launches (s : State) (d : KReg) (b : Bool) : (s.setK d b).launches = s.launches := rfl
@[simp] theorem State.setK_posts (s : State) (d : KReg) (b : Bool) : (s.setK d b).posts = s.posts := rfl
@[simp] theorem State.setK_kept (s : State) (d : KReg) (b : Bool) : (s.setK d b).kept = s.kept := rfl
@[simp] theorem State.setK_posted (s : State) (d : KReg) (b : Bool) : (s.setK d b).posted = s.posted := rfl
@[simp] theorem State.setK_cancels (s : State) (d : KReg) (b : Bool) : (s.setK d b).cancels = s.cancels := rfl
@[simp] theorem State.setK_cancelQ (s : State) (d : KReg) (b : Bool) : (s.setK d b).cancelQ = s.cancelQ := rfl
@[simp] theorem State.setK_preempted (s : State) (d : KReg) (b : Bool) : (s.setK d b).preempted = s.preempted := rfl
@[simp] theorem State.setK_images (s : State) (d : KReg) (b : Bool) : (s.setK d b).images = s.images := rfl
@[simp] theorem State.setK_enqs (s : State) (d : KReg) (b : Bool) : (s.setK d b).enqs = s.enqs := rfl
@[simp] theorem State.setK_reserved (s : State) (d : KReg) (b : Bool) : (s.setK d b).reserved = s.reserved := rfl
@[simp] theorem State.setK_faultLog (s : State) (d : KReg) (b : Bool) : (s.setK d b).faultLog = s.faultLog := rfl
@[simp] theorem State.setK_faultRings (s : State) (d : KReg) (b : Bool) : (s.setK d b).faultRings = s.faultRings := rfl
@[simp] theorem State.setK_logged (s : State) (d : KReg) (b : Bool) : (s.setK d b).logged = s.logged := rfl
@[simp] theorem State.setK_trace (s : State) (d : KReg) (b : Bool) : (s.setK d b).trace = s.trace := rfl
@[simp] theorem State.setK_msi (s : State) (d : KReg) (b : Bool) : (s.setK d b).msi = s.msi := rfl
@[simp] theorem State.setK_mgmt (s : State) (d : KReg) (b : Bool) : (s.setK d b).mgmt = s.mgmt := rfl
@[simp] theorem State.setK_bar0 (s : State) (d : KReg) (b : Bool) : (s.setK d b).bar0 = s.bar0 := rfl
@[simp] theorem State.setK_boot (s : State) (d : KReg) (b : Bool) : (s.setK d b).boot = s.boot := rfl
@[simp] theorem State.setK_inReset (s : State) (d : KReg) (b : Bool) : (s.setK d b).inReset = s.inReset := rfl
@[simp] theorem State.setK_frozen (s : State) (d : KReg) (b : Bool) : (s.setK d b).frozen = s.frozen := rfl
@[simp] theorem State.setK_hostRead (s : State) (d : KReg) (b : Bool) : (s.setK d b).hostRead = s.hostRead := rfl
@[simp] theorem State.setK_flrFn (s : State) (d : KReg) (b : Bool) : (s.setK d b).flrFn = s.flrFn := rfl
@[simp] theorem State.setK_throttled (s : State) (d : KReg) (b : Bool) : (s.setK d b).throttled = s.throttled := rfl
@[simp] theorem State.setK_hot (s : State) (d : KReg) (b : Bool) : (s.setK d b).hot = s.hot := rfl
@[simp] theorem State.setK_cmpSaved (s : State) (d : KReg) (b : Bool) : (s.setK d b).cmpSaved = s.cmpSaved := rfl
@[simp] theorem State.setK_corrected (s : State) (d : KReg) (b : Bool) : (s.setK d b).corrected = s.corrected := rfl
@[simp] theorem State.setK_cmpKeys (s : State) (d : KReg) (b : Bool) : (s.setK d b).cmpKeys = s.cmpKeys := rfl
@[simp] theorem State.setK_peers (s : State) (d : KReg) (b : Bool) : (s.setK d b).peers = s.peers := rfl
@[simp] theorem State.setK_lpRun (s : State) (d : KReg) (b : Bool) : (s.setK d b).lpRun = s.lpRun := rfl
@[simp] theorem State.setK_snap (s : State) (d : KReg) (b : Bool) : (s.setK d b).snap = s.snap := rfl

/-! ### modCtx -/

@[simp] theorem State.modCtx_agenda (s : State) (f : Ctx → Ctx) : (s.modCtx f).agenda = s.agenda := rfl
@[simp] theorem State.modCtx_mark (s : State) (f : Ctx → Ctx) : (s.modCtx f).mark = s.mark := rfl
@[simp] theorem State.modCtx_core (s : State) (f : Ctx → Ctx) : (s.modCtx f).core = s.core := rfl
@[simp] theorem State.modCtx_phys (s : State) (f : Ctx → Ctx) : (s.modCtx f).phys = s.phys := rfl
@[simp] theorem State.modCtx_online (s : State) (f : Ctx → Ctx) : (s.modCtx f).online = s.online := rfl
@[simp] theorem State.modCtx_cur (s : State) (f : Ctx → Ctx) : (s.modCtx f).cur = s.cur := rfl
@[simp] theorem State.modCtx_others (s : State) (f : Ctx → Ctx) : (s.modCtx f).others = s.others := rfl
@[simp] theorem State.modCtx_lastJob (s : State) (f : Ctx → Ctx) : (s.modCtx f).lastJob = s.lastJob := rfl
@[simp] theorem State.modCtx_v (s : State) (f : Ctx → Ctx) : (s.modCtx f).v = s.v := rfl
@[simp] theorem State.modCtx_vPoison (s : State) (f : Ctx → Ctx) : (s.modCtx f).vPoison = s.vPoison := rfl
@[simp] theorem State.modCtx_latch (s : State) (f : Ctx → Ctx) : (s.modCtx f).latch = s.latch := rfl
@[simp] theorem State.modCtx_m (s : State) (f : Ctx → Ctx) : (s.modCtx f).m = s.m := rfl
@[simp] theorem State.modCtx_mscale (s : State) (f : Ctx → Ctx) : (s.modCtx f).mscale = s.mscale := rfl
@[simp] theorem State.modCtx_mPoison (s : State) (f : Ctx → Ctx) : (s.modCtx f).mPoison = s.mPoison := rfl
@[simp] theorem State.modCtx_segs (s : State) (f : Ctx → Ctx) : (s.modCtx f).segs = s.segs := rfl
@[simp] theorem State.modCtx_pushArea (s : State) (f : Ctx → Ctx) : (s.modCtx f).pushArea = s.pushArea := rfl
@[simp] theorem State.modCtx_sw (s : State) (f : Ctx → Ctx) : (s.modCtx f).sw = s.sw := rfl
@[simp] theorem State.modCtx_deckMove (s : State) (f : Ctx → Ctx) : (s.modCtx f).deckMove = s.deckMove := rfl
@[simp] theorem State.modCtx_rcl (s : State) (f : Ctx → Ctx) : (s.modCtx f).rcl = s.rcl := rfl
@[simp] theorem State.modCtx_rclLast (s : State) (f : Ctx → Ctx) : (s.modCtx f).rclLast = s.rclLast := rfl
@[simp] theorem State.modCtx_smp (s : State) (f : Ctx → Ctx) : (s.modCtx f).smp = s.smp := rfl
@[simp] theorem State.modCtx_smpLast (s : State) (f : Ctx → Ctx) : (s.modCtx f).smpLast = s.smpLast := rfl
@[simp] theorem State.modCtx_ghosts (s : State) (f : Ctx → Ctx) : (s.modCtx f).ghosts = s.ghosts := rfl
@[simp] theorem State.modCtx_l1 (s : State) (f : Ctx → Ctx) : (s.modCtx f).l1 = s.l1 := rfl
@[simp] theorem State.modCtx_tlb (s : State) (f : Ctx → Ctx) : (s.modCtx f).tlb = s.tlb := rfl
@[simp] theorem State.modCtx_dict (s : State) (f : Ctx → Ctx) : (s.modCtx f).dict = s.dict := rfl
@[simp] theorem State.modCtx_dictRuns (s : State) (f : Ctx → Ctx) : (s.modCtx f).dictRuns = s.dictRuns := rfl
@[simp] theorem State.modCtx_loopBuf (s : State) (f : Ctx → Ctx) : (s.modCtx f).loopBuf = s.loopBuf := rfl
@[simp] theorem State.modCtx_reqs (s : State) (f : Ctx → Ctx) : (s.modCtx f).reqs = s.reqs := rfl
@[simp] theorem State.modCtx_streams (s : State) (f : Ctx → Ctx) : (s.modCtx f).streams = s.streams := rfl
@[simp] theorem State.modCtx_copies (s : State) (f : Ctx → Ctx) : (s.modCtx f).copies = s.copies := rfl
@[simp] theorem State.modCtx_staging (s : State) (f : Ctx → Ctx) : (s.modCtx f).staging = s.staging := rfl
@[simp] theorem State.modCtx_grants (s : State) (f : Ctx → Ctx) : (s.modCtx f).grants = s.grants := rfl
@[simp] theorem State.modCtx_copyTurn (s : State) (f : Ctx → Ctx) : (s.modCtx f).copyTurn = s.copyTurn := rfl
@[simp] theorem State.modCtx_zstores (s : State) (f : Ctx → Ctx) : (s.modCtx f).zstores = s.zstores := rfl
@[simp] theorem State.modCtx_arrayBusy (s : State) (f : Ctx → Ctx) : (s.modCtx f).arrayBusy = s.arrayBusy := rfl
@[simp] theorem State.modCtx_phase (s : State) (f : Ctx → Ctx) : (s.modCtx f).phase = s.phase := rfl
@[simp] theorem State.modCtx_mesh (s : State) (f : Ctx → Ctx) : (s.modCtx f).mesh = s.mesh := rfl
@[simp] theorem State.modCtx_meshWords (s : State) (f : Ctx → Ctx) : (s.modCtx f).meshWords = s.meshWords := rfl
@[simp] theorem State.modCtx_phaseFirst (s : State) (f : Ctx → Ctx) : (s.modCtx f).phaseFirst = s.phaseFirst := rfl
@[simp] theorem State.modCtx_fresh (s : State) (f : Ctx → Ctx) : (s.modCtx f).fresh = s.fresh := rfl
@[simp] theorem State.modCtx_mem (s : State) (f : Ctx → Ctx) : (s.modCtx f).mem = s.mem := rfl
@[simp] theorem State.modCtx_memPoison (s : State) (f : Ctx → Ctx) : (s.modCtx f).memPoison = s.memPoison := rfl
@[simp] theorem State.modCtx_tcache (s : State) (f : Ctx → Ctx) : (s.modCtx f).tcache = s.tcache := rfl
@[simp] theorem State.modCtx_pages (s : State) (f : Ctx → Ctx) : (s.modCtx f).pages = s.pages := rfl
@[simp] theorem State.modCtx_misses (s : State) (f : Ctx → Ctx) : (s.modCtx f).misses = s.misses := rfl
@[simp] theorem State.modCtx_inval (s : State) (f : Ctx → Ctx) : (s.modCtx f).inval = s.inval := rfl
@[simp] theorem State.modCtx_flitLost (s : State) (f : Ctx → Ctx) : (s.modCtx f).flitLost = s.flitLost := rfl
@[simp] theorem State.modCtx_parked (s : State) (f : Ctx → Ctx) : (s.modCtx f).parked = s.parked := rfl
@[simp] theorem State.modCtx_mapCache (s : State) (f : Ctx → Ctx) : (s.modCtx f).mapCache = s.mapCache := rfl
@[simp] theorem State.modCtx_bound (s : State) (f : Ctx → Ctx) : (s.modCtx f).bound = s.bound := rfl
@[simp] theorem State.modCtx_sysRoot (s : State) (f : Ctx → Ctx) : (s.modCtx f).sysRoot = s.sysRoot := rfl
@[simp] theorem State.modCtx_ns (s : State) (f : Ctx → Ctx) : (s.modCtx f).ns = s.ns := rfl
@[simp] theorem State.modCtx_nsCount (s : State) (f : Ctx → Ctx) : (s.modCtx f).nsCount = s.nsCount := rfl
@[simp] theorem State.modCtx_nsOff (s : State) (f : Ctx → Ctx) : (s.modCtx f).nsOff = s.nsOff := rfl
@[simp] theorem State.modCtx_hbmOff (s : State) (f : Ctx → Ctx) : (s.modCtx f).hbmOff = s.hbmOff := rfl
@[simp] theorem State.modCtx_hbmSleep (s : State) (f : Ctx → Ctx) : (s.modCtx f).hbmSleep = s.hbmSleep := rfl
@[simp] theorem State.modCtx_l2 (s : State) (f : Ctx → Ctx) : (s.modCtx f).l2 = s.l2 := rfl
@[simp] theorem State.modCtx_l2Version (s : State) (f : Ctx → Ctx) : (s.modCtx f).l2Version = s.l2Version := rfl
@[simp] theorem State.modCtx_l2Watches (s : State) (f : Ctx → Ctx) : (s.modCtx f).l2Watches = s.l2Watches := rfl
@[simp] theorem State.modCtx_sliceOut (s : State) (f : Ctx → Ctx) : (s.modCtx f).sliceOut = s.sliceOut := rfl
@[simp] theorem State.modCtx_coreOut (s : State) (f : Ctx → Ctx) : (s.modCtx f).coreOut = s.coreOut := rfl
@[simp] theorem State.modCtx_spareCores (s : State) (f : Ctx → Ctx) : (s.modCtx f).spareCores = s.spareCores := rfl
@[simp] theorem State.modCtx_spareSlices (s : State) (f : Ctx → Ctx) : (s.modCtx f).spareSlices = s.spareSlices := rfl
@[simp] theorem State.modCtx_lanesUsed (s : State) (f : Ctx → Ctx) : (s.modCtx f).lanesUsed = s.lanesUsed := rfl
@[simp] theorem State.modCtx_retiredPages (s : State) (f : Ctx → Ctx) : (s.modCtx f).retiredPages = s.retiredPages := rfl
@[simp] theorem State.modCtx_bars (s : State) (f : Ctx → Ctx) : (s.modCtx f).bars = s.bars := rfl
@[simp] theorem State.modCtx_barHeld (s : State) (f : Ctx → Ctx) : (s.modCtx f).barHeld = s.barHeld := rfl
@[simp] theorem State.modCtx_groups (s : State) (f : Ctx → Ctx) : (s.modCtx f).groups = s.groups := rfl
@[simp] theorem State.modCtx_launches (s : State) (f : Ctx → Ctx) : (s.modCtx f).launches = s.launches := rfl
@[simp] theorem State.modCtx_posts (s : State) (f : Ctx → Ctx) : (s.modCtx f).posts = s.posts := rfl
@[simp] theorem State.modCtx_kept (s : State) (f : Ctx → Ctx) : (s.modCtx f).kept = s.kept := rfl
@[simp] theorem State.modCtx_posted (s : State) (f : Ctx → Ctx) : (s.modCtx f).posted = s.posted := rfl
@[simp] theorem State.modCtx_cancels (s : State) (f : Ctx → Ctx) : (s.modCtx f).cancels = s.cancels := rfl
@[simp] theorem State.modCtx_cancelQ (s : State) (f : Ctx → Ctx) : (s.modCtx f).cancelQ = s.cancelQ := rfl
@[simp] theorem State.modCtx_preempted (s : State) (f : Ctx → Ctx) : (s.modCtx f).preempted = s.preempted := rfl
@[simp] theorem State.modCtx_images (s : State) (f : Ctx → Ctx) : (s.modCtx f).images = s.images := rfl
@[simp] theorem State.modCtx_enqs (s : State) (f : Ctx → Ctx) : (s.modCtx f).enqs = s.enqs := rfl
@[simp] theorem State.modCtx_reserved (s : State) (f : Ctx → Ctx) : (s.modCtx f).reserved = s.reserved := rfl
@[simp] theorem State.modCtx_faultLog (s : State) (f : Ctx → Ctx) : (s.modCtx f).faultLog = s.faultLog := rfl
@[simp] theorem State.modCtx_faultRings (s : State) (f : Ctx → Ctx) : (s.modCtx f).faultRings = s.faultRings := rfl
@[simp] theorem State.modCtx_logged (s : State) (f : Ctx → Ctx) : (s.modCtx f).logged = s.logged := rfl
@[simp] theorem State.modCtx_trace (s : State) (f : Ctx → Ctx) : (s.modCtx f).trace = s.trace := rfl
@[simp] theorem State.modCtx_msi (s : State) (f : Ctx → Ctx) : (s.modCtx f).msi = s.msi := rfl
@[simp] theorem State.modCtx_mgmt (s : State) (f : Ctx → Ctx) : (s.modCtx f).mgmt = s.mgmt := rfl
@[simp] theorem State.modCtx_bar0 (s : State) (f : Ctx → Ctx) : (s.modCtx f).bar0 = s.bar0 := rfl
@[simp] theorem State.modCtx_boot (s : State) (f : Ctx → Ctx) : (s.modCtx f).boot = s.boot := rfl
@[simp] theorem State.modCtx_inReset (s : State) (f : Ctx → Ctx) : (s.modCtx f).inReset = s.inReset := rfl
@[simp] theorem State.modCtx_frozen (s : State) (f : Ctx → Ctx) : (s.modCtx f).frozen = s.frozen := rfl
@[simp] theorem State.modCtx_hostRead (s : State) (f : Ctx → Ctx) : (s.modCtx f).hostRead = s.hostRead := rfl
@[simp] theorem State.modCtx_flrFn (s : State) (f : Ctx → Ctx) : (s.modCtx f).flrFn = s.flrFn := rfl
@[simp] theorem State.modCtx_throttled (s : State) (f : Ctx → Ctx) : (s.modCtx f).throttled = s.throttled := rfl
@[simp] theorem State.modCtx_hot (s : State) (f : Ctx → Ctx) : (s.modCtx f).hot = s.hot := rfl
@[simp] theorem State.modCtx_cmpSaved (s : State) (f : Ctx → Ctx) : (s.modCtx f).cmpSaved = s.cmpSaved := rfl
@[simp] theorem State.modCtx_corrected (s : State) (f : Ctx → Ctx) : (s.modCtx f).corrected = s.corrected := rfl
@[simp] theorem State.modCtx_cmpKeys (s : State) (f : Ctx → Ctx) : (s.modCtx f).cmpKeys = s.cmpKeys := rfl
@[simp] theorem State.modCtx_peers (s : State) (f : Ctx → Ctx) : (s.modCtx f).peers = s.peers := rfl
@[simp] theorem State.modCtx_lpRun (s : State) (f : Ctx → Ctx) : (s.modCtx f).lpRun = s.lpRun := rfl
@[simp] theorem State.modCtx_snap (s : State) (f : Ctx → Ctx) : (s.modCtx f).snap = s.snap := rfl

/-! ### modRegs -/

@[simp] theorem State.modRegs_agenda (s : State) (f : ARegs → ARegs) : (s.modRegs f).agenda = s.agenda := rfl
@[simp] theorem State.modRegs_mark (s : State) (f : ARegs → ARegs) : (s.modRegs f).mark = s.mark := rfl
@[simp] theorem State.modRegs_core (s : State) (f : ARegs → ARegs) : (s.modRegs f).core = s.core := rfl
@[simp] theorem State.modRegs_phys (s : State) (f : ARegs → ARegs) : (s.modRegs f).phys = s.phys := rfl
@[simp] theorem State.modRegs_online (s : State) (f : ARegs → ARegs) : (s.modRegs f).online = s.online := rfl
@[simp] theorem State.modRegs_cur (s : State) (f : ARegs → ARegs) : (s.modRegs f).cur = s.cur := rfl
@[simp] theorem State.modRegs_others (s : State) (f : ARegs → ARegs) : (s.modRegs f).others = s.others := rfl
@[simp] theorem State.modRegs_lastJob (s : State) (f : ARegs → ARegs) : (s.modRegs f).lastJob = s.lastJob := rfl
@[simp] theorem State.modRegs_v (s : State) (f : ARegs → ARegs) : (s.modRegs f).v = s.v := rfl
@[simp] theorem State.modRegs_vPoison (s : State) (f : ARegs → ARegs) : (s.modRegs f).vPoison = s.vPoison := rfl
@[simp] theorem State.modRegs_latch (s : State) (f : ARegs → ARegs) : (s.modRegs f).latch = s.latch := rfl
@[simp] theorem State.modRegs_m (s : State) (f : ARegs → ARegs) : (s.modRegs f).m = s.m := rfl
@[simp] theorem State.modRegs_mscale (s : State) (f : ARegs → ARegs) : (s.modRegs f).mscale = s.mscale := rfl
@[simp] theorem State.modRegs_mPoison (s : State) (f : ARegs → ARegs) : (s.modRegs f).mPoison = s.mPoison := rfl
@[simp] theorem State.modRegs_segs (s : State) (f : ARegs → ARegs) : (s.modRegs f).segs = s.segs := rfl
@[simp] theorem State.modRegs_pushArea (s : State) (f : ARegs → ARegs) : (s.modRegs f).pushArea = s.pushArea := rfl
@[simp] theorem State.modRegs_sw (s : State) (f : ARegs → ARegs) : (s.modRegs f).sw = s.sw := rfl
@[simp] theorem State.modRegs_deckMove (s : State) (f : ARegs → ARegs) : (s.modRegs f).deckMove = s.deckMove := rfl
@[simp] theorem State.modRegs_rcl (s : State) (f : ARegs → ARegs) : (s.modRegs f).rcl = s.rcl := rfl
@[simp] theorem State.modRegs_rclLast (s : State) (f : ARegs → ARegs) : (s.modRegs f).rclLast = s.rclLast := rfl
@[simp] theorem State.modRegs_smp (s : State) (f : ARegs → ARegs) : (s.modRegs f).smp = s.smp := rfl
@[simp] theorem State.modRegs_smpLast (s : State) (f : ARegs → ARegs) : (s.modRegs f).smpLast = s.smpLast := rfl
@[simp] theorem State.modRegs_ghosts (s : State) (f : ARegs → ARegs) : (s.modRegs f).ghosts = s.ghosts := rfl
@[simp] theorem State.modRegs_l1 (s : State) (f : ARegs → ARegs) : (s.modRegs f).l1 = s.l1 := rfl
@[simp] theorem State.modRegs_tlb (s : State) (f : ARegs → ARegs) : (s.modRegs f).tlb = s.tlb := rfl
@[simp] theorem State.modRegs_dict (s : State) (f : ARegs → ARegs) : (s.modRegs f).dict = s.dict := rfl
@[simp] theorem State.modRegs_dictRuns (s : State) (f : ARegs → ARegs) : (s.modRegs f).dictRuns = s.dictRuns := rfl
@[simp] theorem State.modRegs_loopBuf (s : State) (f : ARegs → ARegs) : (s.modRegs f).loopBuf = s.loopBuf := rfl
@[simp] theorem State.modRegs_reqs (s : State) (f : ARegs → ARegs) : (s.modRegs f).reqs = s.reqs := rfl
@[simp] theorem State.modRegs_streams (s : State) (f : ARegs → ARegs) : (s.modRegs f).streams = s.streams := rfl
@[simp] theorem State.modRegs_copies (s : State) (f : ARegs → ARegs) : (s.modRegs f).copies = s.copies := rfl
@[simp] theorem State.modRegs_staging (s : State) (f : ARegs → ARegs) : (s.modRegs f).staging = s.staging := rfl
@[simp] theorem State.modRegs_grants (s : State) (f : ARegs → ARegs) : (s.modRegs f).grants = s.grants := rfl
@[simp] theorem State.modRegs_copyTurn (s : State) (f : ARegs → ARegs) : (s.modRegs f).copyTurn = s.copyTurn := rfl
@[simp] theorem State.modRegs_zstores (s : State) (f : ARegs → ARegs) : (s.modRegs f).zstores = s.zstores := rfl
@[simp] theorem State.modRegs_arrayBusy (s : State) (f : ARegs → ARegs) : (s.modRegs f).arrayBusy = s.arrayBusy := rfl
@[simp] theorem State.modRegs_phase (s : State) (f : ARegs → ARegs) : (s.modRegs f).phase = s.phase := rfl
@[simp] theorem State.modRegs_mesh (s : State) (f : ARegs → ARegs) : (s.modRegs f).mesh = s.mesh := rfl
@[simp] theorem State.modRegs_meshWords (s : State) (f : ARegs → ARegs) : (s.modRegs f).meshWords = s.meshWords := rfl
@[simp] theorem State.modRegs_phaseFirst (s : State) (f : ARegs → ARegs) : (s.modRegs f).phaseFirst = s.phaseFirst := rfl
@[simp] theorem State.modRegs_fresh (s : State) (f : ARegs → ARegs) : (s.modRegs f).fresh = s.fresh := rfl
@[simp] theorem State.modRegs_mem (s : State) (f : ARegs → ARegs) : (s.modRegs f).mem = s.mem := rfl
@[simp] theorem State.modRegs_memPoison (s : State) (f : ARegs → ARegs) : (s.modRegs f).memPoison = s.memPoison := rfl
@[simp] theorem State.modRegs_tcache (s : State) (f : ARegs → ARegs) : (s.modRegs f).tcache = s.tcache := rfl
@[simp] theorem State.modRegs_pages (s : State) (f : ARegs → ARegs) : (s.modRegs f).pages = s.pages := rfl
@[simp] theorem State.modRegs_misses (s : State) (f : ARegs → ARegs) : (s.modRegs f).misses = s.misses := rfl
@[simp] theorem State.modRegs_inval (s : State) (f : ARegs → ARegs) : (s.modRegs f).inval = s.inval := rfl
@[simp] theorem State.modRegs_flitLost (s : State) (f : ARegs → ARegs) : (s.modRegs f).flitLost = s.flitLost := rfl
@[simp] theorem State.modRegs_parked (s : State) (f : ARegs → ARegs) : (s.modRegs f).parked = s.parked := rfl
@[simp] theorem State.modRegs_mapCache (s : State) (f : ARegs → ARegs) : (s.modRegs f).mapCache = s.mapCache := rfl
@[simp] theorem State.modRegs_bound (s : State) (f : ARegs → ARegs) : (s.modRegs f).bound = s.bound := rfl
@[simp] theorem State.modRegs_sysRoot (s : State) (f : ARegs → ARegs) : (s.modRegs f).sysRoot = s.sysRoot := rfl
@[simp] theorem State.modRegs_ns (s : State) (f : ARegs → ARegs) : (s.modRegs f).ns = s.ns := rfl
@[simp] theorem State.modRegs_nsCount (s : State) (f : ARegs → ARegs) : (s.modRegs f).nsCount = s.nsCount := rfl
@[simp] theorem State.modRegs_nsOff (s : State) (f : ARegs → ARegs) : (s.modRegs f).nsOff = s.nsOff := rfl
@[simp] theorem State.modRegs_hbmOff (s : State) (f : ARegs → ARegs) : (s.modRegs f).hbmOff = s.hbmOff := rfl
@[simp] theorem State.modRegs_hbmSleep (s : State) (f : ARegs → ARegs) : (s.modRegs f).hbmSleep = s.hbmSleep := rfl
@[simp] theorem State.modRegs_l2 (s : State) (f : ARegs → ARegs) : (s.modRegs f).l2 = s.l2 := rfl
@[simp] theorem State.modRegs_l2Version (s : State) (f : ARegs → ARegs) : (s.modRegs f).l2Version = s.l2Version := rfl
@[simp] theorem State.modRegs_l2Watches (s : State) (f : ARegs → ARegs) : (s.modRegs f).l2Watches = s.l2Watches := rfl
@[simp] theorem State.modRegs_sliceOut (s : State) (f : ARegs → ARegs) : (s.modRegs f).sliceOut = s.sliceOut := rfl
@[simp] theorem State.modRegs_coreOut (s : State) (f : ARegs → ARegs) : (s.modRegs f).coreOut = s.coreOut := rfl
@[simp] theorem State.modRegs_spareCores (s : State) (f : ARegs → ARegs) : (s.modRegs f).spareCores = s.spareCores := rfl
@[simp] theorem State.modRegs_spareSlices (s : State) (f : ARegs → ARegs) : (s.modRegs f).spareSlices = s.spareSlices := rfl
@[simp] theorem State.modRegs_lanesUsed (s : State) (f : ARegs → ARegs) : (s.modRegs f).lanesUsed = s.lanesUsed := rfl
@[simp] theorem State.modRegs_retiredPages (s : State) (f : ARegs → ARegs) : (s.modRegs f).retiredPages = s.retiredPages := rfl
@[simp] theorem State.modRegs_bars (s : State) (f : ARegs → ARegs) : (s.modRegs f).bars = s.bars := rfl
@[simp] theorem State.modRegs_barHeld (s : State) (f : ARegs → ARegs) : (s.modRegs f).barHeld = s.barHeld := rfl
@[simp] theorem State.modRegs_groups (s : State) (f : ARegs → ARegs) : (s.modRegs f).groups = s.groups := rfl
@[simp] theorem State.modRegs_launches (s : State) (f : ARegs → ARegs) : (s.modRegs f).launches = s.launches := rfl
@[simp] theorem State.modRegs_posts (s : State) (f : ARegs → ARegs) : (s.modRegs f).posts = s.posts := rfl
@[simp] theorem State.modRegs_kept (s : State) (f : ARegs → ARegs) : (s.modRegs f).kept = s.kept := rfl
@[simp] theorem State.modRegs_posted (s : State) (f : ARegs → ARegs) : (s.modRegs f).posted = s.posted := rfl
@[simp] theorem State.modRegs_cancels (s : State) (f : ARegs → ARegs) : (s.modRegs f).cancels = s.cancels := rfl
@[simp] theorem State.modRegs_cancelQ (s : State) (f : ARegs → ARegs) : (s.modRegs f).cancelQ = s.cancelQ := rfl
@[simp] theorem State.modRegs_preempted (s : State) (f : ARegs → ARegs) : (s.modRegs f).preempted = s.preempted := rfl
@[simp] theorem State.modRegs_images (s : State) (f : ARegs → ARegs) : (s.modRegs f).images = s.images := rfl
@[simp] theorem State.modRegs_enqs (s : State) (f : ARegs → ARegs) : (s.modRegs f).enqs = s.enqs := rfl
@[simp] theorem State.modRegs_reserved (s : State) (f : ARegs → ARegs) : (s.modRegs f).reserved = s.reserved := rfl
@[simp] theorem State.modRegs_faultLog (s : State) (f : ARegs → ARegs) : (s.modRegs f).faultLog = s.faultLog := rfl
@[simp] theorem State.modRegs_faultRings (s : State) (f : ARegs → ARegs) : (s.modRegs f).faultRings = s.faultRings := rfl
@[simp] theorem State.modRegs_logged (s : State) (f : ARegs → ARegs) : (s.modRegs f).logged = s.logged := rfl
@[simp] theorem State.modRegs_trace (s : State) (f : ARegs → ARegs) : (s.modRegs f).trace = s.trace := rfl
@[simp] theorem State.modRegs_msi (s : State) (f : ARegs → ARegs) : (s.modRegs f).msi = s.msi := rfl
@[simp] theorem State.modRegs_mgmt (s : State) (f : ARegs → ARegs) : (s.modRegs f).mgmt = s.mgmt := rfl
@[simp] theorem State.modRegs_bar0 (s : State) (f : ARegs → ARegs) : (s.modRegs f).bar0 = s.bar0 := rfl
@[simp] theorem State.modRegs_boot (s : State) (f : ARegs → ARegs) : (s.modRegs f).boot = s.boot := rfl
@[simp] theorem State.modRegs_inReset (s : State) (f : ARegs → ARegs) : (s.modRegs f).inReset = s.inReset := rfl
@[simp] theorem State.modRegs_frozen (s : State) (f : ARegs → ARegs) : (s.modRegs f).frozen = s.frozen := rfl
@[simp] theorem State.modRegs_hostRead (s : State) (f : ARegs → ARegs) : (s.modRegs f).hostRead = s.hostRead := rfl
@[simp] theorem State.modRegs_flrFn (s : State) (f : ARegs → ARegs) : (s.modRegs f).flrFn = s.flrFn := rfl
@[simp] theorem State.modRegs_throttled (s : State) (f : ARegs → ARegs) : (s.modRegs f).throttled = s.throttled := rfl
@[simp] theorem State.modRegs_hot (s : State) (f : ARegs → ARegs) : (s.modRegs f).hot = s.hot := rfl
@[simp] theorem State.modRegs_cmpSaved (s : State) (f : ARegs → ARegs) : (s.modRegs f).cmpSaved = s.cmpSaved := rfl
@[simp] theorem State.modRegs_corrected (s : State) (f : ARegs → ARegs) : (s.modRegs f).corrected = s.corrected := rfl
@[simp] theorem State.modRegs_cmpKeys (s : State) (f : ARegs → ARegs) : (s.modRegs f).cmpKeys = s.cmpKeys := rfl
@[simp] theorem State.modRegs_peers (s : State) (f : ARegs → ARegs) : (s.modRegs f).peers = s.peers := rfl
@[simp] theorem State.modRegs_lpRun (s : State) (f : ARegs → ARegs) : (s.modRegs f).lpRun = s.lpRun := rfl
@[simp] theorem State.modRegs_snap (s : State) (f : ARegs → ARegs) : (s.modRegs f).snap = s.snap := rfl

/-! ### wait -/

@[simp] theorem State.wait_agenda (s : State) (w : WaitFor) : (s.wait w).agenda = s.agenda := rfl
@[simp] theorem State.wait_core (s : State) (w : WaitFor) : (s.wait w).core = s.core := rfl
@[simp] theorem State.wait_phys (s : State) (w : WaitFor) : (s.wait w).phys = s.phys := rfl
@[simp] theorem State.wait_online (s : State) (w : WaitFor) : (s.wait w).online = s.online := rfl
@[simp] theorem State.wait_cur (s : State) (w : WaitFor) : (s.wait w).cur = s.cur := rfl
@[simp] theorem State.wait_ctx (s : State) (w : WaitFor) : (s.wait w).ctx = s.ctx := rfl
@[simp] theorem State.wait_others (s : State) (w : WaitFor) : (s.wait w).others = s.others := rfl
@[simp] theorem State.wait_lastJob (s : State) (w : WaitFor) : (s.wait w).lastJob = s.lastJob := rfl
@[simp] theorem State.wait_v (s : State) (w : WaitFor) : (s.wait w).v = s.v := rfl
@[simp] theorem State.wait_vPoison (s : State) (w : WaitFor) : (s.wait w).vPoison = s.vPoison := rfl
@[simp] theorem State.wait_latch (s : State) (w : WaitFor) : (s.wait w).latch = s.latch := rfl
@[simp] theorem State.wait_m (s : State) (w : WaitFor) : (s.wait w).m = s.m := rfl
@[simp] theorem State.wait_mscale (s : State) (w : WaitFor) : (s.wait w).mscale = s.mscale := rfl
@[simp] theorem State.wait_mPoison (s : State) (w : WaitFor) : (s.wait w).mPoison = s.mPoison := rfl
@[simp] theorem State.wait_segs (s : State) (w : WaitFor) : (s.wait w).segs = s.segs := rfl
@[simp] theorem State.wait_pushArea (s : State) (w : WaitFor) : (s.wait w).pushArea = s.pushArea := rfl
@[simp] theorem State.wait_sw (s : State) (w : WaitFor) : (s.wait w).sw = s.sw := rfl
@[simp] theorem State.wait_deckMove (s : State) (w : WaitFor) : (s.wait w).deckMove = s.deckMove := rfl
@[simp] theorem State.wait_rcl (s : State) (w : WaitFor) : (s.wait w).rcl = s.rcl := rfl
@[simp] theorem State.wait_rclLast (s : State) (w : WaitFor) : (s.wait w).rclLast = s.rclLast := rfl
@[simp] theorem State.wait_smp (s : State) (w : WaitFor) : (s.wait w).smp = s.smp := rfl
@[simp] theorem State.wait_smpLast (s : State) (w : WaitFor) : (s.wait w).smpLast = s.smpLast := rfl
@[simp] theorem State.wait_ghosts (s : State) (w : WaitFor) : (s.wait w).ghosts = s.ghosts := rfl
@[simp] theorem State.wait_l1 (s : State) (w : WaitFor) : (s.wait w).l1 = s.l1 := rfl
@[simp] theorem State.wait_tlb (s : State) (w : WaitFor) : (s.wait w).tlb = s.tlb := rfl
@[simp] theorem State.wait_dict (s : State) (w : WaitFor) : (s.wait w).dict = s.dict := rfl
@[simp] theorem State.wait_dictRuns (s : State) (w : WaitFor) : (s.wait w).dictRuns = s.dictRuns := rfl
@[simp] theorem State.wait_loopBuf (s : State) (w : WaitFor) : (s.wait w).loopBuf = s.loopBuf := rfl
@[simp] theorem State.wait_reqs (s : State) (w : WaitFor) : (s.wait w).reqs = s.reqs := rfl
@[simp] theorem State.wait_streams (s : State) (w : WaitFor) : (s.wait w).streams = s.streams := rfl
@[simp] theorem State.wait_copies (s : State) (w : WaitFor) : (s.wait w).copies = s.copies := rfl
@[simp] theorem State.wait_staging (s : State) (w : WaitFor) : (s.wait w).staging = s.staging := rfl
@[simp] theorem State.wait_grants (s : State) (w : WaitFor) : (s.wait w).grants = s.grants := rfl
@[simp] theorem State.wait_copyTurn (s : State) (w : WaitFor) : (s.wait w).copyTurn = s.copyTurn := rfl
@[simp] theorem State.wait_zstores (s : State) (w : WaitFor) : (s.wait w).zstores = s.zstores := rfl
@[simp] theorem State.wait_arrayBusy (s : State) (w : WaitFor) : (s.wait w).arrayBusy = s.arrayBusy := rfl
@[simp] theorem State.wait_phase (s : State) (w : WaitFor) : (s.wait w).phase = s.phase := rfl
@[simp] theorem State.wait_mesh (s : State) (w : WaitFor) : (s.wait w).mesh = s.mesh := rfl
@[simp] theorem State.wait_meshWords (s : State) (w : WaitFor) : (s.wait w).meshWords = s.meshWords := rfl
@[simp] theorem State.wait_phaseFirst (s : State) (w : WaitFor) : (s.wait w).phaseFirst = s.phaseFirst := rfl
@[simp] theorem State.wait_fresh (s : State) (w : WaitFor) : (s.wait w).fresh = s.fresh := rfl
@[simp] theorem State.wait_mem (s : State) (w : WaitFor) : (s.wait w).mem = s.mem := rfl
@[simp] theorem State.wait_memPoison (s : State) (w : WaitFor) : (s.wait w).memPoison = s.memPoison := rfl
@[simp] theorem State.wait_tcache (s : State) (w : WaitFor) : (s.wait w).tcache = s.tcache := rfl
@[simp] theorem State.wait_pages (s : State) (w : WaitFor) : (s.wait w).pages = s.pages := rfl
@[simp] theorem State.wait_misses (s : State) (w : WaitFor) : (s.wait w).misses = s.misses := rfl
@[simp] theorem State.wait_inval (s : State) (w : WaitFor) : (s.wait w).inval = s.inval := rfl
@[simp] theorem State.wait_flitLost (s : State) (w : WaitFor) : (s.wait w).flitLost = s.flitLost := rfl
@[simp] theorem State.wait_parked (s : State) (w : WaitFor) : (s.wait w).parked = s.parked := rfl
@[simp] theorem State.wait_mapCache (s : State) (w : WaitFor) : (s.wait w).mapCache = s.mapCache := rfl
@[simp] theorem State.wait_bound (s : State) (w : WaitFor) : (s.wait w).bound = s.bound := rfl
@[simp] theorem State.wait_sysRoot (s : State) (w : WaitFor) : (s.wait w).sysRoot = s.sysRoot := rfl
@[simp] theorem State.wait_ns (s : State) (w : WaitFor) : (s.wait w).ns = s.ns := rfl
@[simp] theorem State.wait_nsCount (s : State) (w : WaitFor) : (s.wait w).nsCount = s.nsCount := rfl
@[simp] theorem State.wait_nsOff (s : State) (w : WaitFor) : (s.wait w).nsOff = s.nsOff := rfl
@[simp] theorem State.wait_hbmOff (s : State) (w : WaitFor) : (s.wait w).hbmOff = s.hbmOff := rfl
@[simp] theorem State.wait_hbmSleep (s : State) (w : WaitFor) : (s.wait w).hbmSleep = s.hbmSleep := rfl
@[simp] theorem State.wait_l2 (s : State) (w : WaitFor) : (s.wait w).l2 = s.l2 := rfl
@[simp] theorem State.wait_l2Version (s : State) (w : WaitFor) : (s.wait w).l2Version = s.l2Version := rfl
@[simp] theorem State.wait_l2Watches (s : State) (w : WaitFor) : (s.wait w).l2Watches = s.l2Watches := rfl
@[simp] theorem State.wait_sliceOut (s : State) (w : WaitFor) : (s.wait w).sliceOut = s.sliceOut := rfl
@[simp] theorem State.wait_coreOut (s : State) (w : WaitFor) : (s.wait w).coreOut = s.coreOut := rfl
@[simp] theorem State.wait_spareCores (s : State) (w : WaitFor) : (s.wait w).spareCores = s.spareCores := rfl
@[simp] theorem State.wait_spareSlices (s : State) (w : WaitFor) : (s.wait w).spareSlices = s.spareSlices := rfl
@[simp] theorem State.wait_lanesUsed (s : State) (w : WaitFor) : (s.wait w).lanesUsed = s.lanesUsed := rfl
@[simp] theorem State.wait_retiredPages (s : State) (w : WaitFor) : (s.wait w).retiredPages = s.retiredPages := rfl
@[simp] theorem State.wait_bars (s : State) (w : WaitFor) : (s.wait w).bars = s.bars := rfl
@[simp] theorem State.wait_barHeld (s : State) (w : WaitFor) : (s.wait w).barHeld = s.barHeld := rfl
@[simp] theorem State.wait_groups (s : State) (w : WaitFor) : (s.wait w).groups = s.groups := rfl
@[simp] theorem State.wait_launches (s : State) (w : WaitFor) : (s.wait w).launches = s.launches := rfl
@[simp] theorem State.wait_posts (s : State) (w : WaitFor) : (s.wait w).posts = s.posts := rfl
@[simp] theorem State.wait_kept (s : State) (w : WaitFor) : (s.wait w).kept = s.kept := rfl
@[simp] theorem State.wait_posted (s : State) (w : WaitFor) : (s.wait w).posted = s.posted := rfl
@[simp] theorem State.wait_cancels (s : State) (w : WaitFor) : (s.wait w).cancels = s.cancels := rfl
@[simp] theorem State.wait_cancelQ (s : State) (w : WaitFor) : (s.wait w).cancelQ = s.cancelQ := rfl
@[simp] theorem State.wait_preempted (s : State) (w : WaitFor) : (s.wait w).preempted = s.preempted := rfl
@[simp] theorem State.wait_images (s : State) (w : WaitFor) : (s.wait w).images = s.images := rfl
@[simp] theorem State.wait_enqs (s : State) (w : WaitFor) : (s.wait w).enqs = s.enqs := rfl
@[simp] theorem State.wait_reserved (s : State) (w : WaitFor) : (s.wait w).reserved = s.reserved := rfl
@[simp] theorem State.wait_faultLog (s : State) (w : WaitFor) : (s.wait w).faultLog = s.faultLog := rfl
@[simp] theorem State.wait_faultRings (s : State) (w : WaitFor) : (s.wait w).faultRings = s.faultRings := rfl
@[simp] theorem State.wait_logged (s : State) (w : WaitFor) : (s.wait w).logged = s.logged := rfl
@[simp] theorem State.wait_trace (s : State) (w : WaitFor) : (s.wait w).trace = s.trace := rfl
@[simp] theorem State.wait_msi (s : State) (w : WaitFor) : (s.wait w).msi = s.msi := rfl
@[simp] theorem State.wait_mgmt (s : State) (w : WaitFor) : (s.wait w).mgmt = s.mgmt := rfl
@[simp] theorem State.wait_bar0 (s : State) (w : WaitFor) : (s.wait w).bar0 = s.bar0 := rfl
@[simp] theorem State.wait_boot (s : State) (w : WaitFor) : (s.wait w).boot = s.boot := rfl
@[simp] theorem State.wait_inReset (s : State) (w : WaitFor) : (s.wait w).inReset = s.inReset := rfl
@[simp] theorem State.wait_frozen (s : State) (w : WaitFor) : (s.wait w).frozen = s.frozen := rfl
@[simp] theorem State.wait_hostRead (s : State) (w : WaitFor) : (s.wait w).hostRead = s.hostRead := rfl
@[simp] theorem State.wait_flrFn (s : State) (w : WaitFor) : (s.wait w).flrFn = s.flrFn := rfl
@[simp] theorem State.wait_throttled (s : State) (w : WaitFor) : (s.wait w).throttled = s.throttled := rfl
@[simp] theorem State.wait_hot (s : State) (w : WaitFor) : (s.wait w).hot = s.hot := rfl
@[simp] theorem State.wait_cmpSaved (s : State) (w : WaitFor) : (s.wait w).cmpSaved = s.cmpSaved := rfl
@[simp] theorem State.wait_corrected (s : State) (w : WaitFor) : (s.wait w).corrected = s.corrected := rfl
@[simp] theorem State.wait_cmpKeys (s : State) (w : WaitFor) : (s.wait w).cmpKeys = s.cmpKeys := rfl
@[simp] theorem State.wait_peers (s : State) (w : WaitFor) : (s.wait w).peers = s.peers := rfl
@[simp] theorem State.wait_lpRun (s : State) (w : WaitFor) : (s.wait w).lpRun = s.lpRun := rfl
@[simp] theorem State.wait_snap (s : State) (w : WaitFor) : (s.wait w).snap = s.snap := rfl

/-! ### bump -/

@[simp] theorem State.bump_agenda (s : State) : (s.bump).agenda = s.agenda := rfl
@[simp] theorem State.bump_mark (s : State) : (s.bump).mark = s.mark := rfl
@[simp] theorem State.bump_core (s : State) : (s.bump).core = s.core := rfl
@[simp] theorem State.bump_phys (s : State) : (s.bump).phys = s.phys := rfl
@[simp] theorem State.bump_online (s : State) : (s.bump).online = s.online := rfl
@[simp] theorem State.bump_cur (s : State) : (s.bump).cur = s.cur := rfl
@[simp] theorem State.bump_ctx (s : State) : (s.bump).ctx = s.ctx := rfl
@[simp] theorem State.bump_others (s : State) : (s.bump).others = s.others := rfl
@[simp] theorem State.bump_lastJob (s : State) : (s.bump).lastJob = s.lastJob := rfl
@[simp] theorem State.bump_v (s : State) : (s.bump).v = s.v := rfl
@[simp] theorem State.bump_vPoison (s : State) : (s.bump).vPoison = s.vPoison := rfl
@[simp] theorem State.bump_latch (s : State) : (s.bump).latch = s.latch := rfl
@[simp] theorem State.bump_m (s : State) : (s.bump).m = s.m := rfl
@[simp] theorem State.bump_mscale (s : State) : (s.bump).mscale = s.mscale := rfl
@[simp] theorem State.bump_mPoison (s : State) : (s.bump).mPoison = s.mPoison := rfl
@[simp] theorem State.bump_segs (s : State) : (s.bump).segs = s.segs := rfl
@[simp] theorem State.bump_pushArea (s : State) : (s.bump).pushArea = s.pushArea := rfl
@[simp] theorem State.bump_sw (s : State) : (s.bump).sw = s.sw := rfl
@[simp] theorem State.bump_deckMove (s : State) : (s.bump).deckMove = s.deckMove := rfl
@[simp] theorem State.bump_rcl (s : State) : (s.bump).rcl = s.rcl := rfl
@[simp] theorem State.bump_rclLast (s : State) : (s.bump).rclLast = s.rclLast := rfl
@[simp] theorem State.bump_smp (s : State) : (s.bump).smp = s.smp := rfl
@[simp] theorem State.bump_smpLast (s : State) : (s.bump).smpLast = s.smpLast := rfl
@[simp] theorem State.bump_ghosts (s : State) : (s.bump).ghosts = s.ghosts := rfl
@[simp] theorem State.bump_l1 (s : State) : (s.bump).l1 = s.l1 := rfl
@[simp] theorem State.bump_tlb (s : State) : (s.bump).tlb = s.tlb := rfl
@[simp] theorem State.bump_dict (s : State) : (s.bump).dict = s.dict := rfl
@[simp] theorem State.bump_dictRuns (s : State) : (s.bump).dictRuns = s.dictRuns := rfl
@[simp] theorem State.bump_loopBuf (s : State) : (s.bump).loopBuf = s.loopBuf := rfl
@[simp] theorem State.bump_reqs (s : State) : (s.bump).reqs = s.reqs := rfl
@[simp] theorem State.bump_streams (s : State) : (s.bump).streams = s.streams := rfl
@[simp] theorem State.bump_copies (s : State) : (s.bump).copies = s.copies := rfl
@[simp] theorem State.bump_staging (s : State) : (s.bump).staging = s.staging := rfl
@[simp] theorem State.bump_grants (s : State) : (s.bump).grants = s.grants := rfl
@[simp] theorem State.bump_copyTurn (s : State) : (s.bump).copyTurn = s.copyTurn := rfl
@[simp] theorem State.bump_zstores (s : State) : (s.bump).zstores = s.zstores := rfl
@[simp] theorem State.bump_arrayBusy (s : State) : (s.bump).arrayBusy = s.arrayBusy := rfl
@[simp] theorem State.bump_phase (s : State) : (s.bump).phase = s.phase := rfl
@[simp] theorem State.bump_mesh (s : State) : (s.bump).mesh = s.mesh := rfl
@[simp] theorem State.bump_meshWords (s : State) : (s.bump).meshWords = s.meshWords := rfl
@[simp] theorem State.bump_phaseFirst (s : State) : (s.bump).phaseFirst = s.phaseFirst := rfl
@[simp] theorem State.bump_mem (s : State) : (s.bump).mem = s.mem := rfl
@[simp] theorem State.bump_memPoison (s : State) : (s.bump).memPoison = s.memPoison := rfl
@[simp] theorem State.bump_tcache (s : State) : (s.bump).tcache = s.tcache := rfl
@[simp] theorem State.bump_pages (s : State) : (s.bump).pages = s.pages := rfl
@[simp] theorem State.bump_misses (s : State) : (s.bump).misses = s.misses := rfl
@[simp] theorem State.bump_inval (s : State) : (s.bump).inval = s.inval := rfl
@[simp] theorem State.bump_flitLost (s : State) : (s.bump).flitLost = s.flitLost := rfl
@[simp] theorem State.bump_parked (s : State) : (s.bump).parked = s.parked := rfl
@[simp] theorem State.bump_mapCache (s : State) : (s.bump).mapCache = s.mapCache := rfl
@[simp] theorem State.bump_bound (s : State) : (s.bump).bound = s.bound := rfl
@[simp] theorem State.bump_sysRoot (s : State) : (s.bump).sysRoot = s.sysRoot := rfl
@[simp] theorem State.bump_ns (s : State) : (s.bump).ns = s.ns := rfl
@[simp] theorem State.bump_nsCount (s : State) : (s.bump).nsCount = s.nsCount := rfl
@[simp] theorem State.bump_nsOff (s : State) : (s.bump).nsOff = s.nsOff := rfl
@[simp] theorem State.bump_hbmOff (s : State) : (s.bump).hbmOff = s.hbmOff := rfl
@[simp] theorem State.bump_hbmSleep (s : State) : (s.bump).hbmSleep = s.hbmSleep := rfl
@[simp] theorem State.bump_l2 (s : State) : (s.bump).l2 = s.l2 := rfl
@[simp] theorem State.bump_l2Version (s : State) : (s.bump).l2Version = s.l2Version := rfl
@[simp] theorem State.bump_l2Watches (s : State) : (s.bump).l2Watches = s.l2Watches := rfl
@[simp] theorem State.bump_sliceOut (s : State) : (s.bump).sliceOut = s.sliceOut := rfl
@[simp] theorem State.bump_coreOut (s : State) : (s.bump).coreOut = s.coreOut := rfl
@[simp] theorem State.bump_spareCores (s : State) : (s.bump).spareCores = s.spareCores := rfl
@[simp] theorem State.bump_spareSlices (s : State) : (s.bump).spareSlices = s.spareSlices := rfl
@[simp] theorem State.bump_lanesUsed (s : State) : (s.bump).lanesUsed = s.lanesUsed := rfl
@[simp] theorem State.bump_retiredPages (s : State) : (s.bump).retiredPages = s.retiredPages := rfl
@[simp] theorem State.bump_bars (s : State) : (s.bump).bars = s.bars := rfl
@[simp] theorem State.bump_barHeld (s : State) : (s.bump).barHeld = s.barHeld := rfl
@[simp] theorem State.bump_groups (s : State) : (s.bump).groups = s.groups := rfl
@[simp] theorem State.bump_launches (s : State) : (s.bump).launches = s.launches := rfl
@[simp] theorem State.bump_posts (s : State) : (s.bump).posts = s.posts := rfl
@[simp] theorem State.bump_kept (s : State) : (s.bump).kept = s.kept := rfl
@[simp] theorem State.bump_posted (s : State) : (s.bump).posted = s.posted := rfl
@[simp] theorem State.bump_cancels (s : State) : (s.bump).cancels = s.cancels := rfl
@[simp] theorem State.bump_cancelQ (s : State) : (s.bump).cancelQ = s.cancelQ := rfl
@[simp] theorem State.bump_preempted (s : State) : (s.bump).preempted = s.preempted := rfl
@[simp] theorem State.bump_images (s : State) : (s.bump).images = s.images := rfl
@[simp] theorem State.bump_enqs (s : State) : (s.bump).enqs = s.enqs := rfl
@[simp] theorem State.bump_reserved (s : State) : (s.bump).reserved = s.reserved := rfl
@[simp] theorem State.bump_faultLog (s : State) : (s.bump).faultLog = s.faultLog := rfl
@[simp] theorem State.bump_faultRings (s : State) : (s.bump).faultRings = s.faultRings := rfl
@[simp] theorem State.bump_logged (s : State) : (s.bump).logged = s.logged := rfl
@[simp] theorem State.bump_trace (s : State) : (s.bump).trace = s.trace := rfl
@[simp] theorem State.bump_msi (s : State) : (s.bump).msi = s.msi := rfl
@[simp] theorem State.bump_mgmt (s : State) : (s.bump).mgmt = s.mgmt := rfl
@[simp] theorem State.bump_bar0 (s : State) : (s.bump).bar0 = s.bar0 := rfl
@[simp] theorem State.bump_boot (s : State) : (s.bump).boot = s.boot := rfl
@[simp] theorem State.bump_inReset (s : State) : (s.bump).inReset = s.inReset := rfl
@[simp] theorem State.bump_frozen (s : State) : (s.bump).frozen = s.frozen := rfl
@[simp] theorem State.bump_hostRead (s : State) : (s.bump).hostRead = s.hostRead := rfl
@[simp] theorem State.bump_flrFn (s : State) : (s.bump).flrFn = s.flrFn := rfl
@[simp] theorem State.bump_throttled (s : State) : (s.bump).throttled = s.throttled := rfl
@[simp] theorem State.bump_hot (s : State) : (s.bump).hot = s.hot := rfl
@[simp] theorem State.bump_cmpSaved (s : State) : (s.bump).cmpSaved = s.cmpSaved := rfl
@[simp] theorem State.bump_corrected (s : State) : (s.bump).corrected = s.corrected := rfl
@[simp] theorem State.bump_cmpKeys (s : State) : (s.bump).cmpKeys = s.cmpKeys := rfl
@[simp] theorem State.bump_peers (s : State) : (s.bump).peers = s.peers := rfl
@[simp] theorem State.bump_lpRun (s : State) : (s.bump).lpRun = s.lpRun := rfl
@[simp] theorem State.bump_snap (s : State) : (s.bump).snap = s.snap := rfl

/-! ### signal -/

@[simp] theorem State.signal_agenda (s : State) (fn vec : Nat) : (s.signal fn vec).agenda = s.agenda := rfl
@[simp] theorem State.signal_mark (s : State) (fn vec : Nat) : (s.signal fn vec).mark = s.mark := rfl
@[simp] theorem State.signal_core (s : State) (fn vec : Nat) : (s.signal fn vec).core = s.core := rfl
@[simp] theorem State.signal_phys (s : State) (fn vec : Nat) : (s.signal fn vec).phys = s.phys := rfl
@[simp] theorem State.signal_online (s : State) (fn vec : Nat) : (s.signal fn vec).online = s.online := rfl
@[simp] theorem State.signal_cur (s : State) (fn vec : Nat) : (s.signal fn vec).cur = s.cur := rfl
@[simp] theorem State.signal_ctx (s : State) (fn vec : Nat) : (s.signal fn vec).ctx = s.ctx := rfl
@[simp] theorem State.signal_others (s : State) (fn vec : Nat) : (s.signal fn vec).others = s.others := rfl
@[simp] theorem State.signal_lastJob (s : State) (fn vec : Nat) : (s.signal fn vec).lastJob = s.lastJob := rfl
@[simp] theorem State.signal_v (s : State) (fn vec : Nat) : (s.signal fn vec).v = s.v := rfl
@[simp] theorem State.signal_vPoison (s : State) (fn vec : Nat) : (s.signal fn vec).vPoison = s.vPoison := rfl
@[simp] theorem State.signal_latch (s : State) (fn vec : Nat) : (s.signal fn vec).latch = s.latch := rfl
@[simp] theorem State.signal_m (s : State) (fn vec : Nat) : (s.signal fn vec).m = s.m := rfl
@[simp] theorem State.signal_mscale (s : State) (fn vec : Nat) : (s.signal fn vec).mscale = s.mscale := rfl
@[simp] theorem State.signal_mPoison (s : State) (fn vec : Nat) : (s.signal fn vec).mPoison = s.mPoison := rfl
@[simp] theorem State.signal_segs (s : State) (fn vec : Nat) : (s.signal fn vec).segs = s.segs := rfl
@[simp] theorem State.signal_pushArea (s : State) (fn vec : Nat) : (s.signal fn vec).pushArea = s.pushArea := rfl
@[simp] theorem State.signal_sw (s : State) (fn vec : Nat) : (s.signal fn vec).sw = s.sw := rfl
@[simp] theorem State.signal_deckMove (s : State) (fn vec : Nat) : (s.signal fn vec).deckMove = s.deckMove := rfl
@[simp] theorem State.signal_rcl (s : State) (fn vec : Nat) : (s.signal fn vec).rcl = s.rcl := rfl
@[simp] theorem State.signal_rclLast (s : State) (fn vec : Nat) : (s.signal fn vec).rclLast = s.rclLast := rfl
@[simp] theorem State.signal_smp (s : State) (fn vec : Nat) : (s.signal fn vec).smp = s.smp := rfl
@[simp] theorem State.signal_smpLast (s : State) (fn vec : Nat) : (s.signal fn vec).smpLast = s.smpLast := rfl
@[simp] theorem State.signal_ghosts (s : State) (fn vec : Nat) : (s.signal fn vec).ghosts = s.ghosts := rfl
@[simp] theorem State.signal_l1 (s : State) (fn vec : Nat) : (s.signal fn vec).l1 = s.l1 := rfl
@[simp] theorem State.signal_tlb (s : State) (fn vec : Nat) : (s.signal fn vec).tlb = s.tlb := rfl
@[simp] theorem State.signal_dict (s : State) (fn vec : Nat) : (s.signal fn vec).dict = s.dict := rfl
@[simp] theorem State.signal_dictRuns (s : State) (fn vec : Nat) : (s.signal fn vec).dictRuns = s.dictRuns := rfl
@[simp] theorem State.signal_loopBuf (s : State) (fn vec : Nat) : (s.signal fn vec).loopBuf = s.loopBuf := rfl
@[simp] theorem State.signal_reqs (s : State) (fn vec : Nat) : (s.signal fn vec).reqs = s.reqs := rfl
@[simp] theorem State.signal_streams (s : State) (fn vec : Nat) : (s.signal fn vec).streams = s.streams := rfl
@[simp] theorem State.signal_copies (s : State) (fn vec : Nat) : (s.signal fn vec).copies = s.copies := rfl
@[simp] theorem State.signal_staging (s : State) (fn vec : Nat) : (s.signal fn vec).staging = s.staging := rfl
@[simp] theorem State.signal_grants (s : State) (fn vec : Nat) : (s.signal fn vec).grants = s.grants := rfl
@[simp] theorem State.signal_copyTurn (s : State) (fn vec : Nat) : (s.signal fn vec).copyTurn = s.copyTurn := rfl
@[simp] theorem State.signal_zstores (s : State) (fn vec : Nat) : (s.signal fn vec).zstores = s.zstores := rfl
@[simp] theorem State.signal_arrayBusy (s : State) (fn vec : Nat) : (s.signal fn vec).arrayBusy = s.arrayBusy := rfl
@[simp] theorem State.signal_phase (s : State) (fn vec : Nat) : (s.signal fn vec).phase = s.phase := rfl
@[simp] theorem State.signal_mesh (s : State) (fn vec : Nat) : (s.signal fn vec).mesh = s.mesh := rfl
@[simp] theorem State.signal_meshWords (s : State) (fn vec : Nat) : (s.signal fn vec).meshWords = s.meshWords := rfl
@[simp] theorem State.signal_phaseFirst (s : State) (fn vec : Nat) : (s.signal fn vec).phaseFirst = s.phaseFirst := rfl
@[simp] theorem State.signal_fresh (s : State) (fn vec : Nat) : (s.signal fn vec).fresh = s.fresh := rfl
@[simp] theorem State.signal_mem (s : State) (fn vec : Nat) : (s.signal fn vec).mem = s.mem := rfl
@[simp] theorem State.signal_memPoison (s : State) (fn vec : Nat) : (s.signal fn vec).memPoison = s.memPoison := rfl
@[simp] theorem State.signal_tcache (s : State) (fn vec : Nat) : (s.signal fn vec).tcache = s.tcache := rfl
@[simp] theorem State.signal_pages (s : State) (fn vec : Nat) : (s.signal fn vec).pages = s.pages := rfl
@[simp] theorem State.signal_misses (s : State) (fn vec : Nat) : (s.signal fn vec).misses = s.misses := rfl
@[simp] theorem State.signal_inval (s : State) (fn vec : Nat) : (s.signal fn vec).inval = s.inval := rfl
@[simp] theorem State.signal_flitLost (s : State) (fn vec : Nat) : (s.signal fn vec).flitLost = s.flitLost := rfl
@[simp] theorem State.signal_parked (s : State) (fn vec : Nat) : (s.signal fn vec).parked = s.parked := rfl
@[simp] theorem State.signal_mapCache (s : State) (fn vec : Nat) : (s.signal fn vec).mapCache = s.mapCache := rfl
@[simp] theorem State.signal_bound (s : State) (fn vec : Nat) : (s.signal fn vec).bound = s.bound := rfl
@[simp] theorem State.signal_sysRoot (s : State) (fn vec : Nat) : (s.signal fn vec).sysRoot = s.sysRoot := rfl
@[simp] theorem State.signal_ns (s : State) (fn vec : Nat) : (s.signal fn vec).ns = s.ns := rfl
@[simp] theorem State.signal_nsCount (s : State) (fn vec : Nat) : (s.signal fn vec).nsCount = s.nsCount := rfl
@[simp] theorem State.signal_nsOff (s : State) (fn vec : Nat) : (s.signal fn vec).nsOff = s.nsOff := rfl
@[simp] theorem State.signal_hbmOff (s : State) (fn vec : Nat) : (s.signal fn vec).hbmOff = s.hbmOff := rfl
@[simp] theorem State.signal_hbmSleep (s : State) (fn vec : Nat) : (s.signal fn vec).hbmSleep = s.hbmSleep := rfl
@[simp] theorem State.signal_l2 (s : State) (fn vec : Nat) : (s.signal fn vec).l2 = s.l2 := rfl
@[simp] theorem State.signal_l2Version (s : State) (fn vec : Nat) : (s.signal fn vec).l2Version = s.l2Version := rfl
@[simp] theorem State.signal_l2Watches (s : State) (fn vec : Nat) : (s.signal fn vec).l2Watches = s.l2Watches := rfl
@[simp] theorem State.signal_sliceOut (s : State) (fn vec : Nat) : (s.signal fn vec).sliceOut = s.sliceOut := rfl
@[simp] theorem State.signal_coreOut (s : State) (fn vec : Nat) : (s.signal fn vec).coreOut = s.coreOut := rfl
@[simp] theorem State.signal_spareCores (s : State) (fn vec : Nat) : (s.signal fn vec).spareCores = s.spareCores := rfl
@[simp] theorem State.signal_spareSlices (s : State) (fn vec : Nat) : (s.signal fn vec).spareSlices = s.spareSlices := rfl
@[simp] theorem State.signal_lanesUsed (s : State) (fn vec : Nat) : (s.signal fn vec).lanesUsed = s.lanesUsed := rfl
@[simp] theorem State.signal_retiredPages (s : State) (fn vec : Nat) : (s.signal fn vec).retiredPages = s.retiredPages := rfl
@[simp] theorem State.signal_bars (s : State) (fn vec : Nat) : (s.signal fn vec).bars = s.bars := rfl
@[simp] theorem State.signal_barHeld (s : State) (fn vec : Nat) : (s.signal fn vec).barHeld = s.barHeld := rfl
@[simp] theorem State.signal_groups (s : State) (fn vec : Nat) : (s.signal fn vec).groups = s.groups := rfl
@[simp] theorem State.signal_launches (s : State) (fn vec : Nat) : (s.signal fn vec).launches = s.launches := rfl
@[simp] theorem State.signal_posts (s : State) (fn vec : Nat) : (s.signal fn vec).posts = s.posts := rfl
@[simp] theorem State.signal_kept (s : State) (fn vec : Nat) : (s.signal fn vec).kept = s.kept := rfl
@[simp] theorem State.signal_posted (s : State) (fn vec : Nat) : (s.signal fn vec).posted = s.posted := rfl
@[simp] theorem State.signal_cancels (s : State) (fn vec : Nat) : (s.signal fn vec).cancels = s.cancels := rfl
@[simp] theorem State.signal_cancelQ (s : State) (fn vec : Nat) : (s.signal fn vec).cancelQ = s.cancelQ := rfl
@[simp] theorem State.signal_preempted (s : State) (fn vec : Nat) : (s.signal fn vec).preempted = s.preempted := rfl
@[simp] theorem State.signal_images (s : State) (fn vec : Nat) : (s.signal fn vec).images = s.images := rfl
@[simp] theorem State.signal_enqs (s : State) (fn vec : Nat) : (s.signal fn vec).enqs = s.enqs := rfl
@[simp] theorem State.signal_reserved (s : State) (fn vec : Nat) : (s.signal fn vec).reserved = s.reserved := rfl
@[simp] theorem State.signal_faultLog (s : State) (fn vec : Nat) : (s.signal fn vec).faultLog = s.faultLog := rfl
@[simp] theorem State.signal_faultRings (s : State) (fn vec : Nat) : (s.signal fn vec).faultRings = s.faultRings := rfl
@[simp] theorem State.signal_logged (s : State) (fn vec : Nat) : (s.signal fn vec).logged = s.logged := rfl
@[simp] theorem State.signal_trace (s : State) (fn vec : Nat) : (s.signal fn vec).trace = s.trace := rfl
@[simp] theorem State.signal_mgmt (s : State) (fn vec : Nat) : (s.signal fn vec).mgmt = s.mgmt := rfl
@[simp] theorem State.signal_bar0 (s : State) (fn vec : Nat) : (s.signal fn vec).bar0 = s.bar0 := rfl
@[simp] theorem State.signal_boot (s : State) (fn vec : Nat) : (s.signal fn vec).boot = s.boot := rfl
@[simp] theorem State.signal_inReset (s : State) (fn vec : Nat) : (s.signal fn vec).inReset = s.inReset := rfl
@[simp] theorem State.signal_frozen (s : State) (fn vec : Nat) : (s.signal fn vec).frozen = s.frozen := rfl
@[simp] theorem State.signal_hostRead (s : State) (fn vec : Nat) : (s.signal fn vec).hostRead = s.hostRead := rfl
@[simp] theorem State.signal_flrFn (s : State) (fn vec : Nat) : (s.signal fn vec).flrFn = s.flrFn := rfl
@[simp] theorem State.signal_throttled (s : State) (fn vec : Nat) : (s.signal fn vec).throttled = s.throttled := rfl
@[simp] theorem State.signal_hot (s : State) (fn vec : Nat) : (s.signal fn vec).hot = s.hot := rfl
@[simp] theorem State.signal_cmpSaved (s : State) (fn vec : Nat) : (s.signal fn vec).cmpSaved = s.cmpSaved := rfl
@[simp] theorem State.signal_corrected (s : State) (fn vec : Nat) : (s.signal fn vec).corrected = s.corrected := rfl
@[simp] theorem State.signal_cmpKeys (s : State) (fn vec : Nat) : (s.signal fn vec).cmpKeys = s.cmpKeys := rfl
@[simp] theorem State.signal_peers (s : State) (fn vec : Nat) : (s.signal fn vec).peers = s.peers := rfl
@[simp] theorem State.signal_lpRun (s : State) (fn vec : Nat) : (s.signal fn vec).lpRun = s.lpRun := rfl
@[simp] theorem State.signal_snap (s : State) (fn vec : Nat) : (s.signal fn vec).snap = s.snap := rfl

/-! ### setBar -/

@[simp] theorem State.setBar_agenda (s : State) (fn off : Nat) (w : Word) : (s.setBar fn off w).agenda = s.agenda := rfl
@[simp] theorem State.setBar_mark (s : State) (fn off : Nat) (w : Word) : (s.setBar fn off w).mark = s.mark := rfl
@[simp] theorem State.setBar_core (s : State) (fn off : Nat) (w : Word) : (s.setBar fn off w).core = s.core := rfl
@[simp] theorem State.setBar_phys (s : State) (fn off : Nat) (w : Word) : (s.setBar fn off w).phys = s.phys := rfl
@[simp] theorem State.setBar_online (s : State) (fn off : Nat) (w : Word) : (s.setBar fn off w).online = s.online := rfl
@[simp] theorem State.setBar_cur (s : State) (fn off : Nat) (w : Word) : (s.setBar fn off w).cur = s.cur := rfl
@[simp] theorem State.setBar_ctx (s : State) (fn off : Nat) (w : Word) : (s.setBar fn off w).ctx = s.ctx := rfl
@[simp] theorem State.setBar_others (s : State) (fn off : Nat) (w : Word) : (s.setBar fn off w).others = s.others := rfl
@[simp] theorem State.setBar_lastJob (s : State) (fn off : Nat) (w : Word) : (s.setBar fn off w).lastJob = s.lastJob := rfl
@[simp] theorem State.setBar_v (s : State) (fn off : Nat) (w : Word) : (s.setBar fn off w).v = s.v := rfl
@[simp] theorem State.setBar_vPoison (s : State) (fn off : Nat) (w : Word) : (s.setBar fn off w).vPoison = s.vPoison := rfl
@[simp] theorem State.setBar_latch (s : State) (fn off : Nat) (w : Word) : (s.setBar fn off w).latch = s.latch := rfl
@[simp] theorem State.setBar_m (s : State) (fn off : Nat) (w : Word) : (s.setBar fn off w).m = s.m := rfl
@[simp] theorem State.setBar_mscale (s : State) (fn off : Nat) (w : Word) : (s.setBar fn off w).mscale = s.mscale := rfl
@[simp] theorem State.setBar_mPoison (s : State) (fn off : Nat) (w : Word) : (s.setBar fn off w).mPoison = s.mPoison := rfl
@[simp] theorem State.setBar_segs (s : State) (fn off : Nat) (w : Word) : (s.setBar fn off w).segs = s.segs := rfl
@[simp] theorem State.setBar_pushArea (s : State) (fn off : Nat) (w : Word) : (s.setBar fn off w).pushArea = s.pushArea := rfl
@[simp] theorem State.setBar_sw (s : State) (fn off : Nat) (w : Word) : (s.setBar fn off w).sw = s.sw := rfl
@[simp] theorem State.setBar_deckMove (s : State) (fn off : Nat) (w : Word) : (s.setBar fn off w).deckMove = s.deckMove := rfl
@[simp] theorem State.setBar_rcl (s : State) (fn off : Nat) (w : Word) : (s.setBar fn off w).rcl = s.rcl := rfl
@[simp] theorem State.setBar_rclLast (s : State) (fn off : Nat) (w : Word) : (s.setBar fn off w).rclLast = s.rclLast := rfl
@[simp] theorem State.setBar_smp (s : State) (fn off : Nat) (w : Word) : (s.setBar fn off w).smp = s.smp := rfl
@[simp] theorem State.setBar_smpLast (s : State) (fn off : Nat) (w : Word) : (s.setBar fn off w).smpLast = s.smpLast := rfl
@[simp] theorem State.setBar_ghosts (s : State) (fn off : Nat) (w : Word) : (s.setBar fn off w).ghosts = s.ghosts := rfl
@[simp] theorem State.setBar_l1 (s : State) (fn off : Nat) (w : Word) : (s.setBar fn off w).l1 = s.l1 := rfl
@[simp] theorem State.setBar_tlb (s : State) (fn off : Nat) (w : Word) : (s.setBar fn off w).tlb = s.tlb := rfl
@[simp] theorem State.setBar_dict (s : State) (fn off : Nat) (w : Word) : (s.setBar fn off w).dict = s.dict := rfl
@[simp] theorem State.setBar_dictRuns (s : State) (fn off : Nat) (w : Word) : (s.setBar fn off w).dictRuns = s.dictRuns := rfl
@[simp] theorem State.setBar_loopBuf (s : State) (fn off : Nat) (w : Word) : (s.setBar fn off w).loopBuf = s.loopBuf := rfl
@[simp] theorem State.setBar_reqs (s : State) (fn off : Nat) (w : Word) : (s.setBar fn off w).reqs = s.reqs := rfl
@[simp] theorem State.setBar_streams (s : State) (fn off : Nat) (w : Word) : (s.setBar fn off w).streams = s.streams := rfl
@[simp] theorem State.setBar_copies (s : State) (fn off : Nat) (w : Word) : (s.setBar fn off w).copies = s.copies := rfl
@[simp] theorem State.setBar_staging (s : State) (fn off : Nat) (w : Word) : (s.setBar fn off w).staging = s.staging := rfl
@[simp] theorem State.setBar_grants (s : State) (fn off : Nat) (w : Word) : (s.setBar fn off w).grants = s.grants := rfl
@[simp] theorem State.setBar_copyTurn (s : State) (fn off : Nat) (w : Word) : (s.setBar fn off w).copyTurn = s.copyTurn := rfl
@[simp] theorem State.setBar_zstores (s : State) (fn off : Nat) (w : Word) : (s.setBar fn off w).zstores = s.zstores := rfl
@[simp] theorem State.setBar_arrayBusy (s : State) (fn off : Nat) (w : Word) : (s.setBar fn off w).arrayBusy = s.arrayBusy := rfl
@[simp] theorem State.setBar_phase (s : State) (fn off : Nat) (w : Word) : (s.setBar fn off w).phase = s.phase := rfl
@[simp] theorem State.setBar_mesh (s : State) (fn off : Nat) (w : Word) : (s.setBar fn off w).mesh = s.mesh := rfl
@[simp] theorem State.setBar_meshWords (s : State) (fn off : Nat) (w : Word) : (s.setBar fn off w).meshWords = s.meshWords := rfl
@[simp] theorem State.setBar_phaseFirst (s : State) (fn off : Nat) (w : Word) : (s.setBar fn off w).phaseFirst = s.phaseFirst := rfl
@[simp] theorem State.setBar_fresh (s : State) (fn off : Nat) (w : Word) : (s.setBar fn off w).fresh = s.fresh := rfl
@[simp] theorem State.setBar_mem (s : State) (fn off : Nat) (w : Word) : (s.setBar fn off w).mem = s.mem := rfl
@[simp] theorem State.setBar_memPoison (s : State) (fn off : Nat) (w : Word) : (s.setBar fn off w).memPoison = s.memPoison := rfl
@[simp] theorem State.setBar_tcache (s : State) (fn off : Nat) (w : Word) : (s.setBar fn off w).tcache = s.tcache := rfl
@[simp] theorem State.setBar_pages (s : State) (fn off : Nat) (w : Word) : (s.setBar fn off w).pages = s.pages := rfl
@[simp] theorem State.setBar_misses (s : State) (fn off : Nat) (w : Word) : (s.setBar fn off w).misses = s.misses := rfl
@[simp] theorem State.setBar_inval (s : State) (fn off : Nat) (w : Word) : (s.setBar fn off w).inval = s.inval := rfl
@[simp] theorem State.setBar_flitLost (s : State) (fn off : Nat) (w : Word) : (s.setBar fn off w).flitLost = s.flitLost := rfl
@[simp] theorem State.setBar_parked (s : State) (fn off : Nat) (w : Word) : (s.setBar fn off w).parked = s.parked := rfl
@[simp] theorem State.setBar_mapCache (s : State) (fn off : Nat) (w : Word) : (s.setBar fn off w).mapCache = s.mapCache := rfl
@[simp] theorem State.setBar_bound (s : State) (fn off : Nat) (w : Word) : (s.setBar fn off w).bound = s.bound := rfl
@[simp] theorem State.setBar_sysRoot (s : State) (fn off : Nat) (w : Word) : (s.setBar fn off w).sysRoot = s.sysRoot := rfl
@[simp] theorem State.setBar_ns (s : State) (fn off : Nat) (w : Word) : (s.setBar fn off w).ns = s.ns := rfl
@[simp] theorem State.setBar_nsCount (s : State) (fn off : Nat) (w : Word) : (s.setBar fn off w).nsCount = s.nsCount := rfl
@[simp] theorem State.setBar_nsOff (s : State) (fn off : Nat) (w : Word) : (s.setBar fn off w).nsOff = s.nsOff := rfl
@[simp] theorem State.setBar_hbmOff (s : State) (fn off : Nat) (w : Word) : (s.setBar fn off w).hbmOff = s.hbmOff := rfl
@[simp] theorem State.setBar_hbmSleep (s : State) (fn off : Nat) (w : Word) : (s.setBar fn off w).hbmSleep = s.hbmSleep := rfl
@[simp] theorem State.setBar_l2 (s : State) (fn off : Nat) (w : Word) : (s.setBar fn off w).l2 = s.l2 := rfl
@[simp] theorem State.setBar_l2Version (s : State) (fn off : Nat) (w : Word) : (s.setBar fn off w).l2Version = s.l2Version := rfl
@[simp] theorem State.setBar_l2Watches (s : State) (fn off : Nat) (w : Word) : (s.setBar fn off w).l2Watches = s.l2Watches := rfl
@[simp] theorem State.setBar_sliceOut (s : State) (fn off : Nat) (w : Word) : (s.setBar fn off w).sliceOut = s.sliceOut := rfl
@[simp] theorem State.setBar_coreOut (s : State) (fn off : Nat) (w : Word) : (s.setBar fn off w).coreOut = s.coreOut := rfl
@[simp] theorem State.setBar_spareCores (s : State) (fn off : Nat) (w : Word) : (s.setBar fn off w).spareCores = s.spareCores := rfl
@[simp] theorem State.setBar_spareSlices (s : State) (fn off : Nat) (w : Word) : (s.setBar fn off w).spareSlices = s.spareSlices := rfl
@[simp] theorem State.setBar_lanesUsed (s : State) (fn off : Nat) (w : Word) : (s.setBar fn off w).lanesUsed = s.lanesUsed := rfl
@[simp] theorem State.setBar_retiredPages (s : State) (fn off : Nat) (w : Word) : (s.setBar fn off w).retiredPages = s.retiredPages := rfl
@[simp] theorem State.setBar_bars (s : State) (fn off : Nat) (w : Word) : (s.setBar fn off w).bars = s.bars := rfl
@[simp] theorem State.setBar_barHeld (s : State) (fn off : Nat) (w : Word) : (s.setBar fn off w).barHeld = s.barHeld := rfl
@[simp] theorem State.setBar_groups (s : State) (fn off : Nat) (w : Word) : (s.setBar fn off w).groups = s.groups := rfl
@[simp] theorem State.setBar_launches (s : State) (fn off : Nat) (w : Word) : (s.setBar fn off w).launches = s.launches := rfl
@[simp] theorem State.setBar_posts (s : State) (fn off : Nat) (w : Word) : (s.setBar fn off w).posts = s.posts := rfl
@[simp] theorem State.setBar_kept (s : State) (fn off : Nat) (w : Word) : (s.setBar fn off w).kept = s.kept := rfl
@[simp] theorem State.setBar_posted (s : State) (fn off : Nat) (w : Word) : (s.setBar fn off w).posted = s.posted := rfl
@[simp] theorem State.setBar_cancels (s : State) (fn off : Nat) (w : Word) : (s.setBar fn off w).cancels = s.cancels := rfl
@[simp] theorem State.setBar_cancelQ (s : State) (fn off : Nat) (w : Word) : (s.setBar fn off w).cancelQ = s.cancelQ := rfl
@[simp] theorem State.setBar_preempted (s : State) (fn off : Nat) (w : Word) : (s.setBar fn off w).preempted = s.preempted := rfl
@[simp] theorem State.setBar_images (s : State) (fn off : Nat) (w : Word) : (s.setBar fn off w).images = s.images := rfl
@[simp] theorem State.setBar_enqs (s : State) (fn off : Nat) (w : Word) : (s.setBar fn off w).enqs = s.enqs := rfl
@[simp] theorem State.setBar_reserved (s : State) (fn off : Nat) (w : Word) : (s.setBar fn off w).reserved = s.reserved := rfl
@[simp] theorem State.setBar_faultLog (s : State) (fn off : Nat) (w : Word) : (s.setBar fn off w).faultLog = s.faultLog := rfl
@[simp] theorem State.setBar_faultRings (s : State) (fn off : Nat) (w : Word) : (s.setBar fn off w).faultRings = s.faultRings := rfl
@[simp] theorem State.setBar_logged (s : State) (fn off : Nat) (w : Word) : (s.setBar fn off w).logged = s.logged := rfl
@[simp] theorem State.setBar_trace (s : State) (fn off : Nat) (w : Word) : (s.setBar fn off w).trace = s.trace := rfl
@[simp] theorem State.setBar_msi (s : State) (fn off : Nat) (w : Word) : (s.setBar fn off w).msi = s.msi := rfl
@[simp] theorem State.setBar_mgmt (s : State) (fn off : Nat) (w : Word) : (s.setBar fn off w).mgmt = s.mgmt := rfl
@[simp] theorem State.setBar_boot (s : State) (fn off : Nat) (w : Word) : (s.setBar fn off w).boot = s.boot := rfl
@[simp] theorem State.setBar_inReset (s : State) (fn off : Nat) (w : Word) : (s.setBar fn off w).inReset = s.inReset := rfl
@[simp] theorem State.setBar_frozen (s : State) (fn off : Nat) (w : Word) : (s.setBar fn off w).frozen = s.frozen := rfl
@[simp] theorem State.setBar_hostRead (s : State) (fn off : Nat) (w : Word) : (s.setBar fn off w).hostRead = s.hostRead := rfl
@[simp] theorem State.setBar_flrFn (s : State) (fn off : Nat) (w : Word) : (s.setBar fn off w).flrFn = s.flrFn := rfl
@[simp] theorem State.setBar_throttled (s : State) (fn off : Nat) (w : Word) : (s.setBar fn off w).throttled = s.throttled := rfl
@[simp] theorem State.setBar_hot (s : State) (fn off : Nat) (w : Word) : (s.setBar fn off w).hot = s.hot := rfl
@[simp] theorem State.setBar_cmpSaved (s : State) (fn off : Nat) (w : Word) : (s.setBar fn off w).cmpSaved = s.cmpSaved := rfl
@[simp] theorem State.setBar_corrected (s : State) (fn off : Nat) (w : Word) : (s.setBar fn off w).corrected = s.corrected := rfl
@[simp] theorem State.setBar_cmpKeys (s : State) (fn off : Nat) (w : Word) : (s.setBar fn off w).cmpKeys = s.cmpKeys := rfl
@[simp] theorem State.setBar_peers (s : State) (fn off : Nat) (w : Word) : (s.setBar fn off w).peers = s.peers := rfl
@[simp] theorem State.setBar_lpRun (s : State) (fn off : Nat) (w : Word) : (s.setBar fn off w).lpRun = s.lpRun := rfl
@[simp] theorem State.setBar_snap (s : State) (fn off : Nat) (w : Word) : (s.setBar fn off w).snap = s.snap := rfl

/-! ### modSeg -/

@[simp] theorem State.modSeg_agenda (s : State) (i : BitVec 2) (n : BitVec 16) (f : SegEntry → SegEntry) : (s.modSeg i n f).agenda = s.agenda := rfl
@[simp] theorem State.modSeg_mark (s : State) (i : BitVec 2) (n : BitVec 16) (f : SegEntry → SegEntry) : (s.modSeg i n f).mark = s.mark := rfl
@[simp] theorem State.modSeg_core (s : State) (i : BitVec 2) (n : BitVec 16) (f : SegEntry → SegEntry) : (s.modSeg i n f).core = s.core := rfl
@[simp] theorem State.modSeg_phys (s : State) (i : BitVec 2) (n : BitVec 16) (f : SegEntry → SegEntry) : (s.modSeg i n f).phys = s.phys := rfl
@[simp] theorem State.modSeg_online (s : State) (i : BitVec 2) (n : BitVec 16) (f : SegEntry → SegEntry) : (s.modSeg i n f).online = s.online := rfl
@[simp] theorem State.modSeg_cur (s : State) (i : BitVec 2) (n : BitVec 16) (f : SegEntry → SegEntry) : (s.modSeg i n f).cur = s.cur := rfl
@[simp] theorem State.modSeg_ctx (s : State) (i : BitVec 2) (n : BitVec 16) (f : SegEntry → SegEntry) : (s.modSeg i n f).ctx = s.ctx := rfl
@[simp] theorem State.modSeg_others (s : State) (i : BitVec 2) (n : BitVec 16) (f : SegEntry → SegEntry) : (s.modSeg i n f).others = s.others := rfl
@[simp] theorem State.modSeg_lastJob (s : State) (i : BitVec 2) (n : BitVec 16) (f : SegEntry → SegEntry) : (s.modSeg i n f).lastJob = s.lastJob := rfl
@[simp] theorem State.modSeg_v (s : State) (i : BitVec 2) (n : BitVec 16) (f : SegEntry → SegEntry) : (s.modSeg i n f).v = s.v := rfl
@[simp] theorem State.modSeg_vPoison (s : State) (i : BitVec 2) (n : BitVec 16) (f : SegEntry → SegEntry) : (s.modSeg i n f).vPoison = s.vPoison := rfl
@[simp] theorem State.modSeg_latch (s : State) (i : BitVec 2) (n : BitVec 16) (f : SegEntry → SegEntry) : (s.modSeg i n f).latch = s.latch := rfl
@[simp] theorem State.modSeg_m (s : State) (i : BitVec 2) (n : BitVec 16) (f : SegEntry → SegEntry) : (s.modSeg i n f).m = s.m := rfl
@[simp] theorem State.modSeg_mscale (s : State) (i : BitVec 2) (n : BitVec 16) (f : SegEntry → SegEntry) : (s.modSeg i n f).mscale = s.mscale := rfl
@[simp] theorem State.modSeg_mPoison (s : State) (i : BitVec 2) (n : BitVec 16) (f : SegEntry → SegEntry) : (s.modSeg i n f).mPoison = s.mPoison := rfl
@[simp] theorem State.modSeg_pushArea (s : State) (i : BitVec 2) (n : BitVec 16) (f : SegEntry → SegEntry) : (s.modSeg i n f).pushArea = s.pushArea := rfl
@[simp] theorem State.modSeg_sw (s : State) (i : BitVec 2) (n : BitVec 16) (f : SegEntry → SegEntry) : (s.modSeg i n f).sw = s.sw := rfl
@[simp] theorem State.modSeg_deckMove (s : State) (i : BitVec 2) (n : BitVec 16) (f : SegEntry → SegEntry) : (s.modSeg i n f).deckMove = s.deckMove := rfl
@[simp] theorem State.modSeg_rcl (s : State) (i : BitVec 2) (n : BitVec 16) (f : SegEntry → SegEntry) : (s.modSeg i n f).rcl = s.rcl := rfl
@[simp] theorem State.modSeg_rclLast (s : State) (i : BitVec 2) (n : BitVec 16) (f : SegEntry → SegEntry) : (s.modSeg i n f).rclLast = s.rclLast := rfl
@[simp] theorem State.modSeg_smp (s : State) (i : BitVec 2) (n : BitVec 16) (f : SegEntry → SegEntry) : (s.modSeg i n f).smp = s.smp := rfl
@[simp] theorem State.modSeg_smpLast (s : State) (i : BitVec 2) (n : BitVec 16) (f : SegEntry → SegEntry) : (s.modSeg i n f).smpLast = s.smpLast := rfl
@[simp] theorem State.modSeg_ghosts (s : State) (i : BitVec 2) (n : BitVec 16) (f : SegEntry → SegEntry) : (s.modSeg i n f).ghosts = s.ghosts := rfl
@[simp] theorem State.modSeg_l1 (s : State) (i : BitVec 2) (n : BitVec 16) (f : SegEntry → SegEntry) : (s.modSeg i n f).l1 = s.l1 := rfl
@[simp] theorem State.modSeg_tlb (s : State) (i : BitVec 2) (n : BitVec 16) (f : SegEntry → SegEntry) : (s.modSeg i n f).tlb = s.tlb := rfl
@[simp] theorem State.modSeg_dict (s : State) (i : BitVec 2) (n : BitVec 16) (f : SegEntry → SegEntry) : (s.modSeg i n f).dict = s.dict := rfl
@[simp] theorem State.modSeg_dictRuns (s : State) (i : BitVec 2) (n : BitVec 16) (f : SegEntry → SegEntry) : (s.modSeg i n f).dictRuns = s.dictRuns := rfl
@[simp] theorem State.modSeg_loopBuf (s : State) (i : BitVec 2) (n : BitVec 16) (f : SegEntry → SegEntry) : (s.modSeg i n f).loopBuf = s.loopBuf := rfl
@[simp] theorem State.modSeg_reqs (s : State) (i : BitVec 2) (n : BitVec 16) (f : SegEntry → SegEntry) : (s.modSeg i n f).reqs = s.reqs := rfl
@[simp] theorem State.modSeg_streams (s : State) (i : BitVec 2) (n : BitVec 16) (f : SegEntry → SegEntry) : (s.modSeg i n f).streams = s.streams := rfl
@[simp] theorem State.modSeg_copies (s : State) (i : BitVec 2) (n : BitVec 16) (f : SegEntry → SegEntry) : (s.modSeg i n f).copies = s.copies := rfl
@[simp] theorem State.modSeg_staging (s : State) (i : BitVec 2) (n : BitVec 16) (f : SegEntry → SegEntry) : (s.modSeg i n f).staging = s.staging := rfl
@[simp] theorem State.modSeg_grants (s : State) (i : BitVec 2) (n : BitVec 16) (f : SegEntry → SegEntry) : (s.modSeg i n f).grants = s.grants := rfl
@[simp] theorem State.modSeg_copyTurn (s : State) (i : BitVec 2) (n : BitVec 16) (f : SegEntry → SegEntry) : (s.modSeg i n f).copyTurn = s.copyTurn := rfl
@[simp] theorem State.modSeg_zstores (s : State) (i : BitVec 2) (n : BitVec 16) (f : SegEntry → SegEntry) : (s.modSeg i n f).zstores = s.zstores := rfl
@[simp] theorem State.modSeg_arrayBusy (s : State) (i : BitVec 2) (n : BitVec 16) (f : SegEntry → SegEntry) : (s.modSeg i n f).arrayBusy = s.arrayBusy := rfl
@[simp] theorem State.modSeg_phase (s : State) (i : BitVec 2) (n : BitVec 16) (f : SegEntry → SegEntry) : (s.modSeg i n f).phase = s.phase := rfl
@[simp] theorem State.modSeg_mesh (s : State) (i : BitVec 2) (n : BitVec 16) (f : SegEntry → SegEntry) : (s.modSeg i n f).mesh = s.mesh := rfl
@[simp] theorem State.modSeg_meshWords (s : State) (i : BitVec 2) (n : BitVec 16) (f : SegEntry → SegEntry) : (s.modSeg i n f).meshWords = s.meshWords := rfl
@[simp] theorem State.modSeg_phaseFirst (s : State) (i : BitVec 2) (n : BitVec 16) (f : SegEntry → SegEntry) : (s.modSeg i n f).phaseFirst = s.phaseFirst := rfl
@[simp] theorem State.modSeg_fresh (s : State) (i : BitVec 2) (n : BitVec 16) (f : SegEntry → SegEntry) : (s.modSeg i n f).fresh = s.fresh := rfl
@[simp] theorem State.modSeg_mem (s : State) (i : BitVec 2) (n : BitVec 16) (f : SegEntry → SegEntry) : (s.modSeg i n f).mem = s.mem := rfl
@[simp] theorem State.modSeg_memPoison (s : State) (i : BitVec 2) (n : BitVec 16) (f : SegEntry → SegEntry) : (s.modSeg i n f).memPoison = s.memPoison := rfl
@[simp] theorem State.modSeg_tcache (s : State) (i : BitVec 2) (n : BitVec 16) (f : SegEntry → SegEntry) : (s.modSeg i n f).tcache = s.tcache := rfl
@[simp] theorem State.modSeg_pages (s : State) (i : BitVec 2) (n : BitVec 16) (f : SegEntry → SegEntry) : (s.modSeg i n f).pages = s.pages := rfl
@[simp] theorem State.modSeg_misses (s : State) (i : BitVec 2) (n : BitVec 16) (f : SegEntry → SegEntry) : (s.modSeg i n f).misses = s.misses := rfl
@[simp] theorem State.modSeg_inval (s : State) (i : BitVec 2) (n : BitVec 16) (f : SegEntry → SegEntry) : (s.modSeg i n f).inval = s.inval := rfl
@[simp] theorem State.modSeg_flitLost (s : State) (i : BitVec 2) (n : BitVec 16) (f : SegEntry → SegEntry) : (s.modSeg i n f).flitLost = s.flitLost := rfl
@[simp] theorem State.modSeg_parked (s : State) (i : BitVec 2) (n : BitVec 16) (f : SegEntry → SegEntry) : (s.modSeg i n f).parked = s.parked := rfl
@[simp] theorem State.modSeg_mapCache (s : State) (i : BitVec 2) (n : BitVec 16) (f : SegEntry → SegEntry) : (s.modSeg i n f).mapCache = s.mapCache := rfl
@[simp] theorem State.modSeg_bound (s : State) (i : BitVec 2) (n : BitVec 16) (f : SegEntry → SegEntry) : (s.modSeg i n f).bound = s.bound := rfl
@[simp] theorem State.modSeg_sysRoot (s : State) (i : BitVec 2) (n : BitVec 16) (f : SegEntry → SegEntry) : (s.modSeg i n f).sysRoot = s.sysRoot := rfl
@[simp] theorem State.modSeg_ns (s : State) (i : BitVec 2) (n : BitVec 16) (f : SegEntry → SegEntry) : (s.modSeg i n f).ns = s.ns := rfl
@[simp] theorem State.modSeg_nsCount (s : State) (i : BitVec 2) (n : BitVec 16) (f : SegEntry → SegEntry) : (s.modSeg i n f).nsCount = s.nsCount := rfl
@[simp] theorem State.modSeg_nsOff (s : State) (i : BitVec 2) (n : BitVec 16) (f : SegEntry → SegEntry) : (s.modSeg i n f).nsOff = s.nsOff := rfl
@[simp] theorem State.modSeg_hbmOff (s : State) (i : BitVec 2) (n : BitVec 16) (f : SegEntry → SegEntry) : (s.modSeg i n f).hbmOff = s.hbmOff := rfl
@[simp] theorem State.modSeg_hbmSleep (s : State) (i : BitVec 2) (n : BitVec 16) (f : SegEntry → SegEntry) : (s.modSeg i n f).hbmSleep = s.hbmSleep := rfl
@[simp] theorem State.modSeg_l2 (s : State) (i : BitVec 2) (n : BitVec 16) (f : SegEntry → SegEntry) : (s.modSeg i n f).l2 = s.l2 := rfl
@[simp] theorem State.modSeg_l2Version (s : State) (i : BitVec 2) (n : BitVec 16) (f : SegEntry → SegEntry) : (s.modSeg i n f).l2Version = s.l2Version := rfl
@[simp] theorem State.modSeg_l2Watches (s : State) (i : BitVec 2) (n : BitVec 16) (f : SegEntry → SegEntry) : (s.modSeg i n f).l2Watches = s.l2Watches := rfl
@[simp] theorem State.modSeg_sliceOut (s : State) (i : BitVec 2) (n : BitVec 16) (f : SegEntry → SegEntry) : (s.modSeg i n f).sliceOut = s.sliceOut := rfl
@[simp] theorem State.modSeg_coreOut (s : State) (i : BitVec 2) (n : BitVec 16) (f : SegEntry → SegEntry) : (s.modSeg i n f).coreOut = s.coreOut := rfl
@[simp] theorem State.modSeg_spareCores (s : State) (i : BitVec 2) (n : BitVec 16) (f : SegEntry → SegEntry) : (s.modSeg i n f).spareCores = s.spareCores := rfl
@[simp] theorem State.modSeg_spareSlices (s : State) (i : BitVec 2) (n : BitVec 16) (f : SegEntry → SegEntry) : (s.modSeg i n f).spareSlices = s.spareSlices := rfl
@[simp] theorem State.modSeg_lanesUsed (s : State) (i : BitVec 2) (n : BitVec 16) (f : SegEntry → SegEntry) : (s.modSeg i n f).lanesUsed = s.lanesUsed := rfl
@[simp] theorem State.modSeg_retiredPages (s : State) (i : BitVec 2) (n : BitVec 16) (f : SegEntry → SegEntry) : (s.modSeg i n f).retiredPages = s.retiredPages := rfl
@[simp] theorem State.modSeg_bars (s : State) (i : BitVec 2) (n : BitVec 16) (f : SegEntry → SegEntry) : (s.modSeg i n f).bars = s.bars := rfl
@[simp] theorem State.modSeg_barHeld (s : State) (i : BitVec 2) (n : BitVec 16) (f : SegEntry → SegEntry) : (s.modSeg i n f).barHeld = s.barHeld := rfl
@[simp] theorem State.modSeg_groups (s : State) (i : BitVec 2) (n : BitVec 16) (f : SegEntry → SegEntry) : (s.modSeg i n f).groups = s.groups := rfl
@[simp] theorem State.modSeg_launches (s : State) (i : BitVec 2) (n : BitVec 16) (f : SegEntry → SegEntry) : (s.modSeg i n f).launches = s.launches := rfl
@[simp] theorem State.modSeg_posts (s : State) (i : BitVec 2) (n : BitVec 16) (f : SegEntry → SegEntry) : (s.modSeg i n f).posts = s.posts := rfl
@[simp] theorem State.modSeg_kept (s : State) (i : BitVec 2) (n : BitVec 16) (f : SegEntry → SegEntry) : (s.modSeg i n f).kept = s.kept := rfl
@[simp] theorem State.modSeg_posted (s : State) (i : BitVec 2) (n : BitVec 16) (f : SegEntry → SegEntry) : (s.modSeg i n f).posted = s.posted := rfl
@[simp] theorem State.modSeg_cancels (s : State) (i : BitVec 2) (n : BitVec 16) (f : SegEntry → SegEntry) : (s.modSeg i n f).cancels = s.cancels := rfl
@[simp] theorem State.modSeg_cancelQ (s : State) (i : BitVec 2) (n : BitVec 16) (f : SegEntry → SegEntry) : (s.modSeg i n f).cancelQ = s.cancelQ := rfl
@[simp] theorem State.modSeg_preempted (s : State) (i : BitVec 2) (n : BitVec 16) (f : SegEntry → SegEntry) : (s.modSeg i n f).preempted = s.preempted := rfl
@[simp] theorem State.modSeg_images (s : State) (i : BitVec 2) (n : BitVec 16) (f : SegEntry → SegEntry) : (s.modSeg i n f).images = s.images := rfl
@[simp] theorem State.modSeg_enqs (s : State) (i : BitVec 2) (n : BitVec 16) (f : SegEntry → SegEntry) : (s.modSeg i n f).enqs = s.enqs := rfl
@[simp] theorem State.modSeg_reserved (s : State) (i : BitVec 2) (n : BitVec 16) (f : SegEntry → SegEntry) : (s.modSeg i n f).reserved = s.reserved := rfl
@[simp] theorem State.modSeg_faultLog (s : State) (i : BitVec 2) (n : BitVec 16) (f : SegEntry → SegEntry) : (s.modSeg i n f).faultLog = s.faultLog := rfl
@[simp] theorem State.modSeg_faultRings (s : State) (i : BitVec 2) (n : BitVec 16) (f : SegEntry → SegEntry) : (s.modSeg i n f).faultRings = s.faultRings := rfl
@[simp] theorem State.modSeg_logged (s : State) (i : BitVec 2) (n : BitVec 16) (f : SegEntry → SegEntry) : (s.modSeg i n f).logged = s.logged := rfl
@[simp] theorem State.modSeg_trace (s : State) (i : BitVec 2) (n : BitVec 16) (f : SegEntry → SegEntry) : (s.modSeg i n f).trace = s.trace := rfl
@[simp] theorem State.modSeg_msi (s : State) (i : BitVec 2) (n : BitVec 16) (f : SegEntry → SegEntry) : (s.modSeg i n f).msi = s.msi := rfl
@[simp] theorem State.modSeg_mgmt (s : State) (i : BitVec 2) (n : BitVec 16) (f : SegEntry → SegEntry) : (s.modSeg i n f).mgmt = s.mgmt := rfl
@[simp] theorem State.modSeg_bar0 (s : State) (i : BitVec 2) (n : BitVec 16) (f : SegEntry → SegEntry) : (s.modSeg i n f).bar0 = s.bar0 := rfl
@[simp] theorem State.modSeg_boot (s : State) (i : BitVec 2) (n : BitVec 16) (f : SegEntry → SegEntry) : (s.modSeg i n f).boot = s.boot := rfl
@[simp] theorem State.modSeg_inReset (s : State) (i : BitVec 2) (n : BitVec 16) (f : SegEntry → SegEntry) : (s.modSeg i n f).inReset = s.inReset := rfl
@[simp] theorem State.modSeg_frozen (s : State) (i : BitVec 2) (n : BitVec 16) (f : SegEntry → SegEntry) : (s.modSeg i n f).frozen = s.frozen := rfl
@[simp] theorem State.modSeg_hostRead (s : State) (i : BitVec 2) (n : BitVec 16) (f : SegEntry → SegEntry) : (s.modSeg i n f).hostRead = s.hostRead := rfl
@[simp] theorem State.modSeg_flrFn (s : State) (i : BitVec 2) (n : BitVec 16) (f : SegEntry → SegEntry) : (s.modSeg i n f).flrFn = s.flrFn := rfl
@[simp] theorem State.modSeg_throttled (s : State) (i : BitVec 2) (n : BitVec 16) (f : SegEntry → SegEntry) : (s.modSeg i n f).throttled = s.throttled := rfl
@[simp] theorem State.modSeg_hot (s : State) (i : BitVec 2) (n : BitVec 16) (f : SegEntry → SegEntry) : (s.modSeg i n f).hot = s.hot := rfl
@[simp] theorem State.modSeg_cmpSaved (s : State) (i : BitVec 2) (n : BitVec 16) (f : SegEntry → SegEntry) : (s.modSeg i n f).cmpSaved = s.cmpSaved := rfl
@[simp] theorem State.modSeg_corrected (s : State) (i : BitVec 2) (n : BitVec 16) (f : SegEntry → SegEntry) : (s.modSeg i n f).corrected = s.corrected := rfl
@[simp] theorem State.modSeg_cmpKeys (s : State) (i : BitVec 2) (n : BitVec 16) (f : SegEntry → SegEntry) : (s.modSeg i n f).cmpKeys = s.cmpKeys := rfl
@[simp] theorem State.modSeg_peers (s : State) (i : BitVec 2) (n : BitVec 16) (f : SegEntry → SegEntry) : (s.modSeg i n f).peers = s.peers := rfl
@[simp] theorem State.modSeg_lpRun (s : State) (i : BitVec 2) (n : BitVec 16) (f : SegEntry → SegEntry) : (s.modSeg i n f).lpRun = s.lpRun := rfl
@[simp] theorem State.modSeg_snap (s : State) (i : BitVec 2) (n : BitVec 16) (f : SegEntry → SegEntry) : (s.modSeg i n f).snap = s.snap := rfl

/-! ### freeSeg -/

@[simp] theorem State.freeSeg_agenda (s : State) (i : BitVec 2) (n : BitVec 16) : (s.freeSeg i n).agenda = s.agenda := rfl
@[simp] theorem State.freeSeg_mark (s : State) (i : BitVec 2) (n : BitVec 16) : (s.freeSeg i n).mark = s.mark := rfl
@[simp] theorem State.freeSeg_core (s : State) (i : BitVec 2) (n : BitVec 16) : (s.freeSeg i n).core = s.core := rfl
@[simp] theorem State.freeSeg_phys (s : State) (i : BitVec 2) (n : BitVec 16) : (s.freeSeg i n).phys = s.phys := rfl
@[simp] theorem State.freeSeg_online (s : State) (i : BitVec 2) (n : BitVec 16) : (s.freeSeg i n).online = s.online := rfl
@[simp] theorem State.freeSeg_cur (s : State) (i : BitVec 2) (n : BitVec 16) : (s.freeSeg i n).cur = s.cur := rfl
@[simp] theorem State.freeSeg_ctx (s : State) (i : BitVec 2) (n : BitVec 16) : (s.freeSeg i n).ctx = s.ctx := rfl
@[simp] theorem State.freeSeg_others (s : State) (i : BitVec 2) (n : BitVec 16) : (s.freeSeg i n).others = s.others := rfl
@[simp] theorem State.freeSeg_lastJob (s : State) (i : BitVec 2) (n : BitVec 16) : (s.freeSeg i n).lastJob = s.lastJob := rfl
@[simp] theorem State.freeSeg_v (s : State) (i : BitVec 2) (n : BitVec 16) : (s.freeSeg i n).v = s.v := rfl
@[simp] theorem State.freeSeg_vPoison (s : State) (i : BitVec 2) (n : BitVec 16) : (s.freeSeg i n).vPoison = s.vPoison := rfl
@[simp] theorem State.freeSeg_latch (s : State) (i : BitVec 2) (n : BitVec 16) : (s.freeSeg i n).latch = s.latch := rfl
@[simp] theorem State.freeSeg_m (s : State) (i : BitVec 2) (n : BitVec 16) : (s.freeSeg i n).m = s.m := rfl
@[simp] theorem State.freeSeg_mscale (s : State) (i : BitVec 2) (n : BitVec 16) : (s.freeSeg i n).mscale = s.mscale := rfl
@[simp] theorem State.freeSeg_mPoison (s : State) (i : BitVec 2) (n : BitVec 16) : (s.freeSeg i n).mPoison = s.mPoison := rfl
@[simp] theorem State.freeSeg_pushArea (s : State) (i : BitVec 2) (n : BitVec 16) : (s.freeSeg i n).pushArea = s.pushArea := rfl
@[simp] theorem State.freeSeg_sw (s : State) (i : BitVec 2) (n : BitVec 16) : (s.freeSeg i n).sw = s.sw := rfl
@[simp] theorem State.freeSeg_deckMove (s : State) (i : BitVec 2) (n : BitVec 16) : (s.freeSeg i n).deckMove = s.deckMove := rfl
@[simp] theorem State.freeSeg_rcl (s : State) (i : BitVec 2) (n : BitVec 16) : (s.freeSeg i n).rcl = s.rcl := rfl
@[simp] theorem State.freeSeg_rclLast (s : State) (i : BitVec 2) (n : BitVec 16) : (s.freeSeg i n).rclLast = s.rclLast := rfl
@[simp] theorem State.freeSeg_smp (s : State) (i : BitVec 2) (n : BitVec 16) : (s.freeSeg i n).smp = s.smp := rfl
@[simp] theorem State.freeSeg_smpLast (s : State) (i : BitVec 2) (n : BitVec 16) : (s.freeSeg i n).smpLast = s.smpLast := rfl
@[simp] theorem State.freeSeg_ghosts (s : State) (i : BitVec 2) (n : BitVec 16) : (s.freeSeg i n).ghosts = s.ghosts := rfl
@[simp] theorem State.freeSeg_l1 (s : State) (i : BitVec 2) (n : BitVec 16) : (s.freeSeg i n).l1 = s.l1 := rfl
@[simp] theorem State.freeSeg_tlb (s : State) (i : BitVec 2) (n : BitVec 16) : (s.freeSeg i n).tlb = s.tlb := rfl
@[simp] theorem State.freeSeg_dict (s : State) (i : BitVec 2) (n : BitVec 16) : (s.freeSeg i n).dict = s.dict := rfl
@[simp] theorem State.freeSeg_dictRuns (s : State) (i : BitVec 2) (n : BitVec 16) : (s.freeSeg i n).dictRuns = s.dictRuns := rfl
@[simp] theorem State.freeSeg_loopBuf (s : State) (i : BitVec 2) (n : BitVec 16) : (s.freeSeg i n).loopBuf = s.loopBuf := rfl
@[simp] theorem State.freeSeg_reqs (s : State) (i : BitVec 2) (n : BitVec 16) : (s.freeSeg i n).reqs = s.reqs := rfl
@[simp] theorem State.freeSeg_streams (s : State) (i : BitVec 2) (n : BitVec 16) : (s.freeSeg i n).streams = s.streams := rfl
@[simp] theorem State.freeSeg_copies (s : State) (i : BitVec 2) (n : BitVec 16) : (s.freeSeg i n).copies = s.copies := rfl
@[simp] theorem State.freeSeg_staging (s : State) (i : BitVec 2) (n : BitVec 16) : (s.freeSeg i n).staging = s.staging := rfl
@[simp] theorem State.freeSeg_grants (s : State) (i : BitVec 2) (n : BitVec 16) : (s.freeSeg i n).grants = s.grants := rfl
@[simp] theorem State.freeSeg_copyTurn (s : State) (i : BitVec 2) (n : BitVec 16) : (s.freeSeg i n).copyTurn = s.copyTurn := rfl
@[simp] theorem State.freeSeg_zstores (s : State) (i : BitVec 2) (n : BitVec 16) : (s.freeSeg i n).zstores = s.zstores := rfl
@[simp] theorem State.freeSeg_arrayBusy (s : State) (i : BitVec 2) (n : BitVec 16) : (s.freeSeg i n).arrayBusy = s.arrayBusy := rfl
@[simp] theorem State.freeSeg_phase (s : State) (i : BitVec 2) (n : BitVec 16) : (s.freeSeg i n).phase = s.phase := rfl
@[simp] theorem State.freeSeg_mesh (s : State) (i : BitVec 2) (n : BitVec 16) : (s.freeSeg i n).mesh = s.mesh := rfl
@[simp] theorem State.freeSeg_meshWords (s : State) (i : BitVec 2) (n : BitVec 16) : (s.freeSeg i n).meshWords = s.meshWords := rfl
@[simp] theorem State.freeSeg_phaseFirst (s : State) (i : BitVec 2) (n : BitVec 16) : (s.freeSeg i n).phaseFirst = s.phaseFirst := rfl
@[simp] theorem State.freeSeg_fresh (s : State) (i : BitVec 2) (n : BitVec 16) : (s.freeSeg i n).fresh = s.fresh := rfl
@[simp] theorem State.freeSeg_mem (s : State) (i : BitVec 2) (n : BitVec 16) : (s.freeSeg i n).mem = s.mem := rfl
@[simp] theorem State.freeSeg_memPoison (s : State) (i : BitVec 2) (n : BitVec 16) : (s.freeSeg i n).memPoison = s.memPoison := rfl
@[simp] theorem State.freeSeg_tcache (s : State) (i : BitVec 2) (n : BitVec 16) : (s.freeSeg i n).tcache = s.tcache := rfl
@[simp] theorem State.freeSeg_pages (s : State) (i : BitVec 2) (n : BitVec 16) : (s.freeSeg i n).pages = s.pages := rfl
@[simp] theorem State.freeSeg_misses (s : State) (i : BitVec 2) (n : BitVec 16) : (s.freeSeg i n).misses = s.misses := rfl
@[simp] theorem State.freeSeg_inval (s : State) (i : BitVec 2) (n : BitVec 16) : (s.freeSeg i n).inval = s.inval := rfl
@[simp] theorem State.freeSeg_flitLost (s : State) (i : BitVec 2) (n : BitVec 16) : (s.freeSeg i n).flitLost = s.flitLost := rfl
@[simp] theorem State.freeSeg_parked (s : State) (i : BitVec 2) (n : BitVec 16) : (s.freeSeg i n).parked = s.parked := rfl
@[simp] theorem State.freeSeg_mapCache (s : State) (i : BitVec 2) (n : BitVec 16) : (s.freeSeg i n).mapCache = s.mapCache := rfl
@[simp] theorem State.freeSeg_bound (s : State) (i : BitVec 2) (n : BitVec 16) : (s.freeSeg i n).bound = s.bound := rfl
@[simp] theorem State.freeSeg_sysRoot (s : State) (i : BitVec 2) (n : BitVec 16) : (s.freeSeg i n).sysRoot = s.sysRoot := rfl
@[simp] theorem State.freeSeg_ns (s : State) (i : BitVec 2) (n : BitVec 16) : (s.freeSeg i n).ns = s.ns := rfl
@[simp] theorem State.freeSeg_nsCount (s : State) (i : BitVec 2) (n : BitVec 16) : (s.freeSeg i n).nsCount = s.nsCount := rfl
@[simp] theorem State.freeSeg_nsOff (s : State) (i : BitVec 2) (n : BitVec 16) : (s.freeSeg i n).nsOff = s.nsOff := rfl
@[simp] theorem State.freeSeg_hbmOff (s : State) (i : BitVec 2) (n : BitVec 16) : (s.freeSeg i n).hbmOff = s.hbmOff := rfl
@[simp] theorem State.freeSeg_hbmSleep (s : State) (i : BitVec 2) (n : BitVec 16) : (s.freeSeg i n).hbmSleep = s.hbmSleep := rfl
@[simp] theorem State.freeSeg_l2 (s : State) (i : BitVec 2) (n : BitVec 16) : (s.freeSeg i n).l2 = s.l2 := rfl
@[simp] theorem State.freeSeg_l2Version (s : State) (i : BitVec 2) (n : BitVec 16) : (s.freeSeg i n).l2Version = s.l2Version := rfl
@[simp] theorem State.freeSeg_l2Watches (s : State) (i : BitVec 2) (n : BitVec 16) : (s.freeSeg i n).l2Watches = s.l2Watches := rfl
@[simp] theorem State.freeSeg_sliceOut (s : State) (i : BitVec 2) (n : BitVec 16) : (s.freeSeg i n).sliceOut = s.sliceOut := rfl
@[simp] theorem State.freeSeg_coreOut (s : State) (i : BitVec 2) (n : BitVec 16) : (s.freeSeg i n).coreOut = s.coreOut := rfl
@[simp] theorem State.freeSeg_spareCores (s : State) (i : BitVec 2) (n : BitVec 16) : (s.freeSeg i n).spareCores = s.spareCores := rfl
@[simp] theorem State.freeSeg_spareSlices (s : State) (i : BitVec 2) (n : BitVec 16) : (s.freeSeg i n).spareSlices = s.spareSlices := rfl
@[simp] theorem State.freeSeg_lanesUsed (s : State) (i : BitVec 2) (n : BitVec 16) : (s.freeSeg i n).lanesUsed = s.lanesUsed := rfl
@[simp] theorem State.freeSeg_retiredPages (s : State) (i : BitVec 2) (n : BitVec 16) : (s.freeSeg i n).retiredPages = s.retiredPages := rfl
@[simp] theorem State.freeSeg_bars (s : State) (i : BitVec 2) (n : BitVec 16) : (s.freeSeg i n).bars = s.bars := rfl
@[simp] theorem State.freeSeg_barHeld (s : State) (i : BitVec 2) (n : BitVec 16) : (s.freeSeg i n).barHeld = s.barHeld := rfl
@[simp] theorem State.freeSeg_groups (s : State) (i : BitVec 2) (n : BitVec 16) : (s.freeSeg i n).groups = s.groups := rfl
@[simp] theorem State.freeSeg_launches (s : State) (i : BitVec 2) (n : BitVec 16) : (s.freeSeg i n).launches = s.launches := rfl
@[simp] theorem State.freeSeg_posts (s : State) (i : BitVec 2) (n : BitVec 16) : (s.freeSeg i n).posts = s.posts := rfl
@[simp] theorem State.freeSeg_kept (s : State) (i : BitVec 2) (n : BitVec 16) : (s.freeSeg i n).kept = s.kept := rfl
@[simp] theorem State.freeSeg_posted (s : State) (i : BitVec 2) (n : BitVec 16) : (s.freeSeg i n).posted = s.posted := rfl
@[simp] theorem State.freeSeg_cancels (s : State) (i : BitVec 2) (n : BitVec 16) : (s.freeSeg i n).cancels = s.cancels := rfl
@[simp] theorem State.freeSeg_cancelQ (s : State) (i : BitVec 2) (n : BitVec 16) : (s.freeSeg i n).cancelQ = s.cancelQ := rfl
@[simp] theorem State.freeSeg_preempted (s : State) (i : BitVec 2) (n : BitVec 16) : (s.freeSeg i n).preempted = s.preempted := rfl
@[simp] theorem State.freeSeg_images (s : State) (i : BitVec 2) (n : BitVec 16) : (s.freeSeg i n).images = s.images := rfl
@[simp] theorem State.freeSeg_enqs (s : State) (i : BitVec 2) (n : BitVec 16) : (s.freeSeg i n).enqs = s.enqs := rfl
@[simp] theorem State.freeSeg_reserved (s : State) (i : BitVec 2) (n : BitVec 16) : (s.freeSeg i n).reserved = s.reserved := rfl
@[simp] theorem State.freeSeg_faultLog (s : State) (i : BitVec 2) (n : BitVec 16) : (s.freeSeg i n).faultLog = s.faultLog := rfl
@[simp] theorem State.freeSeg_faultRings (s : State) (i : BitVec 2) (n : BitVec 16) : (s.freeSeg i n).faultRings = s.faultRings := rfl
@[simp] theorem State.freeSeg_logged (s : State) (i : BitVec 2) (n : BitVec 16) : (s.freeSeg i n).logged = s.logged := rfl
@[simp] theorem State.freeSeg_trace (s : State) (i : BitVec 2) (n : BitVec 16) : (s.freeSeg i n).trace = s.trace := rfl
@[simp] theorem State.freeSeg_msi (s : State) (i : BitVec 2) (n : BitVec 16) : (s.freeSeg i n).msi = s.msi := rfl
@[simp] theorem State.freeSeg_mgmt (s : State) (i : BitVec 2) (n : BitVec 16) : (s.freeSeg i n).mgmt = s.mgmt := rfl
@[simp] theorem State.freeSeg_bar0 (s : State) (i : BitVec 2) (n : BitVec 16) : (s.freeSeg i n).bar0 = s.bar0 := rfl
@[simp] theorem State.freeSeg_boot (s : State) (i : BitVec 2) (n : BitVec 16) : (s.freeSeg i n).boot = s.boot := rfl
@[simp] theorem State.freeSeg_inReset (s : State) (i : BitVec 2) (n : BitVec 16) : (s.freeSeg i n).inReset = s.inReset := rfl
@[simp] theorem State.freeSeg_frozen (s : State) (i : BitVec 2) (n : BitVec 16) : (s.freeSeg i n).frozen = s.frozen := rfl
@[simp] theorem State.freeSeg_hostRead (s : State) (i : BitVec 2) (n : BitVec 16) : (s.freeSeg i n).hostRead = s.hostRead := rfl
@[simp] theorem State.freeSeg_flrFn (s : State) (i : BitVec 2) (n : BitVec 16) : (s.freeSeg i n).flrFn = s.flrFn := rfl
@[simp] theorem State.freeSeg_throttled (s : State) (i : BitVec 2) (n : BitVec 16) : (s.freeSeg i n).throttled = s.throttled := rfl
@[simp] theorem State.freeSeg_hot (s : State) (i : BitVec 2) (n : BitVec 16) : (s.freeSeg i n).hot = s.hot := rfl
@[simp] theorem State.freeSeg_cmpSaved (s : State) (i : BitVec 2) (n : BitVec 16) : (s.freeSeg i n).cmpSaved = s.cmpSaved := rfl
@[simp] theorem State.freeSeg_corrected (s : State) (i : BitVec 2) (n : BitVec 16) : (s.freeSeg i n).corrected = s.corrected := rfl
@[simp] theorem State.freeSeg_cmpKeys (s : State) (i : BitVec 2) (n : BitVec 16) : (s.freeSeg i n).cmpKeys = s.cmpKeys := rfl
@[simp] theorem State.freeSeg_peers (s : State) (i : BitVec 2) (n : BitVec 16) : (s.freeSeg i n).peers = s.peers := rfl
@[simp] theorem State.freeSeg_lpRun (s : State) (i : BitVec 2) (n : BitVec 16) : (s.freeSeg i n).lpRun = s.lpRun := rfl
@[simp] theorem State.freeSeg_snap (s : State) (i : BitVec 2) (n : BitVec 16) : (s.freeSeg i n).snap = s.snap := rfl

/-! ### dropReq -/

@[simp] theorem State.dropReq_agenda (s : State) (i : Nat) : (s.dropReq i).agenda = s.agenda := rfl
@[simp] theorem State.dropReq_mark (s : State) (i : Nat) : (s.dropReq i).mark = s.mark := rfl
@[simp] theorem State.dropReq_core (s : State) (i : Nat) : (s.dropReq i).core = s.core := rfl
@[simp] theorem State.dropReq_phys (s : State) (i : Nat) : (s.dropReq i).phys = s.phys := rfl
@[simp] theorem State.dropReq_online (s : State) (i : Nat) : (s.dropReq i).online = s.online := rfl
@[simp] theorem State.dropReq_cur (s : State) (i : Nat) : (s.dropReq i).cur = s.cur := rfl
@[simp] theorem State.dropReq_ctx (s : State) (i : Nat) : (s.dropReq i).ctx = s.ctx := rfl
@[simp] theorem State.dropReq_others (s : State) (i : Nat) : (s.dropReq i).others = s.others := rfl
@[simp] theorem State.dropReq_lastJob (s : State) (i : Nat) : (s.dropReq i).lastJob = s.lastJob := rfl
@[simp] theorem State.dropReq_v (s : State) (i : Nat) : (s.dropReq i).v = s.v := rfl
@[simp] theorem State.dropReq_vPoison (s : State) (i : Nat) : (s.dropReq i).vPoison = s.vPoison := rfl
@[simp] theorem State.dropReq_latch (s : State) (i : Nat) : (s.dropReq i).latch = s.latch := rfl
@[simp] theorem State.dropReq_m (s : State) (i : Nat) : (s.dropReq i).m = s.m := rfl
@[simp] theorem State.dropReq_mscale (s : State) (i : Nat) : (s.dropReq i).mscale = s.mscale := rfl
@[simp] theorem State.dropReq_mPoison (s : State) (i : Nat) : (s.dropReq i).mPoison = s.mPoison := rfl
@[simp] theorem State.dropReq_segs (s : State) (i : Nat) : (s.dropReq i).segs = s.segs := rfl
@[simp] theorem State.dropReq_pushArea (s : State) (i : Nat) : (s.dropReq i).pushArea = s.pushArea := rfl
@[simp] theorem State.dropReq_sw (s : State) (i : Nat) : (s.dropReq i).sw = s.sw := rfl
@[simp] theorem State.dropReq_deckMove (s : State) (i : Nat) : (s.dropReq i).deckMove = s.deckMove := rfl
@[simp] theorem State.dropReq_rcl (s : State) (i : Nat) : (s.dropReq i).rcl = s.rcl := rfl
@[simp] theorem State.dropReq_rclLast (s : State) (i : Nat) : (s.dropReq i).rclLast = s.rclLast := rfl
@[simp] theorem State.dropReq_smp (s : State) (i : Nat) : (s.dropReq i).smp = s.smp := rfl
@[simp] theorem State.dropReq_smpLast (s : State) (i : Nat) : (s.dropReq i).smpLast = s.smpLast := rfl
@[simp] theorem State.dropReq_ghosts (s : State) (i : Nat) : (s.dropReq i).ghosts = s.ghosts := rfl
@[simp] theorem State.dropReq_l1 (s : State) (i : Nat) : (s.dropReq i).l1 = s.l1 := rfl
@[simp] theorem State.dropReq_tlb (s : State) (i : Nat) : (s.dropReq i).tlb = s.tlb := rfl
@[simp] theorem State.dropReq_dict (s : State) (i : Nat) : (s.dropReq i).dict = s.dict := rfl
@[simp] theorem State.dropReq_dictRuns (s : State) (i : Nat) : (s.dropReq i).dictRuns = s.dictRuns := rfl
@[simp] theorem State.dropReq_loopBuf (s : State) (i : Nat) : (s.dropReq i).loopBuf = s.loopBuf := rfl
@[simp] theorem State.dropReq_streams (s : State) (i : Nat) : (s.dropReq i).streams = s.streams := rfl
@[simp] theorem State.dropReq_copies (s : State) (i : Nat) : (s.dropReq i).copies = s.copies := rfl
@[simp] theorem State.dropReq_staging (s : State) (i : Nat) : (s.dropReq i).staging = s.staging := rfl
@[simp] theorem State.dropReq_grants (s : State) (i : Nat) : (s.dropReq i).grants = s.grants := rfl
@[simp] theorem State.dropReq_copyTurn (s : State) (i : Nat) : (s.dropReq i).copyTurn = s.copyTurn := rfl
@[simp] theorem State.dropReq_zstores (s : State) (i : Nat) : (s.dropReq i).zstores = s.zstores := rfl
@[simp] theorem State.dropReq_arrayBusy (s : State) (i : Nat) : (s.dropReq i).arrayBusy = s.arrayBusy := rfl
@[simp] theorem State.dropReq_phase (s : State) (i : Nat) : (s.dropReq i).phase = s.phase := rfl
@[simp] theorem State.dropReq_mesh (s : State) (i : Nat) : (s.dropReq i).mesh = s.mesh := rfl
@[simp] theorem State.dropReq_meshWords (s : State) (i : Nat) : (s.dropReq i).meshWords = s.meshWords := rfl
@[simp] theorem State.dropReq_phaseFirst (s : State) (i : Nat) : (s.dropReq i).phaseFirst = s.phaseFirst := rfl
@[simp] theorem State.dropReq_fresh (s : State) (i : Nat) : (s.dropReq i).fresh = s.fresh := rfl
@[simp] theorem State.dropReq_mem (s : State) (i : Nat) : (s.dropReq i).mem = s.mem := rfl
@[simp] theorem State.dropReq_memPoison (s : State) (i : Nat) : (s.dropReq i).memPoison = s.memPoison := rfl
@[simp] theorem State.dropReq_tcache (s : State) (i : Nat) : (s.dropReq i).tcache = s.tcache := rfl
@[simp] theorem State.dropReq_pages (s : State) (i : Nat) : (s.dropReq i).pages = s.pages := rfl
@[simp] theorem State.dropReq_misses (s : State) (i : Nat) : (s.dropReq i).misses = s.misses := rfl
@[simp] theorem State.dropReq_inval (s : State) (i : Nat) : (s.dropReq i).inval = s.inval := rfl
@[simp] theorem State.dropReq_flitLost (s : State) (i : Nat) : (s.dropReq i).flitLost = s.flitLost := rfl
@[simp] theorem State.dropReq_parked (s : State) (i : Nat) : (s.dropReq i).parked = s.parked := rfl
@[simp] theorem State.dropReq_mapCache (s : State) (i : Nat) : (s.dropReq i).mapCache = s.mapCache := rfl
@[simp] theorem State.dropReq_bound (s : State) (i : Nat) : (s.dropReq i).bound = s.bound := rfl
@[simp] theorem State.dropReq_sysRoot (s : State) (i : Nat) : (s.dropReq i).sysRoot = s.sysRoot := rfl
@[simp] theorem State.dropReq_ns (s : State) (i : Nat) : (s.dropReq i).ns = s.ns := rfl
@[simp] theorem State.dropReq_nsCount (s : State) (i : Nat) : (s.dropReq i).nsCount = s.nsCount := rfl
@[simp] theorem State.dropReq_nsOff (s : State) (i : Nat) : (s.dropReq i).nsOff = s.nsOff := rfl
@[simp] theorem State.dropReq_hbmOff (s : State) (i : Nat) : (s.dropReq i).hbmOff = s.hbmOff := rfl
@[simp] theorem State.dropReq_hbmSleep (s : State) (i : Nat) : (s.dropReq i).hbmSleep = s.hbmSleep := rfl
@[simp] theorem State.dropReq_l2 (s : State) (i : Nat) : (s.dropReq i).l2 = s.l2 := rfl
@[simp] theorem State.dropReq_l2Version (s : State) (i : Nat) : (s.dropReq i).l2Version = s.l2Version := rfl
@[simp] theorem State.dropReq_l2Watches (s : State) (i : Nat) : (s.dropReq i).l2Watches = s.l2Watches := rfl
@[simp] theorem State.dropReq_sliceOut (s : State) (i : Nat) : (s.dropReq i).sliceOut = s.sliceOut := rfl
@[simp] theorem State.dropReq_coreOut (s : State) (i : Nat) : (s.dropReq i).coreOut = s.coreOut := rfl
@[simp] theorem State.dropReq_spareCores (s : State) (i : Nat) : (s.dropReq i).spareCores = s.spareCores := rfl
@[simp] theorem State.dropReq_spareSlices (s : State) (i : Nat) : (s.dropReq i).spareSlices = s.spareSlices := rfl
@[simp] theorem State.dropReq_lanesUsed (s : State) (i : Nat) : (s.dropReq i).lanesUsed = s.lanesUsed := rfl
@[simp] theorem State.dropReq_retiredPages (s : State) (i : Nat) : (s.dropReq i).retiredPages = s.retiredPages := rfl
@[simp] theorem State.dropReq_bars (s : State) (i : Nat) : (s.dropReq i).bars = s.bars := rfl
@[simp] theorem State.dropReq_barHeld (s : State) (i : Nat) : (s.dropReq i).barHeld = s.barHeld := rfl
@[simp] theorem State.dropReq_groups (s : State) (i : Nat) : (s.dropReq i).groups = s.groups := rfl
@[simp] theorem State.dropReq_launches (s : State) (i : Nat) : (s.dropReq i).launches = s.launches := rfl
@[simp] theorem State.dropReq_posts (s : State) (i : Nat) : (s.dropReq i).posts = s.posts := rfl
@[simp] theorem State.dropReq_kept (s : State) (i : Nat) : (s.dropReq i).kept = s.kept := rfl
@[simp] theorem State.dropReq_posted (s : State) (i : Nat) : (s.dropReq i).posted = s.posted := rfl
@[simp] theorem State.dropReq_cancels (s : State) (i : Nat) : (s.dropReq i).cancels = s.cancels := rfl
@[simp] theorem State.dropReq_cancelQ (s : State) (i : Nat) : (s.dropReq i).cancelQ = s.cancelQ := rfl
@[simp] theorem State.dropReq_preempted (s : State) (i : Nat) : (s.dropReq i).preempted = s.preempted := rfl
@[simp] theorem State.dropReq_images (s : State) (i : Nat) : (s.dropReq i).images = s.images := rfl
@[simp] theorem State.dropReq_enqs (s : State) (i : Nat) : (s.dropReq i).enqs = s.enqs := rfl
@[simp] theorem State.dropReq_reserved (s : State) (i : Nat) : (s.dropReq i).reserved = s.reserved := rfl
@[simp] theorem State.dropReq_faultLog (s : State) (i : Nat) : (s.dropReq i).faultLog = s.faultLog := rfl
@[simp] theorem State.dropReq_faultRings (s : State) (i : Nat) : (s.dropReq i).faultRings = s.faultRings := rfl
@[simp] theorem State.dropReq_logged (s : State) (i : Nat) : (s.dropReq i).logged = s.logged := rfl
@[simp] theorem State.dropReq_trace (s : State) (i : Nat) : (s.dropReq i).trace = s.trace := rfl
@[simp] theorem State.dropReq_msi (s : State) (i : Nat) : (s.dropReq i).msi = s.msi := rfl
@[simp] theorem State.dropReq_mgmt (s : State) (i : Nat) : (s.dropReq i).mgmt = s.mgmt := rfl
@[simp] theorem State.dropReq_bar0 (s : State) (i : Nat) : (s.dropReq i).bar0 = s.bar0 := rfl
@[simp] theorem State.dropReq_boot (s : State) (i : Nat) : (s.dropReq i).boot = s.boot := rfl
@[simp] theorem State.dropReq_inReset (s : State) (i : Nat) : (s.dropReq i).inReset = s.inReset := rfl
@[simp] theorem State.dropReq_frozen (s : State) (i : Nat) : (s.dropReq i).frozen = s.frozen := rfl
@[simp] theorem State.dropReq_hostRead (s : State) (i : Nat) : (s.dropReq i).hostRead = s.hostRead := rfl
@[simp] theorem State.dropReq_flrFn (s : State) (i : Nat) : (s.dropReq i).flrFn = s.flrFn := rfl
@[simp] theorem State.dropReq_throttled (s : State) (i : Nat) : (s.dropReq i).throttled = s.throttled := rfl
@[simp] theorem State.dropReq_hot (s : State) (i : Nat) : (s.dropReq i).hot = s.hot := rfl
@[simp] theorem State.dropReq_cmpSaved (s : State) (i : Nat) : (s.dropReq i).cmpSaved = s.cmpSaved := rfl
@[simp] theorem State.dropReq_corrected (s : State) (i : Nat) : (s.dropReq i).corrected = s.corrected := rfl
@[simp] theorem State.dropReq_cmpKeys (s : State) (i : Nat) : (s.dropReq i).cmpKeys = s.cmpKeys := rfl
@[simp] theorem State.dropReq_peers (s : State) (i : Nat) : (s.dropReq i).peers = s.peers := rfl
@[simp] theorem State.dropReq_lpRun (s : State) (i : Nat) : (s.dropReq i).lpRun = s.lpRun := rfl
@[simp] theorem State.dropReq_snap (s : State) (i : Nat) : (s.dropReq i).snap = s.snap := rfl

/-! ### What they change -/

@[simp] theorem State.modCtx_ctx (s : State) (f : Ctx → Ctx) : (s.modCtx f).ctx = f s.ctx := rfl
@[simp] theorem State.modRegs_regs (s : State) (f : ARegs → ARegs) : (s.modRegs f).ctx.regs = f s.ctx.regs := rfl
@[simp] theorem State.wait_mark (s : State) (w : WaitFor) : (s.wait w).mark = .waited w := rfl
@[simp] theorem State.bump_fresh (s : State) : s.bump.fresh = s.fresh + 1 := rfl
@[simp] theorem State.signal_msi (s : State) (fn vec : Nat) : (s.signal fn vec).msi = s.msi ++ [(fn, vec)] := rfl
@[simp] theorem State.setA_regs (s : State) (d : AReg) (v : Word) : (s.setA d v).ctx.regs = s.ctx.regs.wa d v false := rfl
@[simp] theorem State.setK_regs (s : State) (d : KReg) (b : Bool) : (s.setK d b).ctx.regs = s.ctx.regs.wk d b := rfl

/-! ### Queues of a context -/

@[simp] theorem Ctx.setQueue_phase (c : Ctx) (i : Nat) (q : List QEntry) : (c.setQueue i q).phase = c.phase := rfl
@[simp] theorem Ctx.setQueue_task (c : Ctx) (i : Nat) (q : List QEntry) : (c.setQueue i q).task = c.task := rfl
@[simp] theorem Ctx.setQueue_regs (c : Ctx) (i : Nat) (q : List QEntry) : (c.setQueue i q).regs = c.regs := rfl
@[simp] theorem Ctx.setQueue_qctl (c : Ctx) (i : Nat) (q : List QEntry) : (c.setQueue i q).qctl = c.qctl := rfl
@[simp] theorem Ctx.setQueue_rcnt (c : Ctx) (i : Nat) (q : List QEntry) : (c.setQueue i q).rcnt = c.rcnt := rfl
@[simp] theorem Ctx.setQueue_xpend (c : Ctx) (i : Nat) (q : List QEntry) : (c.setQueue i q).xpend = c.xpend := rfl
@[simp] theorem Ctx.setQueue_p (c : Ctx) (i : Nat) (q : List QEntry) : (c.setQueue i q).p = c.p := rfl
@[simp] theorem Ctx.setQueue_z (c : Ctx) (i : Nat) (q : List QEntry) : (c.setQueue i q).z = c.z := rfl
@[simp] theorem Ctx.setQueue_zPoison (c : Ctx) (i : Nat) (q : List QEntry) : (c.setQueue i q).zPoison = c.zPoison := rfl
@[simp] theorem Ctx.setQueue_zhist (c : Ctx) (i : Nat) (q : List QEntry) : (c.setQueue i q).zhist = c.zhist := rfl
@[simp] theorem Ctx.setQueue_vbase (c : Ctx) (i : Nat) (q : List QEntry) : (c.setQueue i q).vbase = c.vbase := rfl
@[simp] theorem Ctx.setQueue_vcnt (c : Ctx) (i : Nat) (q : List QEntry) : (c.setQueue i q).vcnt = c.vcnt := rfl
@[simp] theorem Ctx.setQueue_mbase (c : Ctx) (i : Nat) (q : List QEntry) : (c.setQueue i q).mbase = c.mbase := rfl
@[simp] theorem Ctx.setQueue_mcnt (c : Ctx) (i : Nat) (q : List QEntry) : (c.setQueue i q).mcnt = c.mcnt := rfl
@[simp] theorem Ctx.setQueue_dbase (c : Ctx) (i : Nat) (q : List QEntry) : (c.setQueue i q).dbase = c.dbase := rfl
@[simp] theorem Ctx.setQueue_dlim (c : Ctx) (i : Nat) (q : List QEntry) : (c.setQueue i q).dlim = c.dlim := rfl
@[simp] theorem Ctx.setQueue_pc (c : Ctx) (i : Nat) (q : List QEntry) : (c.setQueue i q).pc = c.pc := rfl
@[simp] theorem Ctx.setQueue_npc (c : Ctx) (i : Nat) (q : List QEntry) : (c.setQueue i q).npc = c.npc := rfl
@[simp] theorem Ctx.setQueue_an (c : Ctx) (i : Nat) (q : List QEntry) : (c.setQueue i q).an = c.an := rfl
@[simp] theorem Ctx.setQueue_xn (c : Ctx) (i : Nat) (q : List QEntry) : (c.setQueue i q).xn = c.xn := rfl
@[simp] theorem Ctx.setQueue_lag (c : Ctx) (i : Nat) (q : List QEntry) : (c.setQueue i q).lag = c.lag := rfl
@[simp] theorem Ctx.setQueue_flight (c : Ctx) (i : Nat) (q : List QEntry) : (c.setQueue i q).flight = c.flight := rfl
@[simp] theorem Ctx.setQueue_hframe (c : Ctx) (i : Nat) (q : List QEntry) : (c.setQueue i q).hframe = c.hframe := rfl
@[simp] theorem Ctx.setQueue_hmask (c : Ctx) (i : Nat) (q : List QEntry) : (c.setQueue i q).hmask = c.hmask := rfl
@[simp] theorem Ctx.setQueue_hpc (c : Ctx) (i : Nat) (q : List QEntry) : (c.setQueue i q).hpc = c.hpc := rfl
@[simp] theorem Ctx.setQueue_pend (c : Ctx) (i : Nat) (q : List QEntry) : (c.setQueue i q).pend = c.pend := rfl
@[simp] theorem Ctx.setQueue_active (c : Ctx) (i : Nat) (q : List QEntry) : (c.setQueue i q).active = c.active := rfl
@[simp] theorem Ctx.setQueue_aside (c : Ctx) (i : Nat) (q : List QEntry) : (c.setQueue i q).aside = c.aside := rfl
@[simp] theorem Ctx.setQueue_hwrote (c : Ctx) (i : Nat) (q : List QEntry) : (c.setQueue i q).hwrote = c.hwrote := rfl
@[simp] theorem Ctx.setQueue_cidStat (c : Ctx) (i : Nat) (q : List QEntry) : (c.setQueue i q).cidStat = c.cidStat := rfl
@[simp] theorem Ctx.setQueue_watch (c : Ctx) (i : Nat) (q : List QEntry) : (c.setQueue i q).watch = c.watch := rfl
@[simp] theorem Ctx.setQueue_quantum (c : Ctx) (i : Nat) (q : List QEntry) : (c.setQueue i q).quantum = c.quantum := rfl
@[simp] theorem Ctx.setQueue_apfx (c : Ctx) (i : Nat) (q : List QEntry) : (c.setQueue i q).apfx = c.apfx := rfl
@[simp] theorem Ctx.setQueue_xpfx (c : Ctx) (i : Nat) (q : List QEntry) : (c.setQueue i q).xpfx = c.xpfx := rfl
@[simp] theorem Ctx.setQueue_aview (c : Ctx) (i : Nat) (q : List QEntry) : (c.setQueue i q).aview = c.aview := rfl
@[simp] theorem Ctx.setQueue_xview (c : Ctx) (i : Nat) (q : List QEntry) : (c.setQueue i q).xview = c.xview := rfl
@[simp] theorem Ctx.setQueue_stopped (c : Ctx) (i : Nat) (q : List QEntry) : (c.setQueue i q).stopped = c.stopped := rfl
@[simp] theorem Ctx.setQueue_brkOnce (c : Ctx) (i : Nat) (q : List QEntry) : (c.setQueue i q).brkOnce = c.brkOnce := rfl
@[simp] theorem Ctx.setQueue_stopCause (c : Ctx) (i : Nat) (q : List QEntry) : (c.setQueue i q).stopCause = c.stopCause := rfl
@[simp] theorem Ctx.setQueue_yielding (c : Ctx) (i : Nat) (q : List QEntry) : (c.setQueue i q).yielding = c.yielding := rfl
@[simp] theorem Ctx.setQueue_latches (c : Ctx) (i : Nat) (q : List QEntry) : (c.setQueue i q).latches = c.latches := rfl
@[simp] theorem Ctx.setQueue_drained (c : Ctx) (i : Nat) (q : List QEntry) : (c.setQueue i q).drained = c.drained := rfl
@[simp] theorem Ctx.setQueue_halt (c : Ctx) (i : Nat) (q : List QEntry) : (c.setQueue i q).halt = c.halt := rfl
@[simp] theorem Ctx.setQueue_stepTo (c : Ctx) (i : Nat) (q : List QEntry) : (c.setQueue i q).stepTo = c.stepTo := rfl

end Sys2Proof.Machine
end

