-- ==== Sys2Proof/Tests/Slice0.lean ====
section
/-! SUPPORT. Tests: ill-formed terms that the check refuses, words that decode, single steps of small states against values
of the spec, and for every statement a state and operands that meet its hypotheses. -/

namespace Sys2Proof.Tests

open Sys2Proof.Machine

set_option maxRecDepth 20000
set_option Elab.async false
set_option exponentiation.threshold 1100

/-! ### Small states -/

def job0 : JobDesc := ⟨0x1000000, 1, 0, 0, 0x2000⟩
def task0 : Task := ⟨0, 0, 0, 0, 0x3000, job0, 64, 0, 4, 1, 16, 0, 0, false, false, false, 1, [], [], [], [], 0x4000, false,
  .ok, 0, 0⟩
/-- a5 = 7, a6 = 0x100, a7 = 3, a8 = 0x10040, a9 = -8, k1 set, g1 = 9, g2 = 10. -/
def regs0 : ARegs := { ARegs.zero with
  a := [(5, 7), (6, 0x100), (7, 3), (8, 0x10040), (9, 0xFFFFFFFFFFFFFFF8)], k := [(1, true)], g := [(1, 9), (2, 10)] }
/-- A resident segment of four lines named 9, with one byte, 5, at 0x100. -/
def seg0 : SegEntry := ⟨9, false, 0, 0x3000, .f32, 4, .resident, false, false, 0, false, 0, 0, [0, 1, 2, 3], [(0x100, 5)],
  [], [], 0, none, false, 1⟩
/-- A page of 64 KiB at 0x10000, every access allowed. -/
def tlb0 : Tlb := ⟨1, 0x10000, 0x10000, 0x20000, 0, true, true, true, false, true, 0, 0x5000⟩
/-- A body of three indices. -/
def quire0 : Quire := ⟨1, 0x10000, [3, 0, 0, 0, 0, 0, 0, 0], [0, 0, 0]⟩
/-- The state after reset with one task running on context 0. -/
def base : State := { State.reset with
  ctx := { Ctx.zero with phase := .running, task := some task0, regs := regs0, vcnt := 640, pc := 0x10040, npc := 0x10042 }
  segs := [seg0], tlb := [tlb0], loopBuf := [quire0] }
/-- An entry of a queue, filled with 5 before the running bundle. -/
def entry0 : QEntry := ⟨0, 0, .slot, some 5, false⟩
/-- `base` with the queue `id` holding one filled entry, and bundle 1 next for both halves. -/
def queued (id : Nat) : State := base.modCtx (fun c => { c with an := 1, xn := 1, queues := [(id, [entry0])] })
/-- A bundle without slots, whose X-half has not issued. -/
def lag0 : LagEntry := ⟨1, 0x10040, Header.zero, .nop, [], regs0, none, [], 0, ⟨0, 0, 0⟩⟩
def lagged : State := base.modCtx (fun c => { c with an := 2, lag := [lag0] })

theorem clean (l : List AReg) : base.Clean l := fun _ _ => rfl

/-- What a meaning leaves in a[d]. -/
def aAfter (i : Instr) (s : State) (d : AReg) : Option Word :=
  match exec i s with
  | .next t => some (t.ctx.regs.ra d)
  | _ => none
/-- What it leaves in k[d]. -/
def kAfter (i : Instr) (s : State) (d : KReg) : Option Bool :=
  match exec i s with
  | .next t => some (t.ctx.regs.rk d)
  | _ => none
/-- Where the next A-half issues. -/
def pcAfter (i : Instr) (s : State) : Option Word :=
  match exec i s with
  | .next t => some t.ctx.npc
  | _ => none
/-- The cause of the trap it takes. -/
def causeOf (i : Instr) (s : State) : Option Cause :=
  match exec i s with
  | .next t => match t.mark with
    | .trapped x => some x.cause
    | _ => none
  | _ => none

/-! ### Scalar slots -/

-- R285 on 7, 0x100 and -8: hand calculation.
theorem test_add : aAfter (.add ⟨0, 5, 5, 9⟩) base 5 = some (-1) := by decide
theorem test_sub : aAfter (.sub ⟨0, 5, 5, 6⟩) base 5 = some (-0xF9) := by decide
theorem test_and : aAfter (.and ⟨0, 5, 5, 7⟩) base 5 = some 3 := by decide
theorem test_or : aAfter (.or ⟨0, 5, 6, 7⟩) base 5 = some 0x103 := by decide
theorem test_xor : aAfter (.xor ⟨0, 5, 5, 7⟩) base 5 = some 4 := by decide
theorem test_shl : aAfter (.shl ⟨0, 5, 7, 9⟩) base 5 = some 0x300000000000000 := by decide
theorem test_shr : aAfter (.shr ⟨0, 5, 9, 7⟩) base 5 = some 0x1FFFFFFFFFFFFFFF := by decide
theorem test_sra : aAfter (.sra ⟨0, 5, 9, 7⟩) base 5 = some (-1) := by decide
theorem test_mul : aAfter (.mul ⟨0, 5, 9, 7⟩) base 5 = some (-24) := by decide
theorem test_mulh : aAfter (.mulh ⟨0, 5, 9, 7⟩) base 5 = some (-1) := by decide
theorem test_mulhw : aAfter (.mulhw ⟨0, 5, 9, 7⟩) base 5 = some 2 := by decide
theorem test_min : aAfter (.min ⟨0, 5, 9, 7⟩) base 5 = some (-8) := by decide
theorem test_max : aAfter (.max ⟨0, 5, 9, 7⟩) base 5 = some 3 := by decide
theorem test_wmin : aAfter (.wmin ⟨0, 5, 9, 7⟩) base 5 = some 3 := by decide
theorem test_wmax : aAfter (.wmax ⟨0, 5, 9, 7⟩) base 5 = some (-8) := by decide
theorem test_addi : aAfter (.addi ⟨0, 5, 5, -12⟩) base 5 = some (-5) := by decide
theorem test_andi : aAfter (.andi ⟨0, 5, 9, 0xFF⟩) base 5 = some 0xF8 := by decide
theorem test_ori : aAfter (.ori ⟨0, 5, 6, 1⟩) base 5 = some 0x101 := by decide
theorem test_xori : aAfter (.xori ⟨0, 5, 5, -1⟩) base 5 = some (-8) := by decide
theorem test_shli : aAfter (.shli ⟨0, 5, 5, 32⟩) base 5 = some 0x700000000 := by decide
theorem test_shri : aAfter (.shri ⟨0, 5, 6, 3⟩) base 5 = some 0x20 := by decide
theorem test_srai : aAfter (.srai ⟨0, 5, 9, 3⟩) base 5 = some (-1) := by decide
theorem test_li : aAfter (.li 0 5 (-8192)) base 5 = some (-8192) := by decide
-- The example of R286.
theorem test_lih : aAfter (.lih ⟨0, 5, 5, 0x3456⟩) (base.setA 5 0x12) 5 = some 0x4B456 := by decide
theorem test_lea : aAfter (.lea ⟨0, 5, 6, 7⟩ 3 (-16)) base 5 = some 0x108 := by decide
theorem test_cmpeq : kAfter (.cmpeq ⟨0, 1, 5, 6⟩) base 1 = some false := by decide
theorem test_cmplt : kAfter (.cmplt ⟨0, 2, 9, 5⟩) base 2 = some true := by decide
theorem test_cmpltw : kAfter (.cmpltw ⟨0, 1, 9, 5⟩) base 1 = some false := by decide
theorem test_cmpeqi : kAfter (.cmpeqi ⟨0, 2, 9, -8⟩) base 2 = some true := by decide
theorem test_cmplti : kAfter (.cmplti ⟨0, 2, 9, -7⟩) base 2 = some true := by decide
theorem test_selk : aAfter (.selk ⟨0, 5, 6, 7⟩ 1) base 5 = some 0x100 ∧ aAfter (.selk ⟨0, 5, 6, 7⟩ 2) base 5 = some 3 := by
  decide
theorem test_kand : kAfter (.kand ⟨0, 3, 1, 2⟩) base 3 = some false := by decide
theorem test_kor : kAfter (.kor ⟨0, 3, 1, 2⟩) base 3 = some true := by decide
theorem test_kxor : kAfter (.kxor ⟨0, 3, 1, 1⟩) base 3 = some false := by decide
-- k0 reads true and keeps no write (R200).
theorem test_knot : kAfter (.knot 0 3 0) base 3 = some false ∧ kAfter (.knot 0 0 1) base 0 = some true := by decide
theorem test_bfx : aAfter (.bfx ⟨0, 5, 9⟩ 60 12) base 5 = some 15 := by decide
theorem test_bfi : aAfter (.bfi ⟨0, 5, 5, 6⟩ 8 12) base 5 = some 0x700 := by decide
theorem test_clz : aAfter (.clz ⟨0, 5, 6⟩) base 5 = some 55 ∧ aAfter (.clz ⟨0, 5, 0⟩) base 5 = some 64 := by decide
theorem test_ctz : aAfter (.ctz ⟨0, 5, 6⟩) base 5 = some 8 ∧ aAfter (.ctz ⟨0, 5, 0⟩) base 5 = some 64 := by decide
theorem test_popc : aAfter (.popc ⟨0, 5, 9⟩) base 5 = some 61 := by decide
-- A write to a0 changes no register (R200).
theorem test_a0 : aAfter (.add ⟨0, 0, 5, 6⟩) base 0 = some 0 := by decide
-- CTXID of context 0 of core 0, partition 0 (R206).
theorem test_mfsr : aAfter (.mfsr 0 5 .ctxid) base 5 = some 0 ∧ aAfter (.mfsr 0 5 .vwin) base 5 = some 0x2800000 := by decide
theorem test_mtsr : (match exec (.mtsr 0 (.lc 1) 6) base with | .next t => some (t.ctx.regs.rlc 1) | _ => none) = some 0x100 ∧
    causeOf (.mtsr 0 .psel 5) (base.setA 5 12) = some .badSr := by decide
theorem test_getg : aAfter (.getg 0 5 1) base 5 = some 9 := by decide
theorem test_setg : (match exec (.setg 0 3 6) base with | .next t => some (t.ctx.regs.rg 3) | _ => none) = some 0x100 := by
  decide
theorem test_popsq : aAfter (.popsq 0 5) (queued qIdSq) 5 = some 5 ∧ causeOf (.popsq 0 5) base = some .qEmpty := by decide
theorem test_popbq : aAfter (.popbq 0 5) (queued qIdBq) 5 = some 5 ∧ causeOf (.popbq 0 5) base = some .qEmpty := by decide

theorem witness_ScalarRegisterOperations : ∃ (o : SRRR) (s : State), s.Clean [o.a, o.b] := ⟨⟨0, 5, 6, 7⟩, base, clean _⟩
theorem witness_ScalarRegisterWords : (0 : BitVec 14) = 0 ∧ (1 : BitVec 14) ≠ 0 ∧ 1 ≤ (15 : BitVec 8).toNat ∧
    (15 : BitVec 8).toNat ≤ 15 := by decide
theorem witness_ScalarImmediateResults : base.Clean [5] ∧ (base.setA 5 0x12).rd.ra 5 = 0x12 := ⟨clean _, by decide⟩
theorem witness_ScalarImmediateWords : (0x3F : BitVec 14).toNat < 64 ∧ 64 ≤ (0x40 : BitVec 14).toNat ∧ (1 : AReg) ≠ 0 := by decide
theorem witness_ScalarFlagWords : (7 : AReg).toNat < 8 ∧ 8 ≤ (8 : AReg).toNat ∧ (7 : BitVec 14).toNat < 8 ∧
    8 ≤ (8 : BitVec 14).toNat := by decide
theorem witness_ScalarFieldWords : (0x1FFF : BitVec 14).toNat < 2 ^ 13 ∧ 2 ^ 13 ≤ (0x2000 : BitVec 14).toNat := by decide
theorem witness_SpecialRegisterReads : base.realigned = true ∧ lagged.realigned = false ∧ base.sw ≤ 16 ∧ base.swlo ≤ 16 ∧
    base.swhi ≤ 16 ∧ base.rclLast < 2 ^ 32 ∧ base.ctx.vbase < 1024 ∧ base.ctx.vcnt < 1024 ∧ base.ctx.mbase < 8 ∧
    base.ctx.mcnt < 16 ∧ base.ctx.dbase < 1024 ∧ base.ctx.dlim < 2048 ∧ base.ctx.task = some task0 ∧ task0.x < 65536 ∧
    task0.y < 65536 := by decide
theorem witness_SpecialRegisterWrites : base.Clean [5] ∧ ufield (base.rd.ra 5) 0 4 < 12 ∧
    12 ≤ ufield ((base.setA 5 12).rd.ra 5) 0 4 := ⟨clean _, by decide⟩
theorem witness_NamesAndQueueHeads : (queued qIdSq).queue qIdSq = [entry0] ∧ entry0.val = some 5 ∧ base.queue qIdSq = [] ∧
    base.ctx.lag = [] ∧ lagged.queue qIdBq = [] ∧ lagged.ctx.lag ≠ [] := by decide

/-! ### The control slot -/

theorem test_bra : pcAfter (.bra 2) base = some 0x10044 ∧ causeOf (.bra 3) base = some .badTarget := by decide
theorem test_brf : pcAfter (.brf 1 false 2) base = some 0x10044 ∧ pcAfter (.brf 1 true 2) base = some 0x10042 := by decide
theorem test_brq : pcAfter (.brq false 2) (queued qIdBq) = some 0x10044 ∧ causeOf (.brq false 2) base = some .qEmpty := by decide
-- p0 is true in every lane (R200).
theorem test_brp : pcAfter (.brp 0 false 2) base = some 0x10044 ∧ pcAfter (.brp 0 true 2) base = some 0x10042 := by decide
theorem test_jmpr : pcAfter (.jmpr 0 false 8 1) base = some 0x10042 := by decide
theorem test_call : pcAfter (.call 5 1) base = some 0x10042 ∧ aAfter (.call 5 1) base 5 = some 0x10042 := by decide
theorem test_ret : pcAfter (.ret 0 false 8) base = some 0x10040 ∧ pcAfter (.ret 0 true 8) base = some 0x10042 := by decide
-- LOOP with zero skips the body (R296).
theorem test_loop : pcAfter (.loop 0 0 2) base = some 0x10044 ∧ pcAfter (.loop 0 5 2) base = some 0x10042 := by decide
theorem test_lend : pcAfter (.lend 0 2) (base.setLc 0 2) = some 0x10044 ∧ pcAfter (.lend 0 2) (base.setLc 0 1) = some 0x10042 := by
  decide
/-- A jump table at offset 0 of segment 9: length 1, default 2, entry 0 is 1. -/
def table0 : State := { base with
  segs := [{ seg0 with bytes := [(0, 1), (4, 2), (8, 1)] }] }
theorem test_jtab : pcAfter (.jtab 0 0 1 true) table0 = some 0x10042 ∧ pcAfter (.jtab 0 5 1 true) table0 = some 0x10044 := by
  decide

theorem witness_BranchesAndCalls : base.targetFault (base.rel 1) = none ∧ base.rd.rk 1 = true ∧ base.rd.rk 2 = false ∧
    base.targetFault (base.rd.ra 8) = none ∧ base.targetFault (base.rd.ra 8 + (1 : BitVec 24).signExtend 64 * 2) = none := by
  decide
theorem witness_BranchTargets_frame : ∃ t, (0x10000 : Word).toNat % 512 = 0 ∧ (0x10000 : Word).toNat < 2 ^ 56 ∧
    base.quireAt 0x10000 = .ok (quire0, t) := ⟨base, by decide, by decide, rfl⟩
-- At the edges: the first index, the last, the halfword behind it, an odd offset, and an offset in the header.
theorem witness_BranchTargets_edges : base.targetFault 0x10040 = none ∧ base.targetFault 0x10044 = none ∧
    base.targetFault 0x10046 = some .badTarget ∧ base.targetFault 0x10041 = some .badTarget ∧
    base.targetFault 0x1003E = some .badTarget ∧ base.targetFault 0x100000000000000 = some .badTarget ∧
    base.targetFault (base.rel 3) = some .badTarget ∧ base.targetFault (base.rd.ra 5) = some .badTarget := by decide
theorem witness_BranchTargets_ret : (base.setA 5 0x10046).Clean [5] ∧
    (base.setA 5 0x10046).targetFault ((base.setA 5 0x10046).rd.ra 5) = some .badTarget := by
  unfold State.Clean; decide
theorem witness_BranchesOnTheXHalf : (queued qIdBq).queue qIdBq = [entry0] ∧ entry0.val = some 5 ∧
    (queued qIdBq).targetFault ((queued qIdBq).rel 1) = none ∧ base.realigned = true ∧
    (∀ cl : BitVec 3, (base.landAt base.ctx.an).ctx.pred cl 0 = 0xFFFF) ∧
    (∀ cl : BitVec 3, (base.landAt base.ctx.an).ctx.pred cl 1 = 0) ∧ base.targetFault (base.rel 1) = none := by decide
theorem witness_BranchesOnTheXHalf_mixed : let s := base.modCtx (fun c => { c with p := [(1, 1)] })
    (¬ ∀ cl : BitVec 3, (s.landAt s.ctx.an).ctx.pred cl 1 = 0xFFFF) ∧
    (¬ ∀ cl : BitVec 3, (s.landAt s.ctx.an).ctx.pred cl 1 = 0) := by decide
theorem witness_CountedLoops : base.Clean [5] ∧ (base.rd.ra 5).setWidth 32 ≠ (0 : BitVec 32) ∧
    (base.rd.ra 0).setWidth 32 = (0 : BitVec 32) ∧ (base.rd.rlc 0).toNat ≤ 1 ∧ 2 ≤ ((base.setLc 0 2).rd.rlc 0).toNat ∧
    (base.setLc 0 2).targetFault ((base.setLc 0 2).rel 1) = none := ⟨clean _, by decide⟩
theorem witness_JumpTables : ∃ e, table0.Clean [0, 5] ∧ table0.segReady 1 (table0.rd.ra 0) 8 e ∧ e.poisoned 0 8 = false ∧
    (table0.rd.ra 5).toNat ≥ 1 ∧ (table0.rd.ra 0).toNat < 1 ∧ table0.segReady 1 8 4 e ∧
    (table0.touchSeg table0.cur e.name).targetFault 0x10042 = none :=
  ⟨{ seg0 with bytes := [(0, 1), (4, 2), (8, 1)] }, fun _ _ => rfl, by unfold State.segReady; decide⟩
/-- a5 points at a table in global memory: a header of one entry, and the entry. -/
def tableG : State := { base.setA 5 0x10100 with mem := [(0x20100, 1), (0x20104, 1), (0x20108, 1)] }
theorem witness_JumpTables_global : (tableG.globReady 0x10100 8 .read 0x20100 tlb0 tableG ∧
      tableG.firstAt 0x20100 8 tlb0.kind .plain ∧ tableG.reqs.length < 1024 ∧ tableG.layerOff 0x20100 = false ∧
      tableG.memPoisoned 0x20100 8 = false) ∧ (tableG.rd.ra 6).toNat ≥ 1 ∧ (tableG.rd.ra 0).toNat < 1 ∧
    tableG.globReady 0x10108 4 .read 0x20108 tlb0 tableG ∧ tableG.firstAt 0x20108 4 tlb0.kind .plain :=
  ⟨⟨by unfold State.globReady; decide, by unfold State.firstAt; decide, by decide, by decide, by decide⟩, by decide, by decide,
    by unfold State.globReady; decide, by unfold State.firstAt; decide⟩
theorem witness_JumpTables_faults : base.seg base.cur (base.rd.rg 1) = some seg0 ∧ (base.rd.ra 5).toNat % 8 ≠ 0 ∧
    (base.rd.ra 8).toNat % 8 = 0 ∧ 128 * seg0.size < (base.rd.ra 8).toNat + 8 ∧
    causeOf (.jtab 5 0 1 true) base = some .misalign ∧ causeOf (.jtab 8 0 1 true) base = some .segBound := by decide
/-- Every walker is busy with a miss of another page, and the translations are gone. -/
def noWalker (s : State) : State := { s with
  tlb := [], loopBuf := [], misses := (List.range 64).map (fun i => ⟨1, BitVec.ofNat 64 (2 ^ 40 + 65536 * i), false⟩) }
/-- No page is mapped: the root table reads zero. -/
def unmapped : State := { base with tlb := [], loopBuf := [] }
-- Targets that are allowed, that are not, that the fetch refuses (with the quire's frame and the page), and that wait.
theorem witness_BranchTargets : base.targetOk (base.rel 1) ∧ base.targetOk (base.rd.ra 8) ∧ base.targetBad 0x10046 .badTarget ∧
    base.targetBad 0x100000000000000 .badTarget ∧ unmapped.targetBad 0x10040 .codeFault ∧
    (∃ c, unmapped.quireAt 0x10000 = .error c ∧ c = .codeFault) ∧
    (unmapped.translate unmapped.ctx.job.asid unmapped.ctx.job.root 0x10000 .exec).1 = .fault .pgAbsent ∧
    (noWalker base).targetServed 0x10040 = false ∧ (0x10000 : Word).toNat % 512 = 0 := by
  refine ⟨by unfold State.targetOk; decide, by unfold State.targetOk; decide, by unfold State.targetBad; decide,
    by unfold State.targetBad; decide, by unfold State.targetBad; decide +kernel, ⟨_, by rfl, by decide +kernel⟩, ?_⟩
  decide +kernel
theorem test_badTargets : (match exec (.bra 1) (base.modCtx (fun c => { c with pc := 0x30040, npc := 0x30042 })) with
      | .next t => (match t.mark with | .trapped x => (x.cause, x.detail) | _ => (.poison, 0)) | _ => (.poison, 1)) = (.codeFault, 0x30042) ∧
    causeOf (.call 5 3) base = some .badTarget ∧ causeOf (.brf 1 false 3) base = some .badTarget ∧
    (match exec (.bra 1) (noWalker base) with
      | .next t => t.misses.length | _ => 0) = 65 := by decide +kernel

/-! ### The memory slot -/

/-- Offset 0x100 of segment 9, and address 0x10040, by a6 and a8. -/
def loc0 : LMem := ⟨1, ⟨6, 0, 0, 0⟩⟩
def glob0 : GMem := ⟨⟨8, 0, 0, 0⟩, 0, false, .plain, .ctx⟩
/-- A request that loads 8 bytes at 0x20040 into a5, below the L1, and one that stores 0x1234 there. -/
def load0 : Req := ⟨0, 0, .areg 5 .i64, 0x20040, 8, 0, 0, true, .plain, .ctx, 0, 0⟩
def store0 : Req := ⟨0, 0, .store 0x1234 false, 0x20040, 2, 0, 0, false, .plain, .ctx, 0, 0⟩
def loading : State := { base with reqs := [load0], mem := [(0x20040, 0x80)] }
def storing : State := { base with reqs := [store0] }

theorem test_ldaLocal : aAfter (.ldaLocal .w8 5 loc0) base 5 = some 5 := by decide
-- Sign extension of a loaded byte (R183).
theorem test_ldaLocal_signed : aAfter (.ldaLocal .i8 5 loc0) { base with segs := [{ seg0 with bytes := [(0x100, 0x80)] }] } 5 =
    some (-128) := by decide
theorem test_staLocal : (match exec (.staLocal .b16 9 loc0) base with
    | .next t => t.segs.map (fun e => e.bytes) | _ => []) = [[(0x100, 0xF8), (0x101, 0xFF)]] := by decide
theorem test_lda : (match exec (.lda .w8 5 glob0) base with
    | .next t => t.reqs.map (fun q => (q.pa, q.width)) | _ => []) = [(0x20040, 1)] := by decide
theorem test_sta : (match exec (.sta .b32 5 glob0) base with
    | .next t => t.reqs.map (fun q => (q.pa, q.width)) | _ => []) = [(0x20040, 4)] := by decide
-- A misaligned access traps in the A-half (R68).
theorem test_misaligned : causeOf (.lda .i64 5 ⟨⟨8, 0, 0, 4⟩, 0, false, .plain, .ctx⟩) base = some .misalign := by decide
theorem test_ldqLocal : (match exec (.ldqLocal ⟨false, 2, 1⟩ loc0) base with
    | .next t => (t.queue (qIdIn 2 1)).map (·.val) | _ => []) = [some 5] := by decide
theorem test_ldq : (match exec (.ldq ⟨false, 2, 1⟩ glob0) base with
    | .next t => (t.queue (qIdIn 2 1)).map (·.val) | _ => []) = [none] := by decide
theorem test_stqLocal : (match exec (.stqLocal ⟨2, 1⟩ loc0) (queued (OutQ.id ⟨2, 1⟩)) with
    | .next t => t.queue (OutQ.id ⟨2, 1⟩) | _ => [entry0]) = [] := by decide

theorem witness_ScalarLoads : base.Clean loc0.a.areads ∧ base.segReady loc0.g (base.rd.addr loc0.a) 8 seg0 ∧
    base.globReady (base.rd.addr glob0.a) 8 .read 0x20040 tlb0 base ∧ base.reqs.length < 1024 :=
  ⟨clean _, by unfold State.segReady; decide, by unfold State.globReady; decide, by decide⟩
theorem witness_QueueLoads : base.Clean loc0.a.areads ∧ base.segReady loc0.g (base.rd.addr loc0.a) 64 seg0 ∧
    base.segReady loc0.g (base.rd.addrNoIdx loc0.a) 64 seg0 ∧
    base.globReady (base.rd.addr glob0.a) 64 .read 0x20040 tlb0 base ∧
    base.globReady (base.rd.addrNoIdx glob0.a) 64 .read 0x20040 tlb0 base ∧
    (∀ id ∈ InQ.ids ⟨true, 0, 1⟩, base.boundQ id = false ∧ (base.queue id).length < 8) :=
  ⟨clean _, by unfold State.segReady; decide, by unfold State.segReady; decide, by unfold State.globReady; decide,
    by unfold State.globReady; decide, by decide⟩
theorem witness_QueueLoads_unpack : ∃ u, unpackOf 0x700000108 0 = some u ∧ 0 < u.nout ∧
    (unpackOf 0x700000108 (base.rd.bitStart loc0.a)).isSome = true := ⟨_, rfl, by decide, by decide⟩
theorem witness_Stores : base.segWritable loc0.g (base.rd.addr loc0.a) 8 seg0 ∧
    (queued (OutQ.id ⟨2, 1⟩)).segWritable loc0.g ((queued (OutQ.id ⟨2, 1⟩)).rd.addr loc0.a) 64 seg0 ∧
    (queued (OutQ.id ⟨2, 1⟩)).boundQ (OutQ.id ⟨2, 1⟩) = false ∧
    (queued (OutQ.id ⟨2, 1⟩)).queue (OutQ.id ⟨2, 1⟩) = [entry0] ∧
    base.globReady (base.rd.addr glob0.a) 8 .write 0x20040 tlb0 base ∧
    (queued (OutQ.id ⟨2, 1⟩)).globReady ((queued (OutQ.id ⟨2, 1⟩)).rd.addr glob0.a) 64 .write 0x20040 tlb0
      (queued (OutQ.id ⟨2, 1⟩)) :=
  ⟨by unfold State.segWritable; decide, by unfold State.segWritable; decide, by decide, by decide,
    by unfold State.globReady; decide, by unfold State.globReady; decide⟩
theorem witness_RequestsPerformed : loading.mayPerform 0 = some load0 ∧ load0.act = .areg 5 .i64 ∧ load0.ctx = loading.cur ∧
    load0.w = true ∧ loading.layerOff load0.pa = false ∧ storing.mayPerform 0 = some store0 ∧
    store0.act = .store 0x1234 false ∧ storing.layerOff store0.pa = false ∧ 1 ≤ store0.width ∧ store0.width ≤ 64 := by decide
theorem witness_AtomicUpdates : base.Clean [5, 8] ∧ base.globReady (base.rd.addr glob0.a) 8 .atomic 0x20040 tlb0 base ∧
    base.globReady (base.rd.addrNoIdx glob0.a) 8 .atomic 0x20040 tlb0 base ∧
    base.globReady (base.rd.addr glob0.a) 4 .atomic 0x20040 tlb0 base ∧ inHost 0x20040 = false ∧ inJirum 0x20040 = false ∧
    base.firstAt 0x20040 8 tlb0.kind .plain ∧ base.reqs.length < 1024 ∧ base.layerOff 0x20040 = false ∧ base.memPoisoned 0x20040 8 = false :=
  ⟨clean _, by unfold State.globReady; decide, by unfold State.globReady; decide, by unfold State.globReady; decide, by decide,
    by decide, by unfold State.firstAt; decide, by decide, by decide, by decide⟩
theorem witness_AtomicBlocks : (queued (OutQ.id ⟨2, 1⟩)).globReady ((queued (OutQ.id ⟨2, 1⟩)).rd.addr glob0.a) 64 .atomic
      0x20040 tlb0 (queued (OutQ.id ⟨2, 1⟩)) ∧ (queued (OutQ.id ⟨2, 1⟩)).boundQ (OutQ.id ⟨2, 1⟩) = false ∧
    (queued (OutQ.id ⟨2, 1⟩)).firstAt 0x20040 64 tlb0.kind .plain ∧
    (queued (OutQ.id ⟨2, 1⟩)).memPoisoned 0x20040 64 = false ∧
    base.segReady loc0.g (base.rd.addr loc0.a) 8 seg0 ∧ seg0.poisoned 0x100 8 = false ∧
    (queued (OutQ.id ⟨2, 1⟩)).segReady loc0.g (base.rd.addr loc0.a) 64 seg0 ∧ seg0.poisoned 0x100 64 = false :=
  ⟨by unfold State.globReady; decide, by decide, by unfold State.firstAt; decide, by decide, by unfold State.segReady; decide,
    by decide, by unfold State.segReady; decide, by decide⟩
theorem test_loadDataArrival : aAfter (.loadDataArrival 0) loading 5 = some 0x80 := by decide
theorem test_storePerformed : (match exec (.storePerformed 0) storing with
    | .next t => t.mem | _ => []) = [(0x20040, 0x34), (0x20041, 0x12)] := by decide
/-- Twins whose primary side has 65,536 keys unmatched: atomics wait. -/
theorem witness_AtomicUpdates_held : let s := (base.setBar 0 0x30048 0x48).setBar 0 0x30050 4
    s.cmpHeld = true ∧ s.globReady (s.rd.addr glob0.a) 8 .atomic 0x20040 tlb0 s ∧ s.Clean [5, 8] ∧
    base.cmpHeld = false ∧ inHost 0x20040 = false :=
  ⟨by decide +kernel, by unfold State.globReady; decide +kernel, fun _ _ => rfl, by decide +kernel, by decide⟩

/-! ### Segments -/

/-- a10 = 2 lines, for the segment that g2 names 10, and a13 = 128. -/
def making : State := base.modRegs (fun r => { r with a := (r.a.set 0 10 2).set 0 13 128 })
theorem test_segnew : aAfter (.segnew 11 2 10 .f32 true) making 11 = some 0 ∧ aAfter (.segnew 11 1 10 .f32 true) making 11 = some 1 ∧
    aAfter (.segnew 11 3 10 .f32 true) making 11 = some 4 ∧ aAfter (.segnew 11 2 0 .f32 true) making 11 = some 3 ∧
    aAfter (.segnew 11 2 10 .e2m1b true) making 11 = some 3 := by decide
theorem test_segfree : (match exec (.segfree 1) base with | .next t => t.segs | _ => [seg0]) = [] ∧
    causeOf (.segfree 2) base = some .noSeg := by decide
theorem test_segpin : (match exec (.segpin 1) base with | .next t => t.segs.map (·.ppin) | _ => []) = [true] := by decide
theorem test_segunpin : (match exec (.segunpin 1) { base with segs := [{ seg0 with ppin := true }] } with
    | .next t => t.segs.map (·.ppin) | _ => []) = [false] := by decide
-- Four lines, .f32, resident (R172).
theorem test_segsz : aAfter (.segsz 5 1) base 5 = some 0x100004 ∧ aAfter (.segsz 5 2) base 5 = some 0 := by decide
theorem test_segfmt : (match exec (.segfmt 5 1 .bf16) base with | .next t => t.segs.map (·.fmt) | _ => []) = [.bf16] := by decide
/-- Action 3 on lines 1 and 2 of segment 9. -/
theorem test_segclr : (match exec (.segclr 1 13 10 3) making with
    | .next t => t.segs.map (fun e => (e.bytes, e.empty)) | _ => []) = [([], [(1, true), (2, true)])] := by decide

theorem witness_SegmentCreation : making.Clean [10] ∧ making.rd.rg 3 = 0 ∧ making.rd.rg 1 ≠ 0 ∧
    (making.seg making.cur (making.rd.rg 1)).isSome ∧ making.rd.rg 2 ≠ 0 ∧ making.seg making.cur (making.rd.rg 2) = none ∧
    (making.rd.ra 0).toNat = 0 ∧ 1 ≤ (making.rd.ra 10).toNat ∧ (making.rd.ra 10).toNat ≤ 4096 ∧
    (making.rd.ra 10).toNat % 9 ≠ 0 ∧ (making.ctx.task.map (·.h)).getD 0 = 64 ∧ 64 < (making.rd.ra 6).toNat ∧
    making.segs.length < 256 ∧ (making.freeRun 2).isSome := ⟨fun _ _ => rfl, by decide⟩
theorem witness_SegmentCreation_full : 256 ≤ (State.segs { making with segs := List.replicate 256 seg0 }).length := by
  simp
theorem witness_SegmentManagement : base.seg base.cur (base.rd.rg 1) = some seg0 ∧ seg0.ppin = false ∧ seg0.spins = 0 ∧
    seg0.cpins = 0 ∧ base.pinFate base.cur [seg0.name] = .fits ∧ seg0.st = .resident ∧ seg0.size ≤ 4096 ∧ seg0.size % 9 ≠ 0 ∧
    base.seg base.cur (base.rd.rg 2) = none := by decide
theorem witness_SegmentManagement_pinned : let e := { seg0 with ppin := true, size := 9 }
    let s := { base with segs := [e] }
    s.seg s.cur (s.rd.rg 1) = some e ∧ e.ppin = true ∧ e.size % 9 = 0 ∧ e.spins = 0 ∧ e.cpins = 0 := by decide
theorem witness_SegmentClearing : making.Clean [13, 10] ∧ making.seg making.cur (making.rd.rg 1) = some seg0 ∧
    (making.rd.ra 13).toNat % 128 = 0 ∧ 1 ≤ (making.rd.ra 10).toNat ∧
    (making.rd.ra 13).toNat / 128 + (making.rd.ra 10).toNat ≤ seg0.size ∧
    making.pinFate making.cur [seg0.name] = .fits ∧ seg0.st = .resident := ⟨fun _ _ => rfl, by decide⟩
/-- Segment 9 in a state of residency. -/
def segged (st : SegState) (place : List Nat) : State := { base with segs := [{ seg0 with st := st, place := place }], sw := 1 }
theorem witness_SegmentResidency_recall : let s := segged .recalling []
    s.segs.filter (fun x => x.st == .recalling) = [{ seg0 with st := .recalling, place := [] }] ∧
    ((s.ctxAt 0).task.map (·.rl)).getD 0 = 0 ∧ s.usedLines.length + 4 ≤ 512 * s.sw ∧ 4 ≤ s.freeLines.length ∧
    (∀ u, u < 8 → s.layerOff (s.slotUnit seg0 u) = false) ∧ seg0.zimg = false := by decide
theorem witness_SegmentResidency_recall_zero : let e := { seg0 with st := .recalling, place := [], zimg := true }
    let s := { base with segs := [e] }
    s.segs.filter (fun x => x.st == .recalling) = [e] ∧ ((s.ctxAt 0).task.map (·.rl)).getD 0 = 0 ∧
    s.usedLines.length + 4 ≤ 512 * s.sw ∧ 4 ≤ s.freeLines.length := by decide +kernel
/-- The last way is to be given up, and the only segment stands in its way. -/
def crowded : State := { segged .resident [5] with deckMove := some false }
theorem witness_SegmentResidency_push : (segged .pushing [5]).seg 0 9 = some { seg0 with st := .pushing, place := [5] } ∧
    (segged .resident [5]).seg 0 9 = some { seg0 with st := .resident, place := [5] } ∧ (segged .resident [5]).roomNeed = none ∧
    crowded.roomNeed = some none ∧ crowded.nextVictim none = some { seg0 with place := [5] } ∧
    (segged .pushing [5]).pushArea % 64 = 0 ∧
    (∀ u, u < 8 → (segged .pushing [5]).layerOff ((segged .pushing [5]).slotUnit seg0 u) = false) := by decide
theorem witness_SegmentResidency_tamper : (segged .resident [5, 2, 1, 0]).freeLines.head? = some 3 ∧ 3 < 5 ∧
    seg0.pinned = false ∧ (segged .resident [1, 5]).freeLines.contains 2 = true ∧
    (segged .resident [3, 5, 4]).freeLines.contains 4 = false ∧ (segged .resident [3, 5, 4]).freeLines.head? = some 0 := by decide +kernel
theorem witness_SegmentResidency_deckle : (segged .resident [0]).deckMove = none ∧ (segged .resident [0]).sw < 16 ∧
    (segged .resident [0]).swhi = 16 ∧ base.swlo < base.sw ∧ base.floors ≤ 512 * (base.sw - 1) ∧
    (∀ l ∈ base.usedLines, l < 512 * (base.sw - 1)) := by decide
theorem test_pushOut : (match exec (.pushOut 0 9) crowded with
    | .next t => t.segs.map (fun e => (e.st, e.place)) | _ => []) = [(.pushing, [5])] := by decide
theorem test_segmentRecall : (match exec .segmentRecall { base with segs := [{ seg0 with st := .recalling, place := [], zimg := true }] } with
    | .next t => t.segs.map (fun e => (e.st, e.place.length)) | _ => []) = [(.resident, 4)] := by decide +kernel
theorem test_tamperMove : (match exec (.tamperMove 0 9 0) (segged .resident [5, 2, 1, 0]) with
    | .next t => t.segs.map (·.place) | _ => []) = [[3, 2, 1, 0]] := by decide
theorem test_deckle : (match exec .deckleGiveWay base with | .next t => some t.sw | _ => none) = some 15 ∧
    (match exec .deckleTakeWay (segged .resident [0]) with | .next t => some t.sw | _ => none) = some 2 := by decide
theorem test_deckleEpochEnd : (match exec .deckleEpochEnd { base with rcl := 3 } with
    | .next t => some (t.rclLast, t.rcl) | _ => none) = some (3, 0) := by decide
/-- The push-out area is full: no run of two lines is free. -/
theorem witness_SegmentCreation_space : ∀ at_, State.runFree { making with segs := [{ seg0 with size := 32768 }] } at_ 2 = false := by
  intro a
  simp only [State.runFree, making, State.modRegs, State.modCtx, base, State.reset, seg0, List.map_nil, List.flatten_nil, List.append_nil,
    List.all_cons, List.all_nil, Bool.and_true, Bool.and_eq_false_iff, decide_eq_false_iff_not]
  omega

/-! ### Streams and copies -/

/-- SSH0: two elements of one row, 64 bytes apart; a14 = 0x80. -/
def shaped : State := base.modRegs (fun r => { r with ssh := [(0, 0x40001002)], a := r.a.set 0 14 0x80 })
def stream0 : Stream := ⟨0, 0, 0, some 9, 0, 2, 1, 64, 0, 0, 0, 0, none, false, 0, 0, 0⟩
def streaming (x : Stream) : State := { shaped with streams := [x] }
def drained0 : State := (streaming { stream0 with q := 4 }).modCtx (fun c => { c with queues := [(4, [entry0])] })

theorem test_sbind : (match exec (.sbind (.inq 0 0) (.loc 1) 14 0) shaped with
    | .next t => t.streams.map (fun x => (x.base, x.n0, x.n1, x.s0)) | _ => []) = [(0x80, 2, 1, 64)] := by decide
theorem test_sunb : (match exec (.sunb (.inq 0 0)) (streaming stream0) with | .next t => t.streams | _ => [stream0]) = [] := by
  decide
theorem test_streamFetch : (match exec (.streamFetch 0) (streaming { stream0 with base := 0x100 }) with
    | .next t => ((t.queue 0).map (·.val), t.streams.map (·.next)) | _ => ([], [])) = ([some 5], [1]) := by decide
theorem test_streamWrite : (match exec (.streamWrite 0) drained0 with
    | .next t => (t.segs.map (fun e => e.bytes), t.queue 4) | _ => ([], [])) = ([[(0, 5), (0x100, 5)]], []) := by decide
theorem test_sfence : (match exec .sfence ((streaming { stream0 with next := 1 }).modCtx (fun c => { c with
    queues := [(0, [{ entry0 with src := .stream }])] })) with
    | .next t => (t.streams.map (·.next), t.queue 0) | _ => ([], [entry0])) = ([0], []) := by decide

theorem witness_StreamBinding_shape : shaped.Clean [14] ∧ shaped.rd.shPoison.get false 16 = false ∧
    1 ≤ ufield (shaped.rd.ssh.get 0 0) 0 12 ∧ 1 ≤ ufield (shaped.rd.ssh.get 0 0) 12 12 ∧
    sfield (shaped.rd.ssh.get 0 0) 24 20 % 64 = 0 ∧ sfield (shaped.rd.ssh.get 0 0) 44 20 % 64 = 0 ∧
    (shaped.rd.ra 14).toNat % 64 = 0 ∧ (shaped.rd.ra 14).toNat < 2 ^ 56 ∧ shaped.streamAt shaped.cur 0 = none ∧
    shaped.seg shaped.cur (shaped.rd.rg 1) = some seg0 ∧ shaped.pinFate shaped.cur [seg0.name] = .fits ∧
    (∀ i, i < 2 → ∀ j, j < 1 → (0 : Int) ≤ 0x80 + (i : Nat) * 64 + (j : Nat) * 0 ∧ (0x80 : Int) + (i : Nat) * 64 + (j : Nat) * 0 + 64 ≤ 128 * 4) :=
  ⟨fun _ _ => rfl, by decide⟩
-- At 0x1C0 the first element is the last that fits; the second lies outside.
theorem witness_StreamBinding_bound : ∃ i j : Nat, i < 2 ∧ j < 1 ∧
    ((0x1C0 : Int) + i * 64 + j * 0 < 0 ∨ 128 * (seg0.size : Int) < 0x1C0 + i * 64 + j * 0 + 64) := ⟨1, 0, by decide⟩
theorem witness_StreamBinding_unbind : let x := { stream0 with seg := none }
    (streaming x).realigned = true ∧ (streaming x).streamAt 0 0 = some x ∧ x.q < 4 ∧ base.streamAt 0 0 = none ∧
    (streaming { x with q := 4 }).streamAt 0 4 = some { x with q := 4 } ∧ (streaming { x with q := 4 }).queue 4 = [] ∧
    lagged.realigned = false ∧ (streaming x).streams = [x] ∧ x.ctx = (streaming x).cur ∧ (streaming x).zstores = [] ∧ x.stop = none ∧
    (streaming x).reqs = [] ∧ base.streams = [] := by decide
theorem witness_StreamElements : (streaming stream0).streams[0]? = some stream0 ∧ stream0.q < 4 ∧
    stream0.ctx = (streaming stream0).cur ∧ stream0.stop = none ∧ stream0.next < stream0.n0 * stream0.n1 ∧
    (streaming stream0).seg 0 9 = some seg0 ∧ seg0.st = .resident ∧ ((streaming stream0).queue 0).length < 8 ∧
    seg0.empty.get false 0 = false ∧ (∀ r ∈ (streaming stream0).reqs, r.ctx = 0 → stream0.after ≤ r.id) := by decide
theorem witness_StreamElements_out : drained0.streams[0]? = some { stream0 with q := 4 } ∧ drained0.queue 4 = [entry0] ∧
    entry0.val = some 5 ∧ (streaming { stream0 with next := 2 }).streams[0]? = some { stream0 with next := 2 } ∧
    stream0.n0 * stream0.n1 ≤ 2 := by decide

/-- A second segment, 10, and registers for a copy: a10 = 64, a11 = 0x40. -/
def seg1 : SegEntry := { seg0 with name := 10, place := [4, 5, 6, 7], bytes := [] }
def copying0 : State := { base.modRegs (fun r => { r with a := (r.a.set 0 10 64).set 0 11 0x40 }) with segs := [seg0, seg1] }
def opt0 : CopyOpt := ⟨3, true, 2, false, 0⟩
def rows1 : Rows := ⟨1, 0, 0⟩

theorem witness_CopyIssue : copying0.Clean [11, 11, 10] ∧ copying0.RowsOf opt0 rows1 ∧ copying0.engineFree opt0.cid ∧
    64 ≤ (copying0.rd.ra 10).toNat ∧ (copying0.rd.ra 10).toNat ≤ 1048576 ∧ (copying0.rd.ra 10).toNat % 64 = 0 ∧
    seg0.fmt = seg1.fmt ∧ copying0.pinFate copying0.cur [9, 10] = .fits ∧ coreAt (groupOf copying0.core.toNat) 1 ≠ 0 ∧
    (0 : Int) ≤ (copying0.rd.ra 11).toInt ∧ (copying0.rd.ra 11).toNat % 64 = 0 :=
  ⟨fun _ _ => rfl, by unfold State.RowsOf; decide, ⟨by decide, by decide⟩, by decide⟩
theorem witness_CopyIssue_ends : copying0.SegEnd 1 0x1C0 1 0 64 seg0 ∧ copying0.SegEnd 2 0 1 0 64 seg1 ∧
    copying0.GlobEnd 0x10040 1 0 64 := by
  refine ⟨⟨by decide, by decide, by decide, by decide, ?_⟩, ⟨by decide, by decide, by decide, by decide, ?_⟩,
    ⟨by decide, by decide, ?_⟩⟩ <;> intro i hi <;> obtain rfl : i = 0 := by omega
  all_goals decide
-- A handle that names no tensor leaves the side of the segment at 64 bytes.
theorem witness_CopyIssue_tensor : copying0.tensorSide 0x40 seg1 = 64 ∧ copying0.SegEnd 2 0x40 1 0 64 seg1 := by
  refine ⟨by decide, by decide, by decide, by decide, by decide, fun i hi => ?_⟩
  obtain rfl : i = 0 := by omega
  decide
-- The last unit of segment 9 lies inside, the next does not.
theorem witness_CopyIssue_edge : ¬ copying0.SegEnd 1 0x200 1 0 64 seg0 := fun h => absurd (h.2.2.2.2 0 (by decide)) (by decide)
theorem witness_CopyIssueFaults : let s := copying0.modRegs (fun r => { r with csh := [] })
    s.Clean [11, 11, 10] ∧ s.rd.shPoison.get false 0 = false ∧ ufield (s.rd.csh.get 0 0) 0 16 = 0 ∧
    s.RowsOf opt0 rows1 ∧ (s.rd.ra 7).toNat < 64 ∧ (s.rd.ra 6).toNat % 64 = 0 ∧ 64 ≤ (s.rd.ra 6).toNat :=
  ⟨fun _ _ => rfl, by decide, by decide, by unfold State.RowsOf; decide, by decide⟩
theorem test_copy_issue : (match exec (.cpss 1 2 0 11 10 opt0) copying0 with
    | .next t => t.copies.map (fun c => (c.cid, c.len, c.drow)) | _ => []) = [(some 3, 64, 64)] ∧
    causeOf (.cpss 1 2 0 11 7 opt0) copying0 = some .badLen ∧
    causeOf (.cpss 1 2 0 11 10 { opt0 with sh := true }) copying0 = some .badShape := by decide

/-- A copy of 64 bytes from 0x100 of segment 9 to 0x40 of segment 10, with an arrival at barrier 2. -/
def copy0 : Copy := ⟨7, 0, some 3, .seg, .own 0 9 0x100, .own 0 10 0x40, 1, 64, 0, 0, true, 2, Prefix.default, 0, 0, 0,
  some task0, 0, [], none, false, 0, 0, .fadd, 0, 0, none, 0, none, 64, true, none, [], []⟩
def copying1 : State := { copying0 with
  copies := [copy0]
  segs := [{ seg0 with cpins := 1 }, { seg1 with cpins := 1 }], fresh := 8 }
def copying2 : State := { copying1 with copies := [{ copy0 with done := 1 }] }

theorem test_copyUnitWrite : (match exec (.copyUnitWrite (.own 0)) copying1 with
    | .next t => (t.copies.map (·.done), t.segs.map (fun e => e.bytes)) | _ => ([], [])) =
    ([1], [[(0x100, 5)], [(0x40, 5)]]) := by decide
theorem test_copyCompletion : (match exec (.copyCompletion (.own 0)) copying2 with
    | .next t => (t.copies.length, t.segs.map (·.cpins), t.bars.get 0 2) | _ => (9, [], 0)) = (0, [0, 0], 64) := by decide
theorem test_cpcan : (match exec (.cpcan 8) copying1 with
    | .next t => (t.copies.length, t.ctx.cidStat.get 0 3) | _ => (9, 0)) = (0, 1) := by decide
-- CANCELLED, 1, in the field of CID 3 (R128).
theorem test_cpwait : aAfter (.cpwait 5 8) (copying0.modCtx (fun c => { c with cidStat := [(3, 1)] })) 5 = some 0x40 := by decide
theorem test_parkedAccess : (match exec (.parkedAccessRelease 0 none) { base with
    parked := [⟨.half 0, 1, 0, 0, .pgAbsent, false⟩] } with | .next t => t.parked.map (·.denied) | _ => []) = [true] := by decide

theorem witness_CopyUnits : copying1.copyNo 0 = some copy0 ∧ copying1.copies.find? (fun d => d.id == copy0.id) = some copy0 ∧
    copy0.known = true ∧ copy0.done < copy0.drow / 64 ∧ copying1.reqs = [] ∧
    copying1.seg copying1.cur 9 = some { seg0 with cpins := 1 } ∧ copying1.seg copying1.cur 10 = some { seg1 with cpins := 1 } ∧
    seg0.empty.get false ((0x100 + 64 * 0) / 128) = false ∧
    (∀ e ∈ copying1.segs, e.ctx = copying1.cur → e.name = 9 ∨ e.name = 10 → e.st ≠ .absent) := by decide
theorem witness_CopyEnds : copying2.copyNo 0 = some { copy0 with done := 1 } ∧ copying2.staging = [] ∧
    1 = copy0.nrow * (copy0.drow / 64) ∧ copying1.cidBusy 0 3 = true ∧ copying1.cidBusy 0 4 = false ∧
    (8 : BitVec 16).getLsbD 3 = true ∧ copying0.copies = [] ∧ (∀ i, copying0.ctx.cidStat.get 0 i < 4) :=
  ⟨by decide, by decide, by decide, by decide, by decide, by decide, by decide, fun _ => (by decide : 0 < 4)⟩
theorem witness_CopyEnds_cancel : let c := { copy0 with kind := .load, src := .glob 0x10040 }
    State.copies { copying1 with copies := [c] } = [c] ∧ c.cid = some 3 ∧ c.ctx = copying1.cur := by decide
theorem witness_ParkedAccesses : ∃ p, State.parked { base with parked := [p] } = [p] ∧ p.cause = .pgAbsent ∧
    (base.memWord (p.root + 8 * (p.va.toNat % 2 ^ 56 / 2 ^ 48))).getLsbD 0 = false :=
  ⟨⟨.half 0, 1, 0, 0, .pgAbsent, false⟩, by decide⟩
-- An entry that is valid and no leaf, at the root 0.
theorem witness_ParkedAccesses_replaced : let s : State := { base with mem := [(0, 1)] }
    (s.memWord 0).getLsbD 0 = true ∧ (s.memWord 0).getLsbD 1 = false ∧ Cause.pgAbsent ≠ .tileAbsent := by decide
/-- Segment 10 in another format: 64 bytes of FP32 give 32 bytes, which fill no unit; 128 fill one. -/
def convert0 (sf df : ElemFmt) (n : Word) : State :=
  { copying0.setA 10 n with segs := [{ seg0 with fmt := sf }, { seg1 with fmt := df }] }
theorem witness_CopyIssue_convert :
    (convert0 .f32 .bf16 128).SegEnd 1 0 1 0 128 { seg0 with fmt := .f32 } ∧
    (convert0 .f32 .bf16 128).SegEnd 2 0x40 1 0 (fmtBytes .bf16 (fmtCount .f32 128)) { seg1 with fmt := .bf16 } ∧
    (convert0 .q64 .i8 512).SegEnd 1 0 1 0 512 { seg0 with fmt := .q64 } ∧
    (convert0 .q64 .i8 512).SegEnd 2 0x40 1 0 (fmtBytes .i8 (fmtCount .q64 512)) { seg1 with fmt := .i8 } ∧
    fmtBytes .bf16 (fmtCount .f32 64) % 64 ≠ 0 ∧ fmtBytes .bf16 (fmtCount .f32 128) % 64 = 0 ∧
    fmtBytes .i8 (fmtCount .q64 512) % 64 = 0 ∧ fmtCount .f32 128 % 2048 ≠ 0 ∧
    (convert0 .f32 .bf16 128).pinFate 0 [9, 10] = .fits := by
  refine ⟨⟨by decide, by decide, by decide, by decide, ?_⟩, ⟨by decide, by decide, by decide, by decide, ?_⟩,
    ⟨by decide, by decide, by decide, by decide, ?_⟩, ⟨by decide, by decide, by decide, by decide, ?_⟩, by decide, by decide,
    by decide, by decide, by decide⟩ <;> intro i hi <;> obtain rfl : i = 0 := by omega
  all_goals decide
theorem test_convert : causeOf (.cpss 1 2 0 11 10 opt0) (convert0 .f32 .bf16 64) = some .badLen ∧
    causeOf (.cpss 1 2 0 11 10 opt0) (convert0 .q64 .i8 512) = some .badConv ∧
    (match exec (.cpss 1 2 0 11 10 opt0) (convert0 .f32 .bf16 128) with
      | .next t => t.copies.map (fun c => (c.len, c.drow)) | _ => []) = [(128, 64)] := by decide +kernel
/-- A converting copy of one unit: 1.5 in FP32 becomes 1.5 in BF16. -/
def conv0 : Copy := { copy0 with src := .own 0 9 0, len := 128, conv := some (.f32, .bf16) }
def converting1 : State := { copying1 with
  copies := [conv0]
  segs := [{ seg0 with cpins := 1, bytes := [(2, 0xC0), (3, 0x3F)] }, { seg1 with cpins := 1, fmt := .bf16 }] }
theorem test_convertedUnit : (match exec (.copyUnitWrite (.own 0)) converting1 with
    | .next t => (t.copies.map (·.done), t.segs.map (fun e => e.bytes)) | _ => ([], [])) =
    ([1], [[(2, 0xC0), (3, 0x3F)], [(0x40, 0xC0), (0x41, 0x3F)]]) := by decide +kernel
theorem witness_CopyUnits_convert : converting1.copyNo 0 = some conv0 ∧ converting1.copies.find? (fun d => d.id == conv0.id) = some conv0 ∧
    convOk .f32 .bf16 128 = true ∧ badConv .f32 .bf16 = false ∧ conv0.drow = fmtBytes .bf16 (fmtCount .f32 conv0.len) ∧
    conv0.done < conv0.drow / 64 ∧ converting1.reqs = [] ∧ converting1.frozen = false ∧
    (converting1.seg converting1.cur 9).isSome ∧ (converting1.seg converting1.cur 10).isSome ∧
    convOk .f32 .e2m1b 8192 = true ∧ fmtBytes .e2m1b (fmtCount .f32 8192) / 64 = 18 ∧ convOk .f32 .e2m1b 4096 = false := by
  decide +kernel

/-! ### Transfer phases, collectives, enqueues -/

/-- Two segments, a10 = 64, a11 = 0x40, a12 = 2 (the phase length), a13 = 1 (a group mask). -/
def phasing : State := { base.modRegs (fun r => { r with a := (((r.a.set 0 10 64).set 0 11 0x40).set 0 12 2).set 0 13 1 }) with
  segs := [seg0, { seg0 with name := 10, place := [4, 5, 6, 7], bytes := [] }] }
def phase0 : Phase := ⟨0, 9, 10, 1, 2, [0x1, 0x5], false, false, none, 0, 0, none, [], [0x10000]⟩
/-- A partner on core 1, which alone is active beside core 0 in group 0. -/
def node1 : MeshNode := ⟨1, 1, 2, [0, 0], []⟩
def inPhase (p : Phase) : State := { phasing with
  phase := some p, mesh := [node1], coreOut := [(2, true), (3, true), (16, true), (17, true), (18, true), (19, true)] }

theorem test_xpin : (match exec (.xpin 1 2 0 13 12) phasing with
    | .next t => (t.phase.map (fun p => (p.pl, p.started)), t.segs.map (·.spins)) | _ => (none, [])) =
    (some (2, false), [1, 1]) := by decide
theorem test_phaseStart : (match exec .phaseStart (inPhase phase0) with
    | .next t => t.phase.map (·.started) | _ => none) = some true ∧
    (match exec .phaseStart { inPhase phase0 with mesh := [{ node1 with pl := 3 }] } with
    | .next t => t.phase.map (·.fate) | _ => none) = some (some .phaseSync) := by decide
theorem test_xmit : (match exec (.xmit 1 6) (inPhase { phase0 with started := true, entered := true }) with
    | .next t => t.phase.map (·.xmit) | _ => none) = some (some (5, false)) := by decide
theorem test_xsel : (match exec (.xsel 2 11 2) { inPhase { phase0 with started := true, entered := true } with meshWords := [(0, 2, 7, false)] } with
    | .next t => t.phase.map (·.latched) | _ => none) = some [(0x40, 7, false)] := by decide
theorem test_xpout : (match exec .xpout (inPhase { phase0 with started := true, entered := true, cycle := 2, latched := [(0x40, 7, false)] }) with
    | .next t => t.segs.map (fun e => e.bytes) | _ => []) = [[(0x100, 5)], [(0x40, 7)]] := by decide
-- Output 2 of core 0 passes the word on its L input, 5, to input 4 of core 1 (R133, R134).
theorem test_routerCycle : (match exec .routerCycle (inPhase { phase0 with
      started := true, entered := true, table := [0x28, 0], cycle := 1, xmit := some (7, false) }) with
    | .next t => t.meshWords | _ => []) = [(1, 4, 7, false)] := by decide

theorem witness_TransferPhases_arrive : phasing.phase = none ∧ phasing.realigned = true ∧
    phasing.seg phasing.cur (phasing.rd.rg 1) = some seg0 ∧ (phasing.seg phasing.cur (phasing.rd.rg 2)).isSome ∧
    1 ≤ (phasing.rd.ra 12).toNat ∧ (phasing.rd.ra 12).toNat ≤ 1024 ∧ (phasing.rd.ra 13).toNat < 2 ^ 16 ∧
    (phasing.rd.ra 0).toNat + 2 * 2 ≤ 128 * seg0.size ∧ phasing.pinFate phasing.cur [9, 10] = .fits ∧ seg0.st = .resident ∧
    (match phasing.phaseQuires with | .ok (q, _) => q | .error _ => []) = [0x10000] := by decide
theorem witness_TransferPhases_start : (inPhase phase0).phase = some phase0 ∧ phase0.fate = none ∧ phase0.started = false ∧
    (inPhase phase0).mates phase0.mask = [1] ∧ (∀ n ∈ (inPhase phase0).mesh, n.mask = phase0.mask ∧ n.pl = phase0.pl) ∧
    (∃ n ∈ (inPhase phase0).mesh, n.core = 1) ∧ ({ node1 with pl := 3 } : MeshNode).pl ≠ phase0.pl := by decide
theorem witness_TransferPhases_enter : let p := { phase0 with started := true }
    (inPhase p).phase = some p ∧ p.fate = none ∧ p.entered = false := by decide
theorem witness_TransferPhases_in : let s := { inPhase { phase0 with started := true, entered := true } with meshWords := [(0, 2, 7, false)] }
    s.Clean [6, 11] ∧ s.rd.rg 1 = phase0.src ∧ s.seg s.cur phase0.src = some seg0 ∧ (s.rd.ra 6).toNat % 64 = 0 ∧
    (s.rd.ra 6).toNat + 64 ≤ 128 * seg0.size ∧ s.rd.rg 2 = phase0.dst ∧
    s.meshWords.find? (fun w => w.1 == s.core.toNat && w.2.1.toNat == 2) = some (s.core.toNat, 2, 7, false) :=
  ⟨fun _ _ => rfl, by decide⟩
theorem witness_RouterCycles : let p := { phase0 with started := true, entered := true, table := [0x28, 0], cycle := 1 }
    (inPhase p).phase = some p ∧ p.ctx = (inPhase p).cur ∧ p.routed < p.cycle ∧ routeBad 0 0x28 = false ∧ routeBad 1 0 = false ∧
    routeBad 0 0x1000 = true ∧ routeBad 0 0x6 = true := by decide

/-- A group of two members, of which context 0 has rank 0. -/
def group0 : Group := ⟨0, 5, 2, [⟨0, 0, 0, false, 0⟩, ⟨1, 8, 0, false, 0⟩], false,
  [⟨1, 0, false, .iadd, 0, List.replicate 64 1, [false]⟩], [], 0⟩
def grouped : State := { copying0 with groups := [group0] }
def coll0 : Copy := ⟨7, 0, some 3, .reduce, .own 0 9 0x100, .own 0 10 0x40, 1, 64, 0, 0, false, 0, Prefix.default, 0, 0, 0,
  some task0, 0, [], none, false, 0, 5, .iadd, 0, 0, none, 0, none, 64, true, none, [], []⟩
def collecting : State := { grouped with copies := [coll0] }

theorem test_cgjoin : aAfter (.cgjoin 5 0 7 12) grouped 12 = some 2 ∧ aAfter (.cgjoin 6 0 7 12) grouped 12 = some 0 ∧
    aAfter (.cgjoin 6 7 7 12) grouped 12 = some 3 := by decide
theorem test_cgleave : (match exec (.cgleave 5) { grouped with groups := [{ group0 with members := [⟨0, 0, 0, false, 3⟩] }] } with
    | .next t => t.groups.map (fun g => (g.draining, g.left)) | _ => []) = [(true, [0])] := by decide
theorem test_cgred : (match exec (.cgred .iadd 5 1 2 0 11 10 3 false 0) grouped with
    | .next t => t.copies.map (fun c => (c.gid, c.ord)) | _ => []) = [(5, 0)] ∧
    causeOf (.cgred .iadd 6 1 2 0 11 10 3 false 0) grouped = some .noGroup := by decide
theorem test_cgbc : causeOf (.cgbc 6 1 2 0 11 10 3 false 0) grouped = some .noGroup := by decide
-- Lane 0 of the sum: 5 and 0x01010101.
theorem test_collectiveStart : (match exec (.collectiveStart 5) collecting with
    | .next t => t.copies.map (fun c => (c.result.getD []).take 5) | _ => []) = [[6, 1, 1, 1, 1]] := by decide
theorem test_groupDrained : (match exec (.groupDrained 5) { base with groups := [{ group0 with draining := true, members := [] }] } with
    | .next t => t.groups | _ => [group0]) = [] := by decide

theorem witness_CollectiveGroups : grouped.group 5 = some group0 ∧ group0.draining = false ∧ (∃ m ∈ group0.members, m.rank = 0) ∧
    grouped.group 6 = none ∧ (grouped.bar (0x10700 + 8 * 5)).getLsbD 20 = false ∧ grouped.memberships < 4 ∧
    (grouped.rd.ra 7).toNat = 3 ∧ (∀ m ∈ group0.members, m.rank ≠ 3) ∧ group0.n ≠ 3 := by decide
theorem witness_CollectiveGroups_full : 4 ≤ State.memberships { grouped with groups := List.replicate 4 group0 } := by decide
theorem witness_CollectiveGroups_join : let g := { group0 with n := 3 }
    State.group { grouped with groups := [g] } 5 = some g ∧ (∀ m ∈ g.members, m.rank ≠ 2) ∧ 2 < g.n := by decide
theorem witness_CollectiveGroups_leave : let g := { group0 with members := [⟨0, 0, 0, false, 3⟩] }
    State.groups { grouped with groups := [g] } = [g] ∧ g.part = grouped.part ∧ g.gid = 5 ∧
    State.collectives { grouped with groups := [g] } grouped.cur 5 = [] ∧ base.copies = [] := by decide
theorem witness_CollectiveResults : grouped.Clean [0, 11, 10] ∧ grouped.myMember group0 = some ⟨0, 0, 0, false, 0⟩ ∧
    64 ≤ (grouped.rd.ra 10).toNat ∧ (grouped.rd.ra 10).toNat ≤ 1048576 ∧ (grouped.rd.ra 10).toNat % 64 = 0 ∧
    grouped.pinFate grouped.cur [9, 10] = .fits ∧ grouped.copies = [] := ⟨fun _ _ => rfl, by decide⟩
/-- The two ranks have given 64 bytes each. -/
theorem witness_CollectiveResults_start : (match collecting.gather group0 0 true [0, 1] with
    | .ok (some l) _ => l.map (fun x => (x.bcast, x.op, x.psel, x.len)) | _ => []) =
    [(false, .iadd, 0, 64), (false, .iadd, 0, 64)] ∧ collecting.begun 5 group0.started = false ∧ group0.left = [] := by decide
theorem witness_CollectiveResults_differ : (match collecting.gather { group0 with
      others := [⟨1, 0, false, .imax, 0, List.replicate 64 1, [false]⟩] } 0 true [0, 1] with
    | .ok (some l) _ => l.map (·.op) | _ => []) = [.iadd, .imax] := by decide

theorem witness_CollectiveResults_left : let s : State := { collecting with groups := [{ group0 with left := [1] }] }
    s.group 5 = some { group0 with left := [1] } ∧ 1 < group0.n ∧ coll0 ∈ s.copies ∧ coll0.gid = 5 ∧ coll0.ord = group0.started ∧
    coll0.kind = .reduce := by decide

/-- Queue 2 of partition 0, generation 1, with room; a15 is its handle, a8 a record's address, a16 a word's. -/
def queue0 : EnqQ := ⟨0, 2, 1, true, [], [], 0, 1⟩
def enqueuing : State := { base.modRegs (fun r => { r with a := (r.a.set 0 15 0x102).set 0 16 0x10080 }) with enqs := [queue0] }
def enq0 : Copy := ⟨0, 0, some 3, .enq, .glob 0x10040, .glob 0x10080, 1, 32, 0, 0, false, 0, Prefix.default, 0, 0, 0,
  some task0, 0, [], none, false, 0, 0, .fadd, 0, 0x102, none, 0, none, 0, false, none, [], []⟩
def delivering : State := { enqueuing with copies := [enq0], mem := [(0x20040, 3)] }

theorem test_enq : (match exec (.enq 15 8 16 3) enqueuing with
    | .next t => t.copies.map (fun c => (c.cid, c.word)) | _ => []) = [(some 3, 0x102)] ∧
    causeOf (.enq 8 8 16 3) (enqueuing.setA 8 0x100000000) = some .badHandle := by decide
-- Status 1, OK, with the generation in bits 15 to 8 (R363).
theorem test_enqDelivery : (match exec (.enqDelivery 0) (delivering.setBar 0 0x10100 0) with
    | .next t => (t.memNat 0x20080 8, t.enqs.map (fun q => q.ring.map (·.words))) | _ => (0, [])) = (0x101, [[[3, 0, 0, 0]]]) := by
  decide

theorem witness_EnqueueDelivery : enqueuing.Clean [15, 8, 16] ∧ ufield (enqueuing.rd.ra 15) 19 5 = 0 ∧
    ufield (enqueuing.rd.ra 15) 32 32 = 0 ∧ (enqueuing.rd.ra 8).toNat < 2 ^ 56 ∧ (enqueuing.rd.ra 8).toNat % 32 = 0 ∧
    (enqueuing.rd.ra 16).toNat % 8 = 0 ∧ ufield (0x100000000 : Word) 32 32 ≠ 0 := ⟨fun _ _ => rfl, by decide⟩
theorem witness_EnqueueDelivery_queue : ufield (0x102 : Word) 24 8 = 0 ∧ (∃ g, g < 64 ∧ enqueuing.partOf g = some 0) ∧
    enqueuing.enqQ 0 2 = some queue0 ∧ queue0.gen.toNat = ufield (0x102 : Word) 8 8 ∧ queue0.exists_ = true ∧ queue0.spill = [] ∧
    queue0.ring.length < 64 ∧ 64 ≤ (List.replicate 64 (⟨[]⟩ : EnqRec)).length ∧ queue0.spill.length < queue0.cap := by
  exact ⟨by decide, ⟨0, by decide⟩, by decide⟩
theorem witness_EnqueueDelivery_record : delivering.copyNo 0 = some enq0 ∧ delivering.copies = [enq0] ∧
    delivering.staging = [] ∧ delivering.reqs = [] ∧ (0x10040 : Word).toNat % 64 = 0 ∧
    delivering.translate (Copy.job enq0).asid (Copy.job enq0).root 0x10040 .read = (.ok 0x20040 tlb0, delivering) ∧
    delivering.layerOff 0x20040 = false ∧ delivering.memPoisoned 0x20040 64 = false := by decide
theorem witness_EnqueueDelivery_word (v : State) (h : v.tlb = [tlb0]) :
    v.translate 1 0x1000000 0x10080 .write = (.ok 0x20080 tlb0, v) := by
  unfold State.translate State.lookup
  rw [h]
  rfl
-- A handle of another generation, of a number without a queue, and of a queue destroyed.
theorem witness_EnqueueDelivery_refused : ufield (0x202 : Word) 8 8 ≠ queue0.gen.toNat ∧ enqueuing.enqQ 0 3 = none ∧
    ufield (0x103 : Word) 24 8 = 0 ∧ State.enqQ { enqueuing with enqs := [{ queue0 with exists_ := false }] } 0 2 =
      some { queue0 with exists_ := false } := by decide
theorem witness_EnqueueDelivery_poisoned : let s : State := { delivering with memPoison := [(0x20040 / 64, true)] }
    s.copyNo 0 = some enq0 ∧ enq0.cid = some 3 ∧ s.untraced 9 ∧ enq0.be = false ∧
    s.translate (Copy.job enq0).asid (Copy.job enq0).root 0x10040 .read = (.ok 0x20040 tlb0, s) ∧
    s.layerOff 0x20040 = false ∧ s.memPoisoned 0x20040 64 = true ∧ s.layerOff 0x20080 = false := by
  unfold State.untraced; decide
/-- The core is frozen for its move: no abort, no cycle (R381, R382). -/
theorem test_frozenPhase : let s : State := { inPhase { phase0 with started := true } with frozen := true }
    (match exec (.phaseabort .op) s with | .next t => t == s | _ => false) = true ∧
    (match exec .routerCycle s with | .next t => t == s | _ => false) = true := by decide +kernel
/-- The pages of the record and of the completion word are behind no miss that waits. -/
theorem witness_EnqueueDelivery_served : delivering.walkServed (Copy.job enq0).asid 0x10040 false = true ∧
    delivering.walkServed (Copy.job enq0).asid 0x10080 false = true ∧
    (noWalker delivering).walkServed (Copy.job enq0).asid 0x10040 false = false := by decide +kernel

/-! ### The matrix unit -/

/-- Segment 9 as a B tile of eight lines and more, latch window of 2. -/
def tile0 : SegEntry := { seg0 with anc := true, size := 128, place := List.range 128, bytes := [(0, 3)] }
def matrix : State := { base.modCtx (fun c => { c with mcnt := 2 }) with segs := [tile0] }
/-- Latch 0 holds 2 in the first byte of row 0. -/
def latched0 : State := { matrix with m := [(0, 2)] }
def fetch0 : Fetch := ⟨.seg (some 9) 0 1, true, 0, [], [], false⟩
def ahead : State := matrix.modCtx (fun c => { c with an := 2, lag := [{ lag0 with mx := .mld 0 (.seg 1) 0 0, fetch := some fetch0 }] })

-- Row 0 of a latch is the first line of the fetch; 2 × 3 = 6 in FP32 (R250, R262, R264). A whole MLD or MMA is long to
-- evaluate: its row and its element are.
theorem test_mld : lineOf [⟨0, 3, false⟩, ⟨1, 1, false⟩] 0 = 2 ^ 512 + 3 := by decide
theorem test_mma : mmaCell (latched0.mmaA .i8 0 0 0) (mmaB .i8 [⟨0, 3, false⟩] 0) 0 = 0x40C00000 := by decide
theorem test_mma_ranges : causeOf (.mma .i8 0 2 (.seg 1) 0 0 0) matrix = some .mRange ∧
    causeOf (.mld 0 (.seg 3) 0 0) matrix = some .noSeg := by decide
theorem test_zclr : (match exec (.zclr 0) (matrix.modCtx (fun c => { c with z := [(zKey 0 1 1, 7), (zKey 1 0 0, 8)] })) with
    | .next t => t.ctx.z | _ => []) = [(zKey 1 0 0, 8)] := by decide
theorem test_arrayAccept : (match exec .arrayAccept { matrix with arrayBusy := true } with
    | .next t => t.arrayBusy | _ => true) = false := by decide
/-- Accumulator 0 holds 1.0 in element [0][0], and the q3 entries of the bundle are reserved. -/
def reading : State := matrix.modCtx (fun c => { c with
  z := [(zKey 0 0 0, 0x3F800000)], an := 2
  queues := (List.range 8).map (fun i => (6 * i + 3, [⟨i, 0, .zrd, none, false⟩]))
  lag := [{ lag0 with zrd := List.range 8 }] })
theorem test_zrd : (match exec (.zrd false 0 0) reading with
    | .next t => (t.queue 3).map (·.val) | _ => []) = [some 0x3F800000] ∧
    (match exec (.zrd true 0 0) reading with | .next t => (t.queue 3).map (·.val) | _ => []) = [some 0x3F80] := by decide
theorem test_zst : (match exec (.zst false 0 (.seg 1) 0 0) reading with
    | .next t => (t.zstores.map (fun q => (q.units.take 1, q.units.length)), t.segs.map (·.cpins)) | _ => ([], [])) =
    ([([(0, 0x3F800000)], 128)], [1]) := by decide
theorem test_zstWrite : (match exec (.zstWritePerformed 0) { matrix with zstores := [⟨0, 0, some 9, [(64, 7), (128, 8)], 0, 0, [], [], none, 0, 0⟩] } with
    | .next t => (t.segs.map (fun e => e.bytes), t.zstores.map (·.units)) | _ => ([], [])) = ([[(0, 3), (64, 7)]], [[(128, 8)]]) := by
  decide
theorem test_tileFetch : (match exec (.tileFetch 0) ahead with
    | .next t => t.ctx.lag.map (fun x => (x.fetch.map (fun f => f.units.map (·.val))).getD []) | _ => []) = [[3]] := by decide

theorem witness_MatrixFetches : matrix.mshOf 0 = (0, false) ∧ ufield (0 : Word) 3 13 = 0 ∧ (0 : BitVec 3).toNat < matrix.ctx.mcnt ∧
    (matrix.curFetch (.seg 1) 0).base = .seg (some 9) 0 tile0.born ∧ (matrix.curFetch (.seg 1) 0).units = [] ∧
    (matrix.curFetch (.seg 1) 0).floor = false ∧ matrix.pinFate matrix.cur [9] = .fits ∧ matrix.reqs = [] ∧ matrix.seg matrix.cur 9 = some tile0 ∧ tile0.st = .resident ∧
    (∀ k, k < mxUnits (.mma .i8 0 0 (.seg 1) 0 0 0) 0 → 0 ≤ mxOff (.mma .i8 0 0 (.seg 1) 0 0 0) matrix.xrd 0 0 k ∧
      mxOff (.mma .i8 0 0 (.seg 1) 0 0 0) matrix.xrd 0 0 k + 64 ≤ 128 * tile0.size) ∧
    (∀ k, k < mxUnits (.mld 0 (.seg 1) 0 0) 0 → 0 ≤ mxOff (.mld 0 (.seg 1) 0 0) matrix.xrd 0 0 k ∧
      mxOff (.mld 0 (.seg 1) 0 0) matrix.xrd 0 0 k + 64 ≤ 128 * tile0.size) ∧ tile0.empty = [] := by decide
theorem witness_TileFetchAhead : ∃ x, ahead.ctx.lag[0]? = some x ∧ x.fetch = some fetch0 ∧ x.mx = .mld 0 (.seg 1) 0 0 ∧
    x.hdr.swm = false ∧ x.snap.msh.get 0 0 = 0 ∧ fetch0.units.length < 128 ∧ ahead.seg ahead.cur 9 = some tile0 ∧
    fetch0.base = .seg (some 9) 0 tile0.born ∧ (0 : Word).toInt + 64 ≤ tile0.size ∧ tile0.empty.get false 0 = false ∧
    ({ tile0 with empty := [(0, true)] } : SegEntry).empty.get false 0 = true ∧ fetch0.has 0 = false ∧ fetch0.pinned = true ∧
    (0 : Word).toInt = 0 ∧ (∀ q ∈ ahead.reqs, q.ctx = ahead.cur → fetch0.after ≤ q.id) := ⟨_, rfl, by decide⟩
/-- A tile whose first line alone is full, once both its units are read: nothing more can be read. -/
theorem witness_TileFetchAhead_blocked :
    let e : SegEntry := { tile0 with empty := (List.range 127).map (fun k => (k + 1, true)) }
    let f : Fetch := { fetch0 with units := [⟨0, 0, false⟩, ⟨1, 0, false⟩] }
    (∀ j, j < 128 → f.has j = false → ¬ e.empty.get false (0 + j / 2) = false) ∧ f.pinned = true ∧
    ({ fetch0 with pinned := false, floor := true } : Fetch).floor = true := by decide +kernel
theorem witness_TileFetchAhead_waits : ({ fetch0 with pinned := false } : Fetch).pinned = false ∧
    State.pinFate { ahead with segs := [{ tile0 with anc := false }] } ahead.cur [9] ≠ .fits := by decide
theorem witness_LatchLoadsAndClears : (∀ a ∈ (0 : AReg) :: MxSrc.areads (.seg 1), matrix.xrd.aPoison.get false a.toNat = false) ∧
    (match matrix.mxFetch (.mld 1 (.seg 1) 0 0) 1 (.seg 1) 0 0 with
      | .ok (l, _) => (l.length, l.any (·.poison)) | .error _ => (0, true)) = (128, false) := by decide
/-- With LE2 the image is 72 lines. -/
theorem witness_LatchLoadsAndClears_scaled : let s := matrix.modRegs (fun r => { r with msh := [(0, 4)] })
    s.mshOf 0 = (4, false) ∧ (4 : Word).getLsbD 2 = true ∧ ufield (4 : Word) 16 16 = 0 ∧
    (match s.mxFetch (.mld 1 (.seg 1) 0 0) 1 (.seg 1) 0 0 with
      | .ok (l, _) => (l.length, l.any (·.poison)) | .error _ => (0, true)) = (144, false) := by decide
theorem witness_MatrixMultiply : latched0.arrayBusy = false ∧ State.arrayBusy { latched0 with arrayBusy := true } = true ∧
    latched0.mPoison = [] ∧ (∀ k, k < 128 → latched0.ctx.zStruck 0 k = false) ∧
    (match latched0.mxFetch (.mma .i8 0 0 (.seg 1) 0 0 0) 0 (.seg 1) 0 0 with
      | .ok (l, _) => (l.length, l.any (·.poison)) | .error _ => (0, true)) = (16, false) := by decide
theorem witness_MatrixStepRounding : [(1 : Int)].length = [(2 : Int)].length ∧ FVal.nan ∈ [FVal.nan] ∧ f32 0x7FC00000 = .nan ∧
    mmaCell [.fin false 2 0] [.fin true 3 0] 0 = 0xC0C00000 := by decide
-- Infinities of both signs give the canonical NaN; of one sign, that infinity.
theorem witness_MatrixStepRounding_infinite : mmaCell [.inf false, .inf true] [.fin false 1 0, .fin false 1 0] 0 = 0x7FC00000 ∧
    mmaCell [.fin false 1 0, .inf false] [.fin false 1 0, .fin true 3 0] 0 = 0xFF800000 ∧
    f32 0xFF800000 = .inf true ∧ mmaCell [.inf false] [.fin false 0 0] 0 = 0x7FC00000 := by decide
theorem witness_AccumulatorVisibility : matrix.ctx.zhist = [] ∧ matrix.ctx.xn ≤ 24 ∧ matrix.ctx.xn ≤ 25 ∧
    24 < matrix.ctx.xn + 24 ∧ ¬ 25 < matrix.ctx.xn + 24 := by decide
theorem witness_AccumulatorReads : ∃ x, reading.ctx.lag.head? = some x ∧ x.zrd.length = 8 ∧
    reading.xrd.aPoison.get false 0 = false ∧ (∀ k ∈ zrdUnits false (reading.xrd.ra 0), reading.ctx.zStruck 0 k = false) ∧
    ∀ k ∈ zrdUnits true (reading.xrd.ra 0), reading.ctx.zStruck 0 k = false := ⟨_, rfl, by decide⟩
theorem witness_AccumulatorStores : matrix.mshOf 0 = (0, false) ∧ (matrix.curFetch (.seg 1) 0).base = .seg (some 9) 0 tile0.born ∧
    matrix.seg matrix.cur 9 = some tile0 ∧ matrix.pinFate matrix.cur [9] = .fits ∧
    (∀ k, k < 128 → 64 * k + 64 ≤ 128 * tile0.size) ∧
    matrix.mxFault (.zst false 0 (.glob 8 0 false) 0 0) (matrix.curFetch (.glob 8 0 false) 0).base 0 = none := by decide
theorem witness_AccumulatorStores_places : (match (matrix.setBar 0 0x10100 0).zstPlaces (.zst true 0 (.glob 8 0 false) 0 0)
      ((matrix.setBar 0 0x10100 0).curFetch (.glob 8 0 false) 0).base 0 64 with
    | .ok l _ => (l.take 2, l.length) | _ => ([], 0)) = ([(0x20040, false), (0x20080, false)], 64) := by decide
theorem witness_AccumulatorStores_write : let q : ZStore := ⟨0, 0, some 9, [(64, 7), (128, 8)], 0, 0, [], [], none, 0, 0⟩
    State.zstores { matrix with zstores := [q] } = [q] ∧ State.cmpHeld { matrix with zstores := [q] } = false ∧ q.units = [(64, 7), (128, 8)] ∧ [((128 : Nat), (8 : Vec))] ≠ [] ∧
    State.zstores { matrix with zstores := [{ q with seg := none, units := [] }] } = [{ q with seg := none, units := [] }] := by decide
theorem witness_MatrixOperandFaults : matrix.ctx.mcnt ≤ (2 : BitVec 3).toNat ∧ (1 : BitVec 3).toNat < matrix.ctx.mcnt ∧
    ufield (8 : Word) 3 13 ≠ 0 ∧ (matrix.curFetch (.seg 3) 0).base = .seg none 0 0 ∧
    (matrix.curFetch (.seg 1) 6).base = .seg (some 9) 0x100 tile0.born ∧ (tile0.size : Int) < (0x100 : Word).toInt + 64 ∧
    ¬ (tile0.size : Int) < (64 : Word).toInt + 64 ∧ (tile0.size : Int) < (65 : Word).toInt + 64 := by decide

/-! ### Traps -/

/-- `base` with a handler at the quire, its frame at 0x10100, every class of causes delegated; a9 was −8. -/
def handling : State := (base.modCtx (fun c => { c with hframe := 0x10100, hmask := 31, hpc := 0x10042 })).setBar 0 0x10100 0
def swtrap : TrapInfo := ⟨.swTrap, false, 0, 19, 0⟩
def aside0 : Aside := ⟨0x10040, 0x10040, [], [], [], ⟨[], []⟩, 3, 3, [], .swTrap, 0x10100, ⟨0x10100, 31, 0x10042⟩⟩
/-- In the handler, with 7 as the frame's a60. -/
def inHandler : State := { handling.modCtx (fun c => { c with active := true, aside := some aside0 }) with mem := [(0x20128, 7)] }

theorem test_trap : (match exec (.trap 0 false 19) handling with
    | .next t => (t.mark, t.ctx.pc, t.ctx.active) | _ => (.clear, 0, false)) = (.trapped swtrap, 0x10042, true) ∧
    (match exec (.trap 2 false 19) handling with | .next t => t.mark | _ => .trapped swtrap) = .clear := by decide
-- The cause word of SWTRAP 19 in slot 0 is 0x0013_0040 (R371), in a61 and in the frame at 0x08; APC is the next bundle.
theorem test_trap_frame : (match exec (.trap 0 false 19) handling with
    | .next t => (t.ctx.regs.ra 61, t.memWord 0x20108, t.ctx.regs.ra 62, t.memWord 0x20110) | _ => (0, 0, 0, 0)) =
    (0x130040, 0x130040, 0x10042, 0x10042) := by decide
theorem test_trapSet : (match exec (.trapSet 6 3 2) base with
    | .next t => (t.ctx.hframe, t.ctx.hmask, t.ctx.hpc) | _ => (0, 0, 0)) = (0x100, 3, 0x10044) ∧
    causeOf (.trapSet 5 3 2) base = some .misalign := by decide
theorem test_trapClr : (match exec .trapClr handling with | .next t => t.ctx.hmask | _ => 1) = 0 := by decide
theorem test_eret : (match exec .eret inHandler with
    | .next t => (t.ctx.pc, t.ctx.regs.ra 60, t.ctx.active, t.ctx.an) | _ => (0, 0, true, 0)) = (0x10040, 7, false, 3) ∧
    causeOf .eret base = some .badEret := by decide
theorem test_eretGo : (match exec (.eretGo 1) inHandler with | .next t => t.ctx.pc | _ => 0) = 0x10042 := by decide
theorem test_trapEntry : (match exec (.trapEntry swtrap) handling with
    | .next t => (t.ctx.pc, t.ctx.regs.ra 60) | _ => (0, 0)) = (0x10042, 0x10100) := by decide
theorem test_trapToControlCore : (match exec (.trapToControlCore ⟨.badEret, false, 0, 0, 0⟩) base with
    | .next t => (t.ctx.phase, t.faultLog.length) | _ => (.free, 0)) = (.retiring, 1) := by decide

theorem witness_TrapInstructions : handling.rd.rk 2 = false ∧ handling.rd.rk 0 ≠ false ∧ handling.entryBusy = false ∧
    base.Clean [6] ∧ (base.rd.ra 6).toNat < 2 ^ 56 ∧ (base.rd.ra 6).toNat % 256 = 0 ∧ (base.rd.ra 5).toNat % 256 ≠ 0 ∧
    2 ^ 56 ≤ (base.rd.ra 9).toNat := ⟨by decide, by decide, by decide, clean _, by decide⟩
theorem witness_TrapInstructions_entry : let u : State := { handling with ctx := { handling.ctx with
      pc := handling.ctx.npc, an := handling.ctx.an + 1, aview := none } }
    handling.parked = [] ∧ handling.ctx.active = false ∧ handling.ctx.hmask.getLsbD 1 = true ∧
    (u.traceRec 3 handling.ctx.npc 0x130040).frameAt handling.ctx.hframe .write = (.ok 0x20100 tlb0, u) ∧
    u.frameBusy 0x20100 = false ∧ u.layerOff 0x20100 = false ∧ u.targetFault handling.ctx.hpc = none := by decide
theorem witness_HandlerEntry : handling.ctx.phase = .running ∧ handling.frozen = false ∧ handling.ctx.delegates swtrap = true ∧ handling.parked = [] ∧
    handling.reqs = [] ∧ handling.ctx.handFor swtrap = ⟨0x10100, 31, 0x10042⟩ ∧
    (handling.traceRec 3 handling.ctx.pc swtrap.word).frameAt 0x10100 .write = (.ok 0x20100 tlb0, handling) ∧
    handling.frameBusy 0x20100 = false ∧
    (0x20100 : Nat) % 256 = 0 ∧ (∀ x, x < 72 → handling.layerOff (0x20100 + x) = false) ∧
    handling.targetFault handling.ctx.hpc = none := by decide
theorem witness_CauseWord : swtrap.slot < 16 ∧ (⟨.nonInv, true, 15, 0xFFFF, 0⟩ : TrapInfo).word = 0xFFFF1F38 := by decide
theorem witness_ControlCoreTraps : base.ctx.phase = .running ∧ base.ctx.delegates ⟨.badEret, false, 0, 0, 0⟩ = false ∧
    base.ctx.task = some task0 ∧ base.parked = [] ∧ Cause.kind .badEret = .stop ∧ (∃ b, Cause.kind .swTrap = .delegable b) ∧
    base.ctx.delegates swtrap = false ∧ base.ctx.delegates ⟨.pgAbsent, false, 3, 0, 0x50000⟩ = false ∧
    base.ctx.delegates ⟨.brk, false, 0, 0, 0⟩ = false := ⟨by decide, by decide, by decide, by decide, by decide, ⟨1, rfl⟩, by decide⟩
theorem witness_HandlerReturn : base.ctx.active = false ∧ inHandler.ctx.active = true ∧ inHandler.realigned = true ∧
    (lagged.modCtx (fun c => { c with active := true })).realigned = false ∧
    inHandler.frameAt aside0.frame .read = (.ok 0x20100 tlb0, inHandler) ∧ inHandler.ctx.aside = some aside0 ∧ inHandler.frameBusy 0x20100 = false ∧
    (∀ i, i < 4 → inHandler.layerOff (0x20100 + 40 + 8 * i) = false) ∧ inHandler.ctx.flight = [] ∧
    aside0.lag = [] ∧ inHandler.ctx.hwrote = [] ∧
    inHandler.targetFault (inHandler.ctx.pc + (1 : BitVec 23).signExtend 64 * 2) = none ∧ aside0.xpend = [] := by decide

/-! ### The end of a task, barriers, watches and shapes -/

/-- The running task's launch, with its JCB kept by the dispatcher. -/
def launch0 : Launch := ⟨0, 0, 0x3000, 0, some job0, none, 4, 4, [], [], [], [], .ok, false, false, false, [], true, none, false, []⟩
def kept0 : KeptJcb := ⟨1, 0x4000, 4, 0, 0, false⟩
def growing : State := { base with launches := [launch0], kept := [kept0] }

theorem test_retire : (match exec .retire base with | .next t => t.ctx.phase | _ => .free) = .retiring := by decide
theorem test_trig : (match exec .trig base with
    | .next t => (t.ctx.task.map (·.trig), t.reqs.map (·.act)) | _ => (none, [])) = (some true, [.trig]) := by decide
theorem test_wvis : (match exec .wvis base with | .next t => t.ctx.task.map (·.inp) | _ => none) = some false := by decide
-- Three tasks more: the first new index is 4 (R359).
theorem test_grow : (match exec (.grow 7) growing with
    | .next t => (t.ctx.regs.ra 7, t.launches.map (·.nx), t.kept.map (·.exp)) | _ => (0, [], [])) = (4, [7], [7]) ∧
    aAfter (.grow 5) (growing.setA 5 0xFFFF) 5 = some (-1) := by decide
theorem test_bara : (match exec (.bara 2 6 .part) base with | .next t => t.reqs.map (·.act) | _ => []) = [.arrive 2 0x100] := by
  decide
theorem test_barw : (match exec (.barw 2 6 .part) { base with bars := [(2, 0x100)] } with | .next t => t.mark | _ => .clear) = base.mark ∧
    (match exec (.barw 2 6 .part) { base with bars := [(2, 0xFF)] } with | .next t => t.mark | _ => .clear) =
      .waited .barrier := by decide
theorem test_fence : (match exec (.fence .acqRel .part) loading with | .next t => t.mark | _ => .clear) = .waited .engine ∧
    (match exec (.fence .acqRel .part) { base with l1 := [⟨4, 0⟩] } with | .next t => t.l1 | _ => [⟨4, 0⟩]) = [] := by decide
theorem test_clrd : (match exec (.clrd (.reg 5) glob0) { base.setBar 0 0x10100 0 with mem := [(0x20040, 9)] } with
    | .next t => (t.ctx.regs.ra 5, t.ctx.watch.lines) | _ => (0, [])) = (9, [(0x20040 / 128, 0)]) := by decide
theorem test_cmstStage : (match exec (.cmstStage ⟨2, 1⟩ glob0) (queued (OutQ.id ⟨2, 1⟩)) with
    | .next t => t.ctx.watch.staged | _ => []) = [⟨0x20040, 5, false, 0⟩] := by decide
def watching (staged : List Staged) : State := (base.setBar 0 0x10100 0).modCtx (fun c => { c with
  watch := { Watch.zero with lines := [(0x20040 / 128, 0)], staged := staged } })
theorem test_cmstCommit : (match exec (.cmstCommit 5 .plain .ctx) (watching [⟨0x20040, 7, false, 0⟩]) with
    | .next t => (t.ctx.regs.ra 5, t.mem) | _ => (9, [])) = (0, [(0x20040, 7)]) ∧
    aAfter (.cmstCommit 5 .plain .ctx) (watching [⟨0x20080, 7, false, 0⟩]) 5 = some 5 := by decide
theorem test_cmab : (match exec .cmab (watching []) with | .next t => t.ctx.watch | _ => (watching []).ctx.watch) = Watch.zero := by
  decide
theorem test_shld : (match exec (.shld .ssh ⟨8, 0, 0, 0⟩ 0) base with
    | .next t => t.reqs.map (fun q => (q.act, q.width)) | _ => []) = [(.shadow .ssh, 32)] := by decide
theorem test_shst : (match exec (.shst .ssh ⟨8, 0, 0, 0⟩ 0) (base.modRegs (fun r => { r with sshs := [(0, 5)] })) with
    | .next t => t.reqs.map (fun q => (q.act, q.width)) | _ => []) = [(.store 5 false, 32)] := by decide

theorem witness_TaskEnds : base.ctx.task = some task0 := rfl
theorem witness_TriggersAndGrowth : task0.trig = false ∧ ({ task0 with trig := true } : Task).trig = true ∧ task0.erl = [] ∧
    growing.launchBy task0.launch = some launch0 ∧ (growing.rd.ra 0).toNat = 0 ∧ 1 ≤ (growing.rd.ra 7).toNat ∧
    launch0.nx + (growing.rd.ra 7).toNat ≤ 65536 ∧ 65536 < launch0.nx + 65533 ∧ task0.cmpw = false ∧ task0.dim2 = false ∧
    growing.keptAt task0.job.asid task0.ljcb = some kept0 := by decide
theorem witness_TriggersAndGrowth_wait : growing.allTriggered 0 job0 0x4000 = false ∧
    State.allTriggered { base with kept := [{ kept0 with done := true }] } 0 job0 0x4000 = true := by decide
theorem witness_BarriersAndFences : base.Clean [6] ∧ Scope.part ≠ .ctx ∧ ((0x100 : Word) - base.rd.ra 6).toInt = 0 ∧
    ((0xFF : Word) - base.rd.ra 6).toInt < 0 ∧ base.cmpHeld = false ∧ MemOrd.acqRel ≠ .plain ∧ (∃ q ∈ loading.reqs, q.ctx = loading.cur ∧ q.kind ≠ kindUN) ∧
    base.reqs = [] := ⟨clean _, by decide⟩
theorem witness_WatchedCommits : base.globReady (base.rd.addr glob0.a) 8 .read 0x20040 tlb0 base ∧
    base.firstAt 0x20040 8 tlb0.kind .plain ∧ base.memPoisoned 0x20040 8 = false ∧ base.layerOff 0x20040 = false ∧
    base.ctx.watch.lines = [] ∧ base.watchesIn (base.homeSlice 0x20040) < 64 ∧ (∃ v, (0x20040 / 128, v) ∈ (watching []).ctx.watch.lines) ∧
    (queued (OutQ.id ⟨2, 1⟩)).ctx.watch.staged.length < 8 ∧ base.ctx.watch.bare = [] ∧ base.reqs = [] ∧
    8 ≤ (List.replicate 8 (⟨0, 0, false, 0⟩ : Staged)).length :=
  ⟨by unfold State.globReady; decide, by unfold State.firstAt; decide, by decide, by decide, by decide, by decide, ⟨0, by decide⟩,
    by decide⟩
-- A line that is not watched yet, with four in the set, and with none free at its slice; and one of another slice.
theorem witness_WatchedCommits_join : let w : Watch := { Watch.zero with lines := [(1, 0), (2, 0), (3, 0)], bare := [4] }
    4 ≤ w.lines.length + w.bare.length ∧ 0x20040 / 128 ∉ w.bare ∧ base.watched (0x20040 / 128) = false ∧
    64 ≤ State.watchesIn { base with l2Watches := [(base.homeSlice 0x20040, 64)] } (base.homeSlice 0x20040) ∧
    base.homeSlice (128 * 0x20) ≠ base.homeSlice 0x20040 := by decide
theorem witness_ShapeBlocks : base.Clean (GAddr.areads ⟨8, 0, 0, 0⟩) ∧ base.reqs = [] ∧
    base.globReady (base.rd.addr ⟨8, 0, 0, 0⟩) 32 .read 0x20040 tlb0 base ∧
    base.globReady (base.rd.addr ⟨8, 0, 0, 0⟩) 32 .write 0x20040 tlb0 base :=
  ⟨clean _, by decide, by unfold State.globReady; decide, by unfold State.globReady; decide⟩
theorem witness_HandlerServed : handling.entryServed (handling.ctx.handFor swtrap) = true ∧
    handling.pageServed handling.ctx.hframe = true ∧ inHandler.pageServed aside0.frame = true ∧
    inHandler.shadowBusy .msh = false ∧ (noWalker handling).pageServed 0x10100 = false ∧
    (noWalker inHandler).pageServed aside0.frame = false ∧ (noWalker inHandler).realigned = true ∧
    inHandler.targetOk (inHandler.ctx.pc + (1 : BitVec 23).signExtend 64 * 2) := by
  unfold State.targetOk; decide +kernel
theorem test_entryWaits : (match exec (.trapEntry swtrap) (noWalker handling) with
    | .next t => (t.mark, t.ctx.pend, t.misses.length) | _ => (.clear, none, 0)) = (.waited .entry, some swtrap, 65) := by
  decide +kernel
/-- The release that a TRIG asked for is performed, once for the task. -/
def triggering (l : Launch) : State := { base with reqs := [{ store0 with act := .trig }], launches := [l] }
theorem witness_TriggersAndGrowth_trig : (triggering launch0).mayPerform 0 = some { store0 with act := .trig } ∧
    ((triggering launch0).ctxAt 0).task = some task0 ∧ launch0.id = task0.launch ∧ task0.x + launch0.nx * task0.y ∉ launch0.trigd ∧
    task0.x + launch0.nx * task0.y ∈ ({ launch0 with trigd := [0] } : Launch).trigd := by decide
theorem test_secondTrig : (match exec (.storePerformed 0) (triggering launch0) with
      | .next t => (t.posts.map (·.lvl), t.launches.map (·.trigd)) | _ => ([], [])) = ([5], [[0]]) ∧
    (match exec (.storePerformed 0) (triggering { launch0 with trigd := [0] }) with
      | .next t => (t.posts.map (·.lvl), t.launches.map (·.trigd)) | _ => ([], [])) = ([], [[0]]) := by decide +kernel
/-- A launch whose JCB lies in memory, at 0x20400, and one whose tasks have termination weights. -/
def growingIn (cmpw : Bool) : State := { base.modCtx (fun c => { c with task := some { task0 with ljcb := 0x10400, cmpw := cmpw, weight := 100 } }) with
  launches := [launch0], mem := [(0x20408, 4), (0x20420, 4)] }
theorem test_growIn : (match exec (.grow 7) ((growingIn false).setBar 0 0x10100 0) with
    | .next t => (t.ctx.regs.ra 7, t.memWord 0x20408, t.memWord 0x20420) | _ => (0, 0, 0)) = (4, 7, 7) ∧
    (match exec (.grow 7) ((growingIn true).setBar 0 0x10100 0) with
      | .next t => (t.memWord 0x20408, t.ctx.task.map (·.weight), t.launches.map (fun l => l.weights.get 0 5)) | _ => (0, none, [])) =
      (4, some 25, [25]) := by decide +kernel
theorem witness_TriggersAndGrowth_memory : (growingIn true).keptAt 1 0x10400 = none ∧ 1 ≤ 100 / (3 + 1) ∧
    (growingIn true).translate 1 task0.job.root 0x10400 .write = (.ok 0x20400 tlb0, growingIn true) ∧
    (growingIn true).layerOff 0x20400 = false ∧ launch0.nx + 3 ≤ 65536 := by decide +kernel

/-! ### Cluster slots -/

def hd : VHd := ⟨0, 0, false⟩
/-- `base` with vector registers 0 to 5 of cluster 0 and predicates p1 and p2 set, and 8 at PSEL, p = 5. Lanes 0 to 3: r0 =
2^31 − 1, −2^31, −3, 5; r1 = 1, −1, 2, 33; r2 = 1.5, NaN, −0, infinity; r3 = 2.25, 1, 0, −infinity; r4 as words 2 and 5;
r5 as words 3 and 2. -/
def lanes : State := { base with
  v := [(0, 0x5FFFFFFFD800000007FFFFFFF), (1, 0x2100000002FFFFFFFF00000001),
    (2, 0x7F800000800000007FC000013FC00000), (3, 0xFF800000000000003F80000040100000),
    (4, 0x00000000000100000000000000000002), (5, 0x00000000000000020000000000000003)]
  ctx := { base.ctx with p := [(1, 5), (2, 6)], regs := { regs0 with psel := 8 } } }
def o2 : V2 := ⟨hd, .reg 9, .reg 0, .reg 1⟩
def o1 : V1 := ⟨hd, .reg 9, .reg 0⟩
def f2 : V2 := ⟨hd, .reg 9, .reg 2, .reg 3⟩
def f1 : V1 := ⟨hd, .reg 9, .reg 2⟩
def o3 : V3 := ⟨hd, .reg 9, .reg 0, .reg 1, .reg 1⟩
def w2 : V2 := ⟨hd, .reg 9, .reg 4, .reg 5⟩
def w1 : V1 := ⟨hd, .reg 9, .reg 4⟩
/-- Lanes of the result that the slot puts in flight. -/
def lanesOf (i : Instr) (s : State) (l : List Nat) : Option (List Lane) :=
  match exec i s with
  | .next t => t.ctx.flight.getLast?.map (fun f => l.map (lane f.val))
  | _ => none
/-- Word 0 of the result. -/
def wordOf (i : Instr) (s : State) : Option Word :=
  match exec i s with
  | .next t => t.ctx.flight.getLast?.map (fun f => word64 f.val 0)
  | _ => none

theorem test_integerLanes : lanesOf (.iadd o2) lanes [0, 1, 2, 3] = some [0x7FFFFFFF, 0x80000000, 0xFFFFFFFF, 38] ∧
    lanesOf (.isub o2) lanes [0, 1] = some [0x7FFFFFFE, 0x80000001] ∧ lanesOf (.imin o2) lanes [0, 2] = some [1, 0xFFFFFFFD] ∧
    lanesOf (.imax o2) lanes [1, 3] = some [0xFFFFFFFF, 33] ∧ lanesOf (.vWmin o2) lanes [2] = some [2] ∧
    lanesOf (.vWmax o2) lanes [2] = some [0xFFFFFFFD] ∧ lanesOf (.iabs o1) lanes [1, 2] = some [0x7FFFFFFF, 3] ∧
    lanesOf (.iadds o2) lanes [0] = some [0x7FFFFFFF] ∧ lanesOf (.isubs o2) lanes [2] = some [0xFFFFFFFB] ∧
    lanesOf (.wadds o2) lanes [1] = some [0xFFFFFFFF] ∧ lanesOf (.wsubs o2) lanes [3] = some [0] := by decide +kernel
theorem test_bitLanes : lanesOf (.vAnd o2) lanes [3] = some [1] ∧ lanesOf (.vOr o2) lanes [3] = some [37] ∧
    lanesOf (.vXor o2) lanes [3] = some [36] ∧ lanesOf (.andn o2) lanes [3] = some [4] ∧
    lanesOf (.vShl o2) lanes [0, 3] = some [0xFFFFFFFE, 10] ∧ lanesOf (.vShr o2) lanes [1, 3] = some [1, 2] ∧
    lanesOf (.vSra o2) lanes [2] = some [0xFFFFFFFF] ∧ lanesOf (.rol o2) lanes [1, 2] = some [0x40000000, 0xFFFFFFF7] ∧
    lanesOf (.vPopc o1) lanes [0, 3] = some [31, 2] ∧ lanesOf (.vClz o1) lanes [0, 3] = some [1, 29] ∧
    lanesOf (.sel o3) lanes [0, 4] = some [0x7FFFFFFF, 0] ∧ lanesOf (.mov o1) lanes [3] = some [5] ∧
    lanesOf (.vBfx ⟨hd, .reg 9, .reg 0, .scalar 5⟩) lanes [0] = some [0] ∧ lanesOf (.vBfi o3) lanes [3] = some [33] := by
  decide +kernel
theorem test_productLanes : lanesOf (.imul o2) lanes [0, 1, 3] = some [0x7FFFFFFF, 0x7FFFFFFF, 165] ∧
    lanesOf (.imulh o2) lanes [1, 2] = some [0, 0xFFFFFFFF] ∧ lanesOf (.wmulh o2) lanes [1] = some [0x7FFFFFFF] ∧
    lanesOf (.vdot4 false ⟨hd, .reg 9, .reg 0, .reg 0, .imm 1⟩) lanes [2, 3] = some [13, 26] ∧
    lanesOf (.vdot4 true ⟨hd, .reg 9, .reg 0, .reg 0, .imm 1⟩) lanes [3] = some [26] := by decide +kernel
theorem test_predicateLanes : lanesOf (.laneCompare .ilt hd 3 (.reg 0) (.reg 1)) lanes [0, 1] = some [0, 0xFFFFFFFF] ∧
    lanesOf (.laneCompare .funord hd 3 (.reg 2) (.reg 3)) lanes [0, 1] = some [0, 0xFFFFFFFF] ∧
    lanesOf (.pand ⟨hd, 3, 1, 2⟩) lanes [0, 2] = some [0, 0xFFFFFFFF] ∧
    lanesOf (.por ⟨hd, 3, 1, 2⟩) lanes [0, 3] = some [0xFFFFFFFF, 0] ∧
    lanesOf (.pxor ⟨hd, 3, 1, 2⟩) lanes [1, 2] = some [0xFFFFFFFF, 0] ∧
    lanesOf (.pnot hd 3 1) lanes [0, 1] = some [0, 0xFFFFFFFF] ∧ lanesOf (.pany hd 3 1) lanes [15] = some [0xFFFFFFFF] ∧
    lanesOf (.pcnt hd (.reg 9) 1) lanes [15] = some [2] := by decide +kernel
theorem test_laneMoves : lanesOf (.lperm o2) lanes [0, 3] = some [0x80000000, 0x80000000] ∧
    lanesOf (.lbc o2) lanes [7] = some [0x80000000] ∧ lanesOf (.lrot o2) lanes [2] = some [5] ∧
    lanesOf (.xmv hd (.reg 9) (.reg 1) 0) lanes [3] = some [33] ∧
    lanesOf (.xbc hd (.reg 9) (.reg 1) 0 3) lanes [9] = some [33] := by decide +kernel
theorem test_conversions : lanesOf (.cvt .f32i32 o1) lanes [0, 2] = some [0x4F000000, 0xC0400000] ∧
    lanesOf (.cvt .i32f32 f1) lanes [0, 1, 3] = some [2, 0, 0x7FFFFFFF] ∧
    lanesOf (.cvtWiden .bf16 o1 0) lanes [7] = some [0] ∧
    lanesOf (.cvtNarrow .bf16 hd (.reg 9) (.reg 2) (.imm 0) 0) lanes [0] = some [0x7FC03FC0] ∧
    lanesOf (.qntE2m1b f2) lanes [4] = some [0x7FFF] ∧
    lanesOf (.dqntE2m1b ⟨hd, .reg 9, .reg 0, .reg 0⟩ 0) lanes [0] = some [0x7FC00000] := by decide +kernel
theorem test_floats : lanesOf (.fadd f2) lanes [0, 1, 2, 3] = some [0x40700000, 0x7FC00000, 0, 0x7FC00000] ∧
    lanesOf (.fsub f2) lanes [0, 2] = some [0xBF400000, 0x80000000] ∧
    lanesOf (.fmul f2) lanes [0, 2] = some [0x40580000, 0x80000000] ∧
    lanesOf (.ffma ⟨hd, .reg 9, .reg 2, .reg 3, .reg 3⟩) lanes [0] = some [0x40B40000] ∧
    lanesOf (.ffms ⟨hd, .reg 9, .reg 2, .reg 3, .reg 3⟩) lanes [0] = some [0x3F900000] ∧
    lanesOf (.fnma ⟨hd, .reg 9, .reg 2, .reg 3, .reg 3⟩) lanes [0] = some [0xBF900000] ∧
    lanesOf (.fdiv ⟨hd, .reg 9, .reg 3, .reg 2⟩) lanes [0, 2] = some [0x3FC00000, 0x7FC00000] ∧
    lanesOf (.fsqrt ⟨hd, .reg 9, .reg 3⟩) lanes [0, 3] = some [0x3FC00000, 0x7FC00000] := by decide +kernel
theorem test_floatSelections : lanesOf (.fmin f2) lanes [0, 1, 2] = some [0x3FC00000, 0x3F800000, 0x80000000] ∧
    lanesOf (.fmax f2) lanes [0, 2] = some [0x40100000, 0] ∧ lanesOf (.fabs f1) lanes [1, 2] = some [0x7FC00000, 0] ∧
    lanesOf (.fneg f1) lanes [0, 2] = some [0xBFC00000, 0] ∧ lanesOf (.fcps f2) lanes [2, 3] = some [0, 0xFF800000] ∧
    lanesOf (.fclass f1) lanes [0, 1, 2, 3] = some [0x40, 0x100, 8, 0x80] := by decide +kernel
theorem test_reductions : lanesOf (.vred .iadd o1) lanes [0, 15] = some [1, 1] ∧
    lanesOf (.vred .imin o1) lanes [5] = some [0x80000000] ∧ lanesOf (.vred .fmax ⟨hd, .reg 9, .reg 3⟩) lanes [6] =
      some [0x40100000] := by decide +kernel
/-- Exact values of the functions: 1/2, 2^(−1/2) of 4, 2^3, log2 of 8, and of the special arguments of R248. -/
theorem test_specialFunctions : lanesOf (.frcp ⟨hd, .reg 9, .imm 2⟩) lanes [0] = some [0x3F000000] ∧
    lanesOf (.frsq ⟨hd, .reg 9, .imm 4⟩) lanes [0] = some [0x3F000000] ∧
    lanesOf (.fexp2 ⟨hd, .reg 9, .imm 3⟩) lanes [0] = some [0x41000000] ∧
    lanesOf (.flog2 ⟨hd, .reg 9, .imm 8⟩) lanes [0] = some [0x40400000] ∧
    lanesOf (.fsin ⟨hd, .reg 9, .imm 0⟩) lanes [0] = some [0] ∧
    lanesOf (.fcos ⟨hd, .reg 9, .imm 0⟩) lanes [0] = some [0x3F800000] ∧
    lanesOf (.ftanh ⟨hd, .reg 9, .imm 0⟩) lanes [0] = some [0] ∧
    lanesOf (.fsigm ⟨hd, .reg 9, .imm 0⟩) lanes [0] = some [0x3F000000] ∧
    lanesOf (.specialFunction16 .rcp false ⟨hd, .reg 9, .reg 2⟩) lanes [3] = some [0x00007F80] := by decide +kernel
/-- Under p = 5: 2 + 3 is 5, the digit 1 at place 1; 1/2 is 313, the digits 3, 2, 2, 2; 2/3 is 417 − 0 = 2·417 mod 625 = 209,
digits 4, 1, 3, 1. -/
theorem test_rationals : wordOf (.qadd w2) lanes = some 0x10000 ∧ wordOf (.qsub w2) lanes = some 0x4000400040004 ∧
    wordOf (.qneg w1) lanes = some 0x4000400040003 ∧ wordOf (.qmul w2) lanes = some 0x10001 ∧
    wordOf (.qinv ⟨hd, .reg 9, .imm 2⟩) lanes = some 0x2000200020003 ∧
    wordOf (.qdiv ⟨hd, .reg 9, .imm 2, .imm 3⟩) lanes = some 0x1000300010004 ∧
    wordOf (.qenc false ⟨hd, .reg 9, .imm 1, .imm 2⟩) lanes = some 0x2000200020003 ∧
    wordOf (.qenc true ⟨hd, .reg 9, .imm 7, .imm 0⟩) lanes = some 0x10002 := by decide +kernel
theorem test_rationalDigits : wordOf (.qcmpeq hd 3 (.reg 4) (.reg 4)) lanes = some 0xFFFFFFFFFFFFFFFF ∧
    wordOf (.qdig w1 0) lanes = some 2 ∧ wordOf (.qsetd ⟨hd, .reg 9, .reg 4, .imm 4⟩ 1) lanes = some 0x40002 ∧
    wordOf (.qdec false w1) lanes = some 2 ∧ wordOf (.qdec true w1) lanes = some 1 ∧
    wordOf (.qcvt w1) lanes = some 0x40000000 ∧ causeOf (.qinv ⟨hd, .reg 9, .imm 0⟩) lanes = some .nonInv := by decide +kernel

def slot3 : List VSrc := [.reg 0, .reg 1, .reg 5]
theorem witness_ClusterSlots : lanes.slotFree hd (.vec (.reg 639)) slot3 ∧ lanes.slotFree hd (.pred 3) [] ∧
    lanes.slotFree ⟨0, 0, true⟩ (.vec .bq) [.latch .ia 3, .scalar 5, .imm 200] := by
  refine ⟨⟨?_, .inr ⟨?_, ?_⟩⟩, ⟨?_, .inr ⟨?_, ?_⟩⟩, ⟨?_, .inl rfl⟩⟩
  · intro x hx; simp only [slot3, List.mem_cons, List.not_mem_nil, or_false] at hx
    rcases hx with rfl | rfl | rfl <;> exact ⟨by decide, rfl⟩
  · intro n hn; injection hn with hn; injection hn with hn; subst hn; decide
  · intro id hid; simp [SlotDst.queue, dstQueue] at hid
  · intro x hx; simp at hx
  · intro n hn; simp at hn
  · intro id hid; simp [SlotDst.queue] at hid
  · intro x hx; simp only [List.mem_cons, List.not_mem_nil, or_false] at hx
    rcases hx with rfl | rfl | rfl <;> first | exact trivial | rfl
theorem witness_ClusterOperands : (queued 3).queue (6 * (0 : BitVec 3).toNat + (3 : BitVec 2).toNat) = [⟨0, 0, .slot, some 5, false⟩] ∧
    (base.modCtx (fun c => { c with vcnt := 9 })).ctx.vcnt ≤ (9 : BitVec 10).toNat ∧
    base.queue (6 * (0 : BitVec 3).toNat + (3 : BitVec 2).toNat) = [] ∧
    base.streamAt base.cur 3 = none := by decide
/-- A word that is no value, one whose digit 0 is zero and one that has an inverse; a fraction decoded. -/
theorem witness_Rationals : ¬ qwordOk 5 0xFFFFFFFFFFFFFFFF ∧ qwordOk 5 0x40000 ∧ ufield 0x40000 0 16 = 0 ∧
    qwordOk (primeOf 8) 0x2000200020003 ∧ qdecode (primeOf 8) 0x2000200020003 = some (1, 2) ∧ qdecode 5 qNV = none ∧
    (lanes.guard hd).getLsbD 0 = true ∧ lanes.ctx.qctl.getLsbD 0 = false ∧ lanes.xPrime = 5 ∧
    (∀ n, n < 8 → (lane (lanes.src 0 .int (.imm 2)) (2 * n)).toInt % (lanes.xPrime : Int) ≠ 0) := by
  unfold qwordOk; decide +kernel
/-- Operands of the special cases of R228, R238, R243 and R248. -/
theorem witness_Floats : f32 0x7F800001 = .nan ∧ f32 0xFF800000 = .inf true ∧ f32 0x80000000 = .fin true 0 (-149) ∧
    fvlt (f32 0x3FC00000) (f32 0x40100000) = true ∧ (0xFF % 256 = 255) ∧ (1 : Nat) ≤ 1 := by decide
/-- A result of lanes 0 and 2 due at bundle 0, for a register, a predicate and a queue. -/
def due (d : FDst) : State := (queued 3).modCtx (fun c => { c with xn := 0, flight := [⟨0, 9, .ia, 0, d, 5, 0x7, false⟩] })
theorem test_resultLanding : (match exec .resultLanding ((due (.reg 639)).modCtx (fun c => { c with lag := [lag0] })) with
    | .next t => (t.v.get 0 639, t.ctx.flight, t.latch.get 0 (latchKey 0 .ia 0)) | _ => (0, [], 0)) = (7, [], 7) := by
  decide +kernel
theorem witness_ResultsLand : (lagged.mayIssue = true ∧ lagged.ctx.latches = none ∧ lagged.ctx.lag ≠ []) ∧
    (∀ d, (due d).ctx.flight = [⟨0, 9, .ia, 0, d, 5, 0x7, false⟩]) ∧ (∀ f ∈ (due (.reg 639)).ctx.flight, f.due ≤ 0) ∧
    (∀ f ∈ (due (.pred 15)).ctx.flight, ¬ f.due ≤ 0 → False) ∧ (due (.queue 3 0)).queue 3 = [entry0] :=
  ⟨by decide, fun _ => rfl, by decide, by decide, by decide⟩
/-- The same with a bundle to issue, on a core whose latches the context's job holds, another job, or the context itself. -/
def landing (d : FDst) : State := { (due d).modCtx (fun c => { c with lag := [lag0] }) with lastJob := some base.ctx.jobKey }
theorem witness_ResultLanding : (landing (.reg 639)).mayIssue = true ∧ (landing (.reg 639)).aFree = true ∧
    (landing (.reg 639)).ctx.latches = none ∧ (landing (.reg 639)).lastJob = some (landing (.reg 639)).ctx.jobKey ∧
    (landing (.reg 639)).ctx.flight = [⟨0, 9, .ia, 0, .reg 639, 5, 0x7, false⟩] ∧ 0 ≤ (landing (.reg 639)).ctx.xn ∧
    ({ landing (.reg 639) with lastJob := some ⟨0, 1, 0, 0⟩ } : State).lastJob ≠ some (landing (.reg 639)).ctx.jobKey ∧
    ((landing (.reg 639)).modCtx (fun c => { c with latches := some ⟨[], []⟩ })).ctx.latches = some ⟨[], []⟩ := by decide
/-- Thirty-two sixes: scale 2^0, the first is the special, 6 in E4M3 (4C), the others code 7 (R215). -/
theorem test_block : lanesOf (.qntE2m1b ⟨hd, .reg 9, .imm 6, .imm 6⟩) lanes [0, 1, 4, 5] =
    some [0x77777778, 0x77777777, 0x4C7F, 0] := by decide +kernel
theorem witness_BlockConversions : ∃ X : Frac, X.n ≠ 0 ∧ ∀ e, e < 16 → (f32 (lane (lanes.src 0 .fp (.imm 6)) e)).toFrac = some X := by
  have h : ∀ e, e < 16 → lane (lanes.src 0 .fp (.imm 6)) e = lane (lanes.src 0 .fp (.imm 6)) 0 := by decide +kernel
  refine ⟨((f32 (lane (lanes.src 0 .fp (.imm 6)) 0)).toFrac).getD ⟨false, 0, 1⟩, by decide +kernel, fun e he => ?_⟩
  rw [h e he]
  decide +kernel
theorem witness_BlockConversions_codes : ∃ y : Frac, 0 < y.d ∧ y.n = 12 * y.d ∧ roundCode .rne 0 y = 7 ∧ roundCode .rtz 0 ⟨false, 23, 2⟩ = 6 :=
  ⟨⟨false, 12, 1⟩, by decide⟩
-- Code 8 is the special: the NaN of E4M3, 1 at the least exponent, and −448 (R214).
theorem test_specials : dequant 8 0x7F00 = .nan ∧ dequant 8 0x017F = .fin false 1 (-9) ∧ dequant 8 0xFE7F = .fin true 14 5 := by
  decide +kernel
/-- One third lies between two neighbours; 2^128 is past the largest finite value (R219, R220). -/
theorem test_rounding : toF32 ⟨.rne, .ieee, false⟩ 0 (.mag false (.rat 1 3)) = 0x3EAAAAAB ∧
    toF32 ⟨.rtz, .ieee, false⟩ 0 (.mag false (.rat 1 3)) = 0x3EAAAAAA ∧
    toF32 ⟨.rdn, .ieee, false⟩ 0 (.mag true (.rat 1 3)) = 0xBEAAAAAB ∧
    toF32 ⟨.rne, .ieee, false⟩ 0 (.mag false (.rat (2 ^ 128) 1)) = 0x7F800000 ∧
    toF32 ⟨.rtz, .ieee, false⟩ 0 (.mag false (.rat (2 ^ 128) 1)) = 0x7F7FFFFF := by decide +kernel
theorem witness_FloatRounding : (1 * 2 ^ 149 < (2 ^ 25 - 1) * 2 ^ 252 * 3 ∧ (2 ^ 25 - 1) * 2 ^ 252 * 1 ≤ 2 ^ 128 * 2 ^ 149) ∧
    (1 * 2 ^ 149 ≤ (2 ^ 24 - 1) * 2 ^ 253 * 3 ∧ (2 ^ 24 - 1) * 2 ^ 253 * 1 < 2 ^ 128 * 2 ^ 149) ∧
    f32 0x3EAAAAAB = .fin false 11184811 (-25) := by decide +kernel
/-- A denominator that 5 divides, active or not, with NIM or without; N of p = 5 is 17. -/
theorem test_qencNonInv : causeOf (.qenc false ⟨hd, .reg 9, .imm 1, .imm 5⟩) lanes = some .nonInv ∧
    wordOf (.qenc false ⟨hd, .reg 9, .imm 1, .imm 5⟩) (lanes.modCtx (fun c => { c with qctl := 1 })) = some 0xFFFFFFFFFFFFFFFF := by
  decide +kernel
theorem witness_RationalConversions : (lane (lanes.src 0 .int (.imm 5)) 0).toInt % (lanes.xPrime : Int) = 0 ∧
    (lanes.guard hd).getLsbD 1 = true ∧ 2 * 17 ^ 2 ≤ (primeOf 8) ^ 4 - 1 ∧ (primeOf 8) ^ 4 - 1 < 2 * (17 + 1) ^ 2 ∧
    qdecode (primeOf 8) 0x30003 = none ∧ qwordOk (primeOf 8) 0x30003 := by
  unfold qwordOk; decide +kernel

/-! ### Expansion, issue, context switches -/

/-- A state in which the next step is the A-half of one literal bundle. -/
def placed (w : Nat) : State := { base.placeWord w with lastJob := some base.ctx.jobKey }
/-- ADD a6, a6, a7 in slot S0 (R294). -/
def addBundle : Nat := 0x011861C000 * 2 ^ 64
def addSlot : Instr := .add ⟨0, 6, 6, 7⟩
/-- The step of a bundle runs its slot: a6 = 0x100 + 3, and the bundle's X-half stands in the lag record. -/
theorem test_bundle : (match step (placed addBundle) with
    | .next t => (t.ctx.regs.ra 6, t.ctx.an, t.ctx.lag.length) | _ => (0, 0, 0)) = (0x103, 2, 1) := by decide +kernel
/-- The same from the state after reset, where the registers are zero: LIH a5, 0x3456. -/
theorem test_firstStep : (match step (State.reset.withFetchWord 104 (0x1814503456 * 2 ^ 64)) with
    | .next t => (t.ctx.regs.ra 5, t.ctx.an) | _ => (0, 0)) = (0x3456, 2) := by decide +kernel
/-- A quire of one dictionary index, and one of an escape without its literal. -/
theorem test_expansion : (match exec .bundleExpansion (base.modCtx (fun c => { c with dlim := 1 })) with
    | .next t => t.mark.isWait | _ => true) = false ∧ causeOf .bundleExpansion base = some .badIndex ∧
    causeOf .bundleExpansion (base.modCtx (fun c => { c with pc := 0x10046 })) = some .noCode ∧
    causeOf .bundleExpansion { base with loopBuf := [{ quire0 with body := [0xFFFF, 0, 0] }] } = some .malformed ∧
    causeOf .bundleExpansion { base with loopBuf := [{ quire0 with hdr := [0] }] } = some .badQuire := by decide +kernel
theorem test_quireFetch : (match exec (.quireFetch 0x10000) base with | .next t => t.loopBuf.head? | _ => none) =
    some quire0 := by decide +kernel

def dictState : State := { base.modCtx (fun c => { c with dlim := 1 }) with dict := [(0, BitVec.ofNat 768 addBundle)] }
def last0 : Quire := { quire0 with hdr := [1, 0x10200, 0, 0, 0, 0, 0, 0], body := [0] }
theorem witness_Expansion : quire0.bad 0 = false ∧ quire0.body[0]? = some 0 ∧ 0 < quire0.cnt ∧
    (oneBundle 1 0 addBundle).bad 0 = false ∧ (oneBundle 1 0 addBundle).body[0]? = some 0xFFFF ∧
    0 + 49 ≤ (oneBundle 1 0 addBundle).cnt ∧ quire0.cnt < 2 + 49 ∧ dictState.entryOf 0 = some (BitVec.ofNat 768 addBundle) ∧
    base.entryOf 0 = none ∧ last0.bad 0 = false ∧ last0.cnt ≤ 1 ∧ last0.next ≠ 0 ∧ base.ctx.phase = .running ∧
    base.ctx.lag = [] ∧ lagged.ctx.lag ≠ [] ∧ (0x10000 : Word).toNat % 512 = 0 := by decide +kernel
/-- A bundle all of ones decodes nowhere, as a literal or as a dictionary entry. -/
theorem witness_NoBundle : (∀ b, decodeBundle (BitVec.allOnes 768) ≠ .ok b) ∧ base.frozen = false ∧
    (oneBundle 1 0 (2 ^ 768 - 1)).bad 0 = false ∧ (oneBundle 1 0 (2 ^ 768 - 1)).body[0]? = some 0xFFFF ∧
    0 + 49 ≤ (oneBundle 1 0 (2 ^ 768 - 1)).cnt ∧ (∀ k : Nat, k < 48 →
      (oneBundle 1 0 (2 ^ 768 - 1)).body[0 + 1 + k]? = some ((BitVec.allOnes 768).extractLsb' (16 * k) 16)) ∧
    ({ quire0 with hdr := [1, 0, 0, 0, 7, 0, 0, 0] } : Quire).bad 0 = true := by
  have h : (match decodeBundle (BitVec.allOnes 768) with | .ok _ => true | .error _ => false) = false := by decide +kernel
  refine ⟨fun b e => ?_, by decide, by decide +kernel, by decide +kernel, by decide +kernel, by decide +kernel, by decide +kernel⟩
  rw [e] at h
  cases h
theorem witness_Expands : ∃ b next t, dictState.expand = .ok (b, next, t) := by
  have h : (match dictState.expand with | .ok _ => true | .error _ => false) = true := by decide +kernel
  split at h
  · exact ⟨_, _, _, by assumption⟩
  · cases h
theorem witness_ExpandTraps : base.expand = .error (.badIndex, 0) ∧
    ({ base with loopBuf := [{ quire0 with body := [0xFFFF, 0, 0] }] } : State).expand = .error (.malformed, 0) := ⟨rfl, rfl⟩
theorem witness_QuireAt : base.quireAt 0x10000 = .ok (quire0, base) ∧
    (base.setBar 0 0x10100 0).quireAt 0x30000 = .error .codeFault := ⟨rfl, rfl⟩

def addHalf : Bundle := ⟨Header.zero, .nop, addSlot, .nop, .nop, .nop, .nop, List.replicate 8 .nop⟩
theorem witness_StepRunsTheDecodedAHalf :
    let s := placed addBundle
    s.agenda = [] ∧ s.inReset = false ∧ s.ctx.yielding = false ∧ s.ctx.quantum < 65536 ∧ s.ctx.quantum % 64 ≠ 63 ∧
    s.mayIssue = true ∧
    s.mark.isWait = false ∧ s.aFree = true ∧ s.ctx.pend = none ∧ s.ctx.lag = [] ∧ s.ctx.latches = none ∧
    s.lastJob = some s.ctx.jobKey ∧ s.ctx.stepTo = none ∧ s.phase = none ∧ (∀ q ∈ s.reqs, q.ctx ≠ s.cur) ∧
    (s.bar 0x80080).getLsbD 13 = false ∧ [addHalf.c, addHalf.s0, addHalf.s1, addHalf.m, addHalf.k].countP (· != .nop) = 1 ∧
    addHalf.mx = .nop ∧ (∀ x ∈ addHalf.v, x = .nop) := by decide +kernel
theorem witness_AddExpands : (placed addBundle).expand = .ok (addHalf, 64 + 98, placed addBundle) := by rfl
theorem witness_AddRuns : slotExec addSlot = exec addSlot ∧ ∃ p, exec addSlot
    { placed addBundle with mark := .clear, ctx := { (placed addBundle).ctx with
      apfx := Header.toPrefix addHalf.hdr, npc := 64 + 98, aview := some (placed addBundle).ctx.regs } } = .next p ∧
    p.mark = .clear := ⟨rfl, _, rfl, rfl⟩
/-- `base` with a bundle whose X-half is IADD in cluster 0. -/
def addLanes : State := { base.modCtx (fun c => { c with an := 2, lag := [{ lag0 with v := [.iadd ⟨⟨0, 0, false⟩, .reg 9, .imm 2, .imm 3⟩] }] })
  with lastJob := some base.ctx.jobKey }
theorem witness_StepRunsTheDecodedXHalf : addLanes.agenda = [] ∧ addLanes.inReset = false ∧ addLanes.ctx.yielding = false ∧
    addLanes.ctx.quantum < 65536 ∧ addLanes.ctx.quantum % 64 ≠ 63 ∧ addLanes.mayIssue = true ∧ addLanes.mark.isWait = false ∧
    addLanes.aFree = true ∧ addLanes.ctx.pend = none ∧ addLanes.ctx.lag.length = 1 ∧
    addLanes.ctx.latches = none ∧ addLanes.lastJob = some addLanes.ctx.jobKey ∧ addLanes.ctx.stepTo = none ∧
    lag0.bun = addLanes.ctx.xn ∧ addLanes.ctx.xpend = [] ∧ addLanes.lpRun = [] ∧ (match step addLanes with
      | .next u => (u.ctx.xn, u.ctx.lag, u.ctx.xpend, u.ctx.flight.map (fun f => lane f.val 0)) | _ => (0, [], [], [])) =
      (2, [], [], [5]) := by decide +kernel

def emptyBundle : Nat := 0
theorem test_halves : (match exec .aHalfIssue (placed 0) with | .next t => (t.ctx.an, t.ctx.lag.length, t.ctx.pc) | _ => (0, 0, 0)) =
      (2, 1, 64 + 98) ∧
    (match exec .xHalfIssue { lagged with lastJob := some base.ctx.jobKey } with | .next t => (t.ctx.xn, t.ctx.lag) | _ => (0, [])) =
      (2, []) := by decide +kernel
def full : State := { base.modCtx (fun c => { c with lag := List.replicate 16 lag0 }) with lastJob := some base.ctx.jobKey }
theorem witness_HalvesIssue : State.reset.mayIssue = false ∧ base.mayIssue = true ∧ 16 ≤ full.ctx.lag.length ∧
    full.lastJob = some full.ctx.jobKey ∧ (placed 0).ctx.lag.length < 16 ∧ lagged.ctx.flight = [] ∧ lagged.ctx.xpend = [] ∧
    lagged.lpRun = [] := by decide +kernel
theorem witness_EmptyExpands : (placed 0).expand = .ok (⟨Header.zero, .nop, .nop, .nop, .nop, .nop, .nop, List.replicate 8 .nop⟩,
    64 + 98, placed 0) := by rfl

/-- Context 1 is ready beside context 0, which yields. -/
def two : State := { base with others := [(1, { base.ctx with regs := { regs0 with a := [(5, 1)] } })] }
theorem test_contextSwitches :
    (match exec .yield (two.modCtx (fun c => { c with yielding := true })) with | .next t => (t.cur, t.ctx.regs.ra 5) | _ => (0, 0)) =
      (1, 1) ∧
    (match exec .quantumExpiry (two.modCtx (fun c => { c with quantum := 65536 })) with | .next t => t.cur | _ => 0) = 1 ∧
    (match exec .contextSwitch two with | .next t => t.cur | _ => 1) = 0 ∧
    (match exec .contextSwitch { two with ctx := Ctx.zero } with | .next t => t.cur | _ => 0) = 1 := by decide +kernel
theorem witness_ContextSwitches : ({ two with ctx := Ctx.zero } : State).mayLeave = true ∧ two.mayLeave = false ∧
    two.ctx.phase = .running ∧ two.standLL = false ∧ base.nextReady = none ∧ two.nextReady = some 1 ∧ (1 : BitVec 2) ≠ two.cur ∧
    (two.switchTo 1).ctx.task ≠ none ∧ two.holdsCore = false ∧
    ({ two with phase := some ⟨0, 3, 4, 0, 0, [], false, false, none, 0, 0, none, [], []⟩ } : State).holdsCore = true ∧
    (base.modCtx (fun c => { c with stopped := true })).keptLatches = some ⟨[], []⟩ ∧
    ({ base with lastJob := some base.ctx.jobKey } : State).keptLatches = none := by decide +kernel

/-! ### Translation, near stores, slices, links -/

def poke (s : State) (a : Nat) (w : Word) : State := { s with mem := s.mem.setRun memDefault a (natBytes 8 w.toNat) }
/-- The tables of the spec's worked walk. -/
def tables : State := poke (poke (poke (poke (poke { base with tlb := [] } 0x100000 0x101003) 0x101000 0x102003)
  0x102850 0x103003) 0x1031D8 0x104003) 0x104028 0x34560131
theorem test_walk : (match tables.walk 0 0x100000 0x4287654321 with | .leaf t => (t.pa, t.va, t.size) | _ => (0, 0, 0)) =
    (0x34560000, 0x4287650000, 0x10000) := by decide +kernel
theorem witness_PageWalks : tables.memWord 0x100000 = 0x101003 ∧ tables.memWord 0x101000 = 0x102003 ∧
    tables.memWord 0x102850 = 0x103003 ∧ tables.memWord 0x1031D8 = 0x104003 ∧ tables.memWord 0x104028 = 0x34560131 ∧
    (tables.memWord 0x100008).getLsbD 0 = false ∧ walkLevels.length = 5 ∧
    walkLevels[4]? = some (16, 5, 65536, 0) := by decide +kernel
/-- A sealed leaf that no tensor has sealed, and one that one has. -/
def sealedTables : State := poke tables 0x104028 0x345601B1
theorem witness_SealedLeaf : (match sealedTables.rawWalk 0 0x100000 0x4287654321 with | .leaf t => (t.sl, t.ent) | _ => (false, 0)) =
      (true, 0x104028) ∧ (∀ b ∈ sealedTables.bound, 0x104028 ∉ b.ents) ∧
    (match sealedTables.walk 0 0x100000 0x4287654321 with | .bad => true | _ => false) = true ∧
    (match ({ sealedTables with bound := [⟨0, 0, 0x4287650000, 128, false, false, [0x104028]⟩] } : State).walk 0 0x100000 0x4287654321 with
      | .leaf t => t.ent | _ => 0) = 0x104028 := by decide +kernel
def sealedTlb : Tlb := { tlb0 with sl := true }
theorem witness_Translations : 2 ^ 56 ≤ (BitVec.ofNat 64 (2 ^ 56)).toNat ∧ (0x10010 : Word).toNat < 2 ^ 56 ∧
    base.tlb.find? (fun t => t.covers 1 0x10010) = some tlb0 ∧ tlb0.rd = true ∧ tlb0.sl = false ∧ sealedTlb.sl = true ∧
    ({ base with tlb := [{ tlb0 with rd := false }] } : State).tlb.find? (fun t => t.covers 1 0x1FFFF) =
      some { tlb0 with rd := false } := by decide
theorem test_translation : base.translate 1 0x3000 0x10010 .read = (.ok 0x20010 tlb0, base) ∧
    ({ base with tlb := [sealedTlb] } : State).translate 1 0x3000 0x10010 .read =
      (.fault .sealed, { base with tlb := [sealedTlb] }) := by decide +kernel
def cached : State := { base with tlb := [], tcache := [tlb0] }
theorem test_tlb : (match exec (.tlbMiss 1 0x10010) cached with | .next t => t.tlb | _ => []) = [tlb0] ∧
    (match exec (.pageWalk 1 0x4287654321) ((tables.setBar 0 0x10100 0).modCtx (fun c => { c with task := some { task0 with job := { job0 with root := 0x100000 } } })) with
      | .next t => (t.tlb.map (·.pa), t.memWord 0x104028) | _ => ([], 0)) = ([0x34560000], 0x34560131) := by decide +kernel
theorem test_invalidation : (match exec (.xivcGo 0x80001001) base with | .next t => (t.bar 0x10018, t.bar 0x10010) | _ => (0, 0)) =
      (1, 0x1001) ∧ (match exec (.xivcGo 0x80003000) base with | .next t => t.bar 0x10018 | _ => 0) = 2 ∧
    (match exec .invalidationComplete ((base.setBar 0 0x10018 1).setBar 0 0x10010 0x1001) with
      | .next t => (t.tlb, t.bar 0x10018) | _ => ([tlb0], 1)) = ([], 0) := by decide +kernel
theorem witness_TranslationEvents : (∀ t ∈ cached.tlb, t.covers 1 0x10010 = false) ∧
    cached.tcache.find? (fun t => t.covers 1 0x10010) = some tlb0 ∧ (∀ t ∈ tables.tcache, t.covers 1 0x10010 = false) ∧
    base.rootOf 1 = some job0.root ∧ cached.misses = [] ∧ missHeld [] [(⟨1, 0x10010, false⟩ : Miss)] = [⟨1, 0x10010, false⟩] ∧ (0x80001001 : Word).getLsbD 31 = true ∧ (base.bar 0x10018).getLsbD 0 = false ∧
    ((base.setBar 0 0x10018 1).bar 0x10018).getLsbD 0 = true := by decide +kernel

/-- Sixty-four misses before one: no walker serves it yet. -/
theorem witness_WalkersBusy : (let l : List Miss := (List.range 65).map (fun i => ⟨1, BitVec.ofNat 64 (65536 * i), false⟩)
    (missesServed (missHeld [] l)).length = 64 ∧ (missesServed (missHeld [] l)).all (fun m => m.va != 0x400000) = true) := by decide +kernel
/-- Sixty-four misses of other units, and no translation held: a load waits. -/
def walkersBusy : State := { base with tlb := [], tcache := [], misses := (List.range 64).map (fun i => ⟨2, BitVec.ofNat 64 (65536 * i), false⟩) }
theorem witness_LoadWaitsForAWalker : walkersBusy.Clean glob0.a.areads ∧ (walkersBusy.rd.addr glob0.a).toNat < 2 ^ 56 ∧
    (walkersBusy.rd.addr glob0.a).toNat % LdTy.i64.bytes = 0 ∧
    walkersBusy.walkServed walkersBusy.ctx.job.asid (walkersBusy.rd.addr glob0.a) false = false ∧
    walkersBusy.walkServed 2 0x10000 false = true :=
  ⟨clean _, by decide +kernel, by decide +kernel, by decide +kernel, by decide +kernel⟩
/-- Block 7 at die 1, counted 16 times. -/
def counted : State := { base with nsCount := [(8388608 + 7, 16)] }
def near7 : State := { counted with ns := [⟨1, 7, false, false, 0⟩] }
theorem test_nearStores : (match exec (.nsEpochEnd 1) counted with | .next t => t.nsCount | _ => []) = [(8388608 + 7, 8)] ∧
    (match exec (.nsPromotion 1 7) counted with | .next t => t.ns.map (·.block) | _ => []) = [7] ∧
    (match exec (.nsPromotion 1 7) base with | .next t => t.ns | _ => near7.ns) = [] ∧
    (match exec (.nsDemotion 1 7) near7 with | .next t => t.ns | _ => near7.ns) = [] ∧
    (match exec (.nsrsvWrite 1 0x100000003) near7 with | .next t => t.barAt 0 0x21010 | _ => 0) = 3 := by decide +kernel
theorem test_layers : (match exec (.layerPowerDown (.bank 1 31)) near7 with | .next t => t.nsOff.get false 63 | _ => false) = true ∧
    (match exec (.layerPowerDown (.stack 7 true)) base with | .next t => t.hbmSleep.get false 7 | _ => false) = true ∧
    (match exec (.hbmWake 7) { base with hbmSleep := [(7, true)] } with | .next t => t.hbmSleep.get false 7 | _ => true) = false := by
  decide +kernel
theorem witness_NearStores : (∃ b ∈ near7.ns, b.block = 7) ∧ (∀ b ∈ counted.ns, b.block ≠ 7) ∧ counted.nshOf 7 = 0 ∧
    counted.framesUsed 1 < counted.frames 1 ∧ (counted.barAt 0 (0x20000 + 0x1000 * 1)).toNat ≤ counted.countAt 1 7 ∧
    base.countAt 1 7 < (base.barAt 0 (0x20000 + 0x1000 * 1)).toNat ∧
    ({ base with pages := [{ tlb0 with nsh := 2 }] } : State).nshOf 2 = 2 ∧
    near7.ns.find? (fun x => x.die == 1 && x.block == 7) = some ⟨1, 7, false, false, 0⟩ ∧
    near7.nsVictim 1 = some ⟨1, 7, false, false, 0⟩ ∧ near7.jobOn 1 = false := by decide +kernel
def map0 : MapCache := ⟨0, 5, 0, 0⟩
/-- A load of a word into a5 that is next to be performed. -/
def load9 : Req := ⟨0, 0, .areg 5 .i64, 0x20000, 8, 0, 0, false, .plain, .ctx, 0, 0⟩
def loadNext : State := { base with reqs := [load9] }
theorem test_slicesAndLinks : (match exec (.tminvWrite 5) { base with mapCache := [map0] } with | .next t => t.mapCache | _ => [map0]) = [] ∧
    (match exec (.l2wmWrite 3 0x10007) base with | .next t => (t.bar 0x10118, t.bar 0x10110) | _ => (0, 0)) = (7, 0xFFFF) ∧
    (match exec (.cmpctlWrite 2) base with | .next t => t.bar 0x10300 | _ => 1) = 0 ∧
    (match exec (.linkReplay (some 0)) loadNext with | .next t => (t.ctx.regs.aPoison.get false 5, t.reqs) | _ => (false, [])) =
      (true, []) ∧
    (match exec (.linkRetrain ⟨4, none⟩) loadNext with | .next t => t.reqs.length | _ => 0) = 1 ∧
    (match exec .l2WriteBack { base with l2 := [] } with | .next t => t.l2.length | _ => 1) = 0 ∧
    (match exec .l2WriteBackInvalidate loadNext with | .next t => t.reqs.length | _ => 0) = 1 := by decide +kernel
theorem witness_SlicesAndLinks : loadNext.mayPerform 0 = some load9 ∧ load9.ctx = loadNext.cur ∧ load9.ord = .plain ∧
    load9.act = .areg 5 .i64 ∧ (5 : AReg) ≠ 0 ∧ ¬ ((400 : Nat) < 500 ∧ (loadNext.phase ≠ none ∨ loadNext.mark = .waited .barrier)) ∧
    loadNext.lanesUsed.get 0 63 < 4 := by decide
theorem test_laneSpare : (match exec (.linkRetrain ⟨500, some 63⟩) loadNext with | .next t => (t.lanesUsed.get 0 63, t.boot.repairs) | _ => (0, [])) =
    (1, [.lane 63]) := by decide +kernel
/-- A quire whose page is behind a miss that waits. -/
theorem witness_FetchWaits : (noWalker base).ctx.phase = .running ∧ (noWalker base).frozen = false ∧
    (noWalker base).fetchServed (frameOf (noWalker base).ctx.pc) = false ∧ (noWalker base).fetchServed 0x10000 = false ∧
    base.fetchServed (frameOf base.ctx.pc) = true ∧ (noWalker base).mayIssue = true ∧ (noWalker base).ctx.lag.length < 16 := by decide +kernel
/-- The first write through a translation: DT of its entry (R73). -/
def clean0 : Tlb := { tlb0 with dt := false }
def unwritten : State := { base with tlb := [clean0] }
theorem test_firstWrite : (let u := (unwritten.translate 1 0x3000 0x10010 .write).2
    (u.memWord 0x5000, u.tlb.map (·.dt))) = (0x200, [true]) := by decide +kernel
theorem witness_Translations_first : unwritten.tlb.find? (fun t => t.covers 1 0x10010) = some clean0 ∧ clean0.wr = true ∧
    clean0.dt = false ∧ (∀ t, (tables.lookup 0 0x100000 0x4287654321).1 = .leaf t → t.ent = 0x104028) ∧
    tables.flitLost = false ∧ (∀ e ∈ tables.walkReads 0x4287654321 walkLevels 0x100000, tables.layerGone e = false) := by
  refine ⟨by decide, by decide, by decide, fun t h => ?_, by decide +kernel, by decide +kernel⟩
  have g : (match (tables.lookup 0 0x100000 0x4287654321).1 with | .leaf t => t.ent | _ => 0) = 0x104028 := by decide +kernel
  rw [h] at g
  exact g
/-- A leaf of 2 MiB: a miss of one 64 KiB unit of it is that of another (R75). -/
def large : State := poke tables 0x1031D8 0x34400131
theorem witness_TranslationEvents_leaf : (match large.rawWalk 0 0x100000 0x4287600000 with | .leaf t => (t.size, t.covers 0 0x4287654321) | _ => (0, false)) =
      (2097152, true) ∧ (0x4287600000 : Word).toNat / 65536 ≠ (0x4287654321 : Word).toNat / 65536 ∧ (0x4287654321 : Word).toNat < 2 ^ 56 := by
  decide +kernel
theorem test_missOfLeaf : (match exec (.tlbMiss 0 0x4287654321) { large with sysRoot := [(0, 0x100000)], misses := [⟨0, 0x4287600000, false⟩] } with
    | .next t => t.misses.length | _ => 0) = 1 ∧
    (match exec (.tlbMiss 0 0x4287A54321) { large with sysRoot := [(0, 0x100000)], misses := [⟨0, 0x4287600000, false⟩] } with
      | .next t => t.misses.length | _ => 0) = 2 := by decide +kernel
/-- A page hinted to be kept near: its block goes there on its first access. -/
def keepNear : State := { base with nsCount := [(8388608 + 7, 1)], pages := [{ tlb0 with pa := 65536 * 7, nsh := 1 }] }
theorem test_keepNear : (match exec (.nsPromotion 1 7) keepNear with | .next t => t.ns.map (fun b => (b.block, b.keep)) | _ => []) = [(7, true)] := by
  decide +kernel
theorem witness_NearStores_keep : (∀ b ∈ keepNear.ns, b.block ≠ 7) ∧ keepNear.nshOf 7 = 1 ∧ keepNear.framesUsed 1 < keepNear.frames 1 ∧
    1 ≤ keepNear.countAt 1 7 ∧ 2 * (keepNear.ns.countP (fun x => x.die == 1 && x.keep) + 1) ≤ keepNear.frames 1 := by decide +kernel

/-! ### Words written out from the layouts R24 to R30 and the opcode maps R60 to R65, and what they decode to -/

theorem test_controlWords1 :
    decodeSlot (.c 0x0400000001) = .ok (.bra 1) ∧
    decodeSlot (.c 0x0880000003) = .ok (.brf 1 false 3) ∧
    decodeSlot (.c 0x0C00000003) = .ok (.brq false 3) ∧
    decodeSlot (.c 0x1001000003) = .ok (.brp 1 false 3) ∧
    decodeSlot (.c 0x14C6000003) = .ok (.jmpr 1 true 6 3) ∧
    decodeSlot (.c 0x1806000003) = .ok (.call 6 3) ∧
    decodeSlot (.c 0x1CC6000000) = .ok (.ret 1 true 6) ∧
    decodeSlot (.c 0x2086000003) = .ok (.loop 1 6 3) ∧
    decodeSlot (.c 0x2480000003) = .ok (.lend 1 3) ∧
    decodeSlot (.c 0x2806000000) = .ok (.jtab 6 0 0 false) ∧
    decodeSlot (.c 0x2C80000007) = .ok (.trap 1 false 7) ∧
    decodeSlot (.c 0x2C00000007) = .ok (.trap 0 false 7) ∧
    decodeSlot (.c 0x2C06460002) = .ok (.trapSet 6 3 2) ∧
    decodeSlot (.c 0x2C00800000) = .ok (.trapClr) ∧
    decodeSlot (.c 0x3000000000) = .ok (.retire) ∧
    decodeSlot (.c 0x3400000000) = .ok (.trig) :=
  ⟨rfl, rfl, rfl, rfl, rfl, rfl, rfl, rfl, rfl, rfl, rfl, rfl, rfl, rfl, rfl, rfl⟩
theorem test_controlWords2 :
    decodeSlot (.c 0x3800000000) = .ok (.wvis) ∧
    decodeSlot (.c 0x3C00000000) = .ok (.eret) ∧
    decodeSlot (.c 0x3C00800003) = .ok (.eretGo 3) ∧
    decodeSlot (.c 0x40060000C1) = .ok (.bara 1 6 .part) ∧
    decodeSlot (.c 0x44060000C1) = .ok (.barw 1 6 .part) ∧
    decodeSlot (.c 0x4806000000) = .ok (.grow 6) :=
  ⟨rfl, rfl, rfl, rfl, rfl, rfl⟩
theorem test_scalarWords1 :
    decodeSlot (.s 0 0x011461C000) = .ok (.add ⟨0, 5, 6, 7⟩) ∧
    decodeSlot (.s 0 0x021461C000) = .ok (.sub ⟨0, 5, 6, 7⟩) ∧
    decodeSlot (.s 0 0x031461C000) = .ok (.and ⟨0, 5, 6, 7⟩) ∧
    decodeSlot (.s 0 0x041461C000) = .ok (.or ⟨0, 5, 6, 7⟩) ∧
    decodeSlot (.s 0 0x051461C000) = .ok (.xor ⟨0, 5, 6, 7⟩) ∧
    decodeSlot (.s 0 0x061461C000) = .ok (.shl ⟨0, 5, 6, 7⟩) ∧
    decodeSlot (.s 0 0x071461C000) = .ok (.shr ⟨0, 5, 6, 7⟩) ∧
    decodeSlot (.s 0 0x081461C000) = .ok (.sra ⟨0, 5, 6, 7⟩) ∧
    decodeSlot (.s 0 0x091461C000) = .ok (.mul ⟨0, 5, 6, 7⟩) ∧
    decodeSlot (.s 0 0x0A1461C000) = .ok (.mulh ⟨0, 5, 6, 7⟩) ∧
    decodeSlot (.s 0 0x0B1461C000) = .ok (.mulhw ⟨0, 5, 6, 7⟩) ∧
    decodeSlot (.s 0 0x0C1461C000) = .ok (.min ⟨0, 5, 6, 7⟩) ∧
    decodeSlot (.s 0 0x0D1461C000) = .ok (.max ⟨0, 5, 6, 7⟩) ∧
    decodeSlot (.s 0 0x0E1461C000) = .ok (.wmin ⟨0, 5, 6, 7⟩) ∧
    decodeSlot (.s 0 0x0F1461C000) = .ok (.wmax ⟨0, 5, 6, 7⟩) ∧
    decodeSlot (.s 1 0x101460004D) = .ok (.addi ⟨1, 5, 6, 0x4D⟩) :=
  ⟨rfl, rfl, rfl, rfl, rfl, rfl, rfl, rfl, rfl, rfl, rfl, rfl, rfl, rfl, rfl, rfl⟩
theorem test_scalarWords2 :
    decodeSlot (.s 1 0x111460004D) = .ok (.andi ⟨1, 5, 6, 0x4D⟩) ∧
    decodeSlot (.s 1 0x121460004D) = .ok (.ori ⟨1, 5, 6, 0x4D⟩) ∧
    decodeSlot (.s 1 0x131460004D) = .ok (.xori ⟨1, 5, 6, 0x4D⟩) ∧
    decodeSlot (.s 1 0x1414600007) = .ok (.shli ⟨1, 5, 6, 7⟩) ∧
    decodeSlot (.s 1 0x1514600007) = .ok (.shri ⟨1, 5, 6, 7⟩) ∧
    decodeSlot (.s 1 0x1614600007) = .ok (.srai ⟨1, 5, 6, 7⟩) ∧
    decodeSlot (.s 0 0x171400004D) = .ok (.li 0 5 0x4D) ∧
    decodeSlot (.s 0 0x181460004D) = .ok (.lih ⟨0, 5, 6, 0x4D⟩) ∧
    decodeSlot (.s 0 0x191461C04B) = .ok (.lea ⟨0, 5, 6, 7⟩ 3 9) ∧
    decodeSlot (.s 0 0x1A0420C000) = .ok (.cmpeq ⟨0, 1, 2, 3⟩) ∧
    decodeSlot (.s 0 0x1B0420C000) = .ok (.cmplt ⟨0, 1, 2, 3⟩) ∧
    decodeSlot (.s 0 0x1C0420C000) = .ok (.cmpltw ⟨0, 1, 2, 3⟩) ∧
    decodeSlot (.s 0 0x1D04200003) = .ok (.cmpeqi ⟨0, 1, 2, 3⟩) ∧
    decodeSlot (.s 0 0x1E04200003) = .ok (.cmplti ⟨0, 1, 2, 3⟩) ∧
    decodeSlot (.s 0 0x1F1461C003) = .ok (.selk ⟨0, 5, 6, 7⟩ 3) ∧
    decodeSlot (.s 0 0x290420C000) = .ok (.kand ⟨0, 1, 2, 3⟩) :=
  ⟨rfl, rfl, rfl, rfl, rfl, rfl, rfl, rfl, rfl, rfl, rfl, rfl, rfl, rfl, rfl, rfl⟩
theorem test_scalarWords3 :
    decodeSlot (.s 0 0x2A0420C000) = .ok (.kor ⟨0, 1, 2, 3⟩) ∧
    decodeSlot (.s 0 0x2B0420C000) = .ok (.kxor ⟨0, 1, 2, 3⟩) ∧
    decodeSlot (.s 0 0x2C04200000) = .ok (.knot 0 1 2) ∧
    decodeSlot (.s 0 0x2014600243) = .ok (.bfx ⟨0, 5, 6⟩ 3 9) ∧
    decodeSlot (.s 0 0x211461C243) = .ok (.bfi ⟨0, 5, 6, 7⟩ 3 9) ∧
    decodeSlot (.s 0 0x2214600000) = .ok (.clz ⟨0, 5, 6⟩) ∧
    decodeSlot (.s 0 0x2314600000) = .ok (.ctz ⟨0, 5, 6⟩) ∧
    decodeSlot (.s 0 0x2414600000) = .ok (.popc ⟨0, 5, 6⟩) ∧
    decodeSlot (.s 0 0x251400000A) = .ok (.mfsr 0 5 .tidx) ∧
    decodeSlot (.s 0 0x2600600000) = .ok (.mtsr 0 .psel 6) ∧
    decodeSlot (.s 0 0x2714600000) = .ok (.getg 0 5 6) ∧
    decodeSlot (.s 0 0x2814600000) = .ok (.setg 0 5 6) ∧
    decodeSlot (.s 0 0x2D14000000) = .ok (.popsq 0 5) ∧
    decodeSlot (.s 0 0x2E14000000) = .ok (.popbq 0 5) :=
  ⟨rfl, rfl, rfl, rfl, rfl, rfl, rfl, rfl, rfl, rfl, rfl, rfl, rfl, rfl⟩
theorem test_memoryWords1 :
    decodeSlot (.m 0x0400A01800000000) = .ok (.lda .i64 5 ⟨⟨6, 0, 0, 0⟩, 0, false, .plain, .ctx⟩) ∧
    decodeSlot (.m 0x8400A31800000000) = .ok (.ldaLocal .i64 5 ⟨3, ⟨6, 0, 0, 0⟩⟩) ∧
    decodeSlot (.m 0x0B00A01800000000) = .ok (.sta .b64 5 ⟨⟨6, 0, 0, 0⟩, 0, false, .plain, .ctx⟩) ∧
    decodeSlot (.m 0x8B00A31800000000) = .ok (.staLocal .b64 5 ⟨3, ⟨6, 0, 0, 0⟩⟩) ∧
    decodeSlot (.m 0x0C82201800000000) = .ok (.ldq ⟨false, 2, 1⟩ ⟨⟨6, 0, 0, 0⟩, 0, false, .plain, .ctx⟩) ∧
    decodeSlot (.m 0x8C82231800000000) = .ok (.ldqLocal ⟨false, 2, 1⟩ ⟨3, ⟨6, 0, 0, 0⟩⟩) ∧
    decodeSlot (.m 0x0DA0201800000000) = .ok (.ldqx ⟨true, 0, 1⟩ ⟨⟨6, 0, 0, 0⟩, 0, false, .plain, .ctx⟩) ∧
    decodeSlot (.m 0x8D82231800000000) = .ok (.ldqxLocal ⟨false, 2, 1⟩ ⟨3, ⟨6, 0, 0, 0⟩⟩) ∧
    decodeSlot (.m 0x0EC2201800000000) = .ok (.stq ⟨2, 1⟩ ⟨⟨6, 0, 0, 0⟩, 0, false, .plain, .ctx⟩) ∧
    decodeSlot (.m 0x8EC2231800000000) = .ok (.stqLocal ⟨2, 1⟩ ⟨3, ⟨6, 0, 0, 0⟩⟩) ∧
    decodeSlot (.m 0x1000A01800000000) = .ok (.atomAdd (.scalar 5) ⟨⟨6, 0, 0, 0⟩, 0, false, .plain, .ctx⟩) ∧
    decodeSlot (.m 0x1100A01800000000) = .ok (.atomMin (.scalar 5) ⟨⟨6, 0, 0, 0⟩, 0, false, .plain, .ctx⟩) ∧
    decodeSlot (.m 0x1200A01800000000) = .ok (.atomMax (.scalar 5) ⟨⟨6, 0, 0, 0⟩, 0, false, .plain, .ctx⟩) ∧
    decodeSlot (.m 0x1300A01800000000) = .ok (.atomWmin (.scalar 5) ⟨⟨6, 0, 0, 0⟩, 0, false, .plain, .ctx⟩) ∧
    decodeSlot (.m 0x1400A01800000000) = .ok (.atomWmax (.scalar 5) ⟨⟨6, 0, 0, 0⟩, 0, false, .plain, .ctx⟩) ∧
    decodeSlot (.m 0x1500A01800000000) = .ok (.atomAnd (.scalar 5) ⟨⟨6, 0, 0, 0⟩, 0, false, .plain, .ctx⟩) :=
  ⟨rfl, rfl, rfl, rfl, rfl, rfl, rfl, rfl, rfl, rfl, rfl, rfl, rfl, rfl, rfl, rfl⟩
theorem test_memoryWords2 :
    decodeSlot (.m 0x1600A01800000000) = .ok (.atomOr (.scalar 5) ⟨⟨6, 0, 0, 0⟩, 0, false, .plain, .ctx⟩) ∧
    decodeSlot (.m 0x1700A01800000000) = .ok (.atomXor (.scalar 5) ⟨⟨6, 0, 0, 0⟩, 0, false, .plain, .ctx⟩) ∧
    decodeSlot (.m 0x1800A01800000000) = .ok (.atomSwap (.scalar 5) ⟨⟨6, 0, 0, 0⟩, 0, false, .plain, .ctx⟩) ∧
    decodeSlot (.m 0x1900A01800000000) = .ok (.atomCas (.scalar 5) ⟨⟨6, 0, 0, 0⟩, 0, false, .plain, .ctx⟩) ∧
    decodeSlot (.m 0x1A00A01800000000) = .ok (.atomFadd (.scalar 5) ⟨⟨6, 0, 0, 0⟩, 0, false, .plain, .ctx⟩) ∧
    decodeSlot (.m 0x1BC2201800000000) = .ok (.atomQadd (.vector ⟨2, 1⟩) ⟨⟨6, 0, 0, 0⟩, 0, false, .plain, .ctx⟩) ∧
    decodeSlot (.m 0x9000A31800000000) = .ok (.atomLocal .add (.scalar 5) ⟨3, ⟨6, 0, 0, 0⟩⟩) ∧
    decodeSlot (.m 0x2000A01800000000) = .ok (.clrd (.reg 5) ⟨⟨6, 0, 0, 0⟩, 0, false, .plain, .ctx⟩) ∧
    decodeSlot (.m 0x21C2201800000000) = .ok (.cmstStage ⟨2, 1⟩ ⟨⟨6, 0, 0, 0⟩, 0, false, .plain, .ctx⟩) ∧
    decodeSlot (.m 0x2100A00000000000) = .ok (.cmstCommit 5 .plain .ctx) ∧
    decodeSlot (.m 0x2200000000000000) = .ok (.cmab) ∧
    decodeSlot (.m 0x2800030000100000) = .ok (.fence .acquire .part) ∧
    decodeSlot (.m 0x2982201800000000) = .ok (.sbind (.inq 2 1) (.glob 0) 6 0) ∧
    decodeSlot (.m 0x2A82200000000000) = .ok (.sunb (.inq 2 1)) ∧
    decodeSlot (.m 0x2B00000000000000) = .ok (.sfence) ∧
    decodeSlot (.m 0x3000A31800000000) = .ok (.segnew 5 3 6 .f32 false) :=
  ⟨rfl, rfl, rfl, rfl, rfl, rfl, rfl, rfl, rfl, rfl, rfl, rfl, rfl, rfl, rfl, rfl⟩
theorem test_memoryWords3 :
    decodeSlot (.m 0x3100030000000000) = .ok (.segfree 3) ∧
    decodeSlot (.m 0x3200030000000000) = .ok (.segpin 3) ∧
    decodeSlot (.m 0x3300030000000000) = .ok (.segunpin 3) ∧
    decodeSlot (.m 0x3400A30000000000) = .ok (.segsz 5 3) ∧
    decodeSlot (.m 0x3500031870000001) = .ok (.segclr 3 6 7 1) ∧
    decodeSlot (.m 0x3600A30000000000) = .ok (.segfmt 5 3 .f32) ∧
    decodeSlot (.m 0x3800001800000000) = .ok (.shld .csh ⟨6, 0, 0, 0⟩ 0) ∧
    decodeSlot (.m 0x3900001800000000) = .ok (.shst .csh ⟨6, 0, 0, 0⟩ 0) :=
  ⟨rfl, rfl, rfl, rfl, rfl, rfl, rfl, rfl⟩
theorem test_copyWords1 :
    decodeSlot (.k 0x0464187200000000) = .ok (.cpss 3 4 6 7 8 ⟨0, false, 0, false, 0⟩) ∧
    decodeSlot (.k 0x0864187200240000) = .ok (.cpsp 1 3 4 6 7 8 ⟨0, false, 0, false, 0⟩) ∧
    decodeSlot (.k 0x0C04187200000000) = .ok (.cpgs 0 4 6 7 8 ⟨0, false, 0, false, 0⟩) ∧
    decodeSlot (.k 0x1080187200000000) = .ok (.cpsg 0 4 6 7 8 ⟨0, false, 0, false, 0⟩) ∧
    decodeSlot (.k 0x1404187200000000) = .ok (.cpts 0 4 6 7 8 ⟨0, false, 0, false, 0⟩) ∧
    decodeSlot (.k 0x1880187200000000) = .ok (.cpst 0 4 6 7 8 ⟨0, false, 0, false, 0⟩) ∧
    decodeSlot (.k 0x1C00180200000000) = .ok (.cpwarm 0 6 8 ⟨0, false, 0, false, 0⟩) ∧
    decodeSlot (.k 0x2004187200000000) = .ok (.cpfill 4 6 7 8 ⟨0, false, 0, false, 0⟩) ∧
    decodeSlot (.k 0x240000500000FFFF) = .ok (.cpwait 5 0xFFFF) ∧
    decodeSlot (.k 0x280000000000FFFF) = .ok (.cpcan 0xFFFF) ∧
    decodeSlot (.k 0x4064187200000000) = .ok (.xpin 3 4 6 7 8) ∧
    decodeSlot (.k 0x4400000000000000) = .ok (.xpout) ∧
    decodeSlot (.k 0x4860180000000000) = .ok (.xmit 3 6) ∧
    decodeSlot (.k 0x4C04007000000002) = .ok (.xsel 4 7 2) ∧
    decodeSlot (.k 0x5000187200000100) = .ok (.cgjoin 1 6 8 7) ∧
    decodeSlot (.k 0x5464187200000102) = .ok (.cgred .fadd 1 3 4 6 7 8 2 false 0) :=
  ⟨rfl, rfl, rfl, rfl, rfl, rfl, rfl, rfl, rfl, rfl, rfl, rfl, rfl, rfl, rfl, rfl⟩
theorem test_copyWords2 :
    decodeSlot (.k 0x5864187200000102) = .ok (.cgbc 1 3 4 6 7 8 2 false 0) ∧
    decodeSlot (.k 0x5C00000000000100) = .ok (.cgleave 1) ∧
    decodeSlot (.k 0x6000187200000002) = .ok (.enq 6 7 8 2) :=
  ⟨rfl, rfl, rfl⟩
theorem test_matrixWords :
    decodeSlot (.x 0x0440C6400000) = .ok (.mld 1 (.seg 3) 6 1) ∧
    decodeSlot (.x 0x0A0000000000) = .ok (.zclr 1) ∧
    decodeSlot (.x 0x1280C6400000) = .ok (.mma .bf16 1 2 (.seg 3) 6 1 0) ∧
    decodeSlot (.x 0x420006000000) = .ok (.zrd false 1 6) ∧
    decodeSlot (.x 0x4A00C6400000) = .ok (.zst false 1 (.seg 3) 6 1) :=
  ⟨rfl, rfl, rfl, rfl, rfl⟩
theorem test_clusterWords1 :
    decodeSlot (.v 2 0x00000300581401) = .ok (.iadd ⟨⟨2, 0, false⟩, .reg 0xA, .reg 0xB, .reg 0xC⟩) ∧
    decodeSlot (.v 2 0x00000300581402) = .ok (.isub ⟨⟨2, 0, false⟩, .reg 0xA, .reg 0xB, .reg 0xC⟩) ∧
    decodeSlot (.v 2 0x00000300581403) = .ok (.imin ⟨⟨2, 0, false⟩, .reg 0xA, .reg 0xB, .reg 0xC⟩) ∧
    decodeSlot (.v 2 0x00000300581404) = .ok (.imax ⟨⟨2, 0, false⟩, .reg 0xA, .reg 0xB, .reg 0xC⟩) ∧
    decodeSlot (.v 2 0x00000300581405) = .ok (.vWmin ⟨⟨2, 0, false⟩, .reg 0xA, .reg 0xB, .reg 0xC⟩) ∧
    decodeSlot (.v 2 0x00000300581406) = .ok (.vWmax ⟨⟨2, 0, false⟩, .reg 0xA, .reg 0xB, .reg 0xC⟩) ∧
    decodeSlot (.v 2 0x00000000581407) = .ok (.iabs ⟨⟨2, 0, false⟩, .reg 0xA, .reg 0xB⟩) ∧
    decodeSlot (.v 2 0x00000300581408) = .ok (.vAnd ⟨⟨2, 0, false⟩, .reg 0xA, .reg 0xB, .reg 0xC⟩) ∧
    decodeSlot (.v 2 0x00000300581409) = .ok (.vOr ⟨⟨2, 0, false⟩, .reg 0xA, .reg 0xB, .reg 0xC⟩) ∧
    decodeSlot (.v 2 0x0000030058140A) = .ok (.vXor ⟨⟨2, 0, false⟩, .reg 0xA, .reg 0xB, .reg 0xC⟩) ∧
    decodeSlot (.v 2 0x0000030058140B) = .ok (.andn ⟨⟨2, 0, false⟩, .reg 0xA, .reg 0xB, .reg 0xC⟩) ∧
    decodeSlot (.v 2 0x0000030058140C) = .ok (.vShl ⟨⟨2, 0, false⟩, .reg 0xA, .reg 0xB, .reg 0xC⟩) ∧
    decodeSlot (.v 2 0x0000030058140D) = .ok (.vShr ⟨⟨2, 0, false⟩, .reg 0xA, .reg 0xB, .reg 0xC⟩) ∧
    decodeSlot (.v 2 0x0000030058140E) = .ok (.vSra ⟨⟨2, 0, false⟩, .reg 0xA, .reg 0xB, .reg 0xC⟩) ∧
    decodeSlot (.v 2 0x0000030058140F) = .ok (.rol ⟨⟨2, 0, false⟩, .reg 0xA, .reg 0xB, .reg 0xC⟩) ∧
    decodeSlot (.v 2 0x00000300581410) = .ok (.iadds ⟨⟨2, 0, false⟩, .reg 0xA, .reg 0xB, .reg 0xC⟩) :=
  ⟨rfl, rfl, rfl, rfl, rfl, rfl, rfl, rfl, rfl, rfl, rfl, rfl, rfl, rfl, rfl, rfl⟩
theorem test_clusterWords2 :
    decodeSlot (.v 2 0x00000300581411) = .ok (.isubs ⟨⟨2, 0, false⟩, .reg 0xA, .reg 0xB, .reg 0xC⟩) ∧
    decodeSlot (.v 2 0x00000300581412) = .ok (.wadds ⟨⟨2, 0, false⟩, .reg 0xA, .reg 0xB, .reg 0xC⟩) ∧
    decodeSlot (.v 2 0x00000300581413) = .ok (.wsubs ⟨⟨2, 0, false⟩, .reg 0xA, .reg 0xB, .reg 0xC⟩) ∧
    decodeSlot (.v 2 0x00000300581414) = .ok (.imul ⟨⟨2, 0, false⟩, .reg 0xA, .reg 0xB, .reg 0xC⟩) ∧
    decodeSlot (.v 2 0x00000300581415) = .ok (.imulh ⟨⟨2, 0, false⟩, .reg 0xA, .reg 0xB, .reg 0xC⟩) ∧
    decodeSlot (.v 2 0x00000300581416) = .ok (.wmulh ⟨⟨2, 0, false⟩, .reg 0xA, .reg 0xB, .reg 0xC⟩) ∧
    decodeSlot (.v 2 0x001A0300581417) = .ok (.vdot4 false ⟨⟨2, 0, false⟩, .reg 0xA, .reg 0xB, .reg 0xC, .reg 0xD⟩) ∧
    decodeSlot (.v 2 0x00000000581419) = .ok (.vPopc ⟨⟨2, 0, false⟩, .reg 0xA, .reg 0xB⟩) ∧
    decodeSlot (.v 2 0x0000000058141A) = .ok (.vClz ⟨⟨2, 0, false⟩, .reg 0xA, .reg 0xB⟩) ∧
    decodeSlot (.v 2 0x001A030058141B) = .ok (.sel ⟨⟨2, 0, false⟩, .reg 0xA, .reg 0xB, .reg 0xC, .reg 0xD⟩) ∧
    decodeSlot (.v 2 0x0000000058141C) = .ok (.mov ⟨⟨2, 0, false⟩, .reg 0xA, .reg 0xB⟩) ∧
    decodeSlot (.v 2 0x0000030058141D) = .ok (.vBfx ⟨⟨2, 0, false⟩, .reg 0xA, .reg 0xB, .reg 0xC⟩) ∧
    decodeSlot (.v 2 0x001A030058141E) = .ok (.vBfi ⟨⟨2, 0, false⟩, .reg 0xA, .reg 0xB, .reg 0xC, .reg 0xD⟩) ∧
    decodeSlot (.v 2 0x00000080080220) = .ok (.laneCompare .eq ⟨2, 0, false⟩ 1 (.reg 1) (.reg 2)) ∧
    decodeSlot (.v 2 0x000000C010022A) = .ok (.pand ⟨⟨2, 0, false⟩, 1, 2, 3⟩) ∧
    decodeSlot (.v 2 0x000000C010022B) = .ok (.por ⟨⟨2, 0, false⟩, 1, 2, 3⟩) :=
  ⟨rfl, rfl, rfl, rfl, rfl, rfl, rfl, rfl, rfl, rfl, rfl, rfl, rfl, rfl, rfl, rfl⟩
theorem test_clusterWords3 :
    decodeSlot (.v 2 0x000000C010022C) = .ok (.pxor ⟨⟨2, 0, false⟩, 1, 2, 3⟩) ∧
    decodeSlot (.v 2 0x0000000010022D) = .ok (.pnot ⟨2, 0, false⟩ 1 2) ∧
    decodeSlot (.v 2 0x0000000010022E) = .ok (.pany ⟨2, 0, false⟩ 1 2) ∧
    decodeSlot (.v 2 0x0000000010022F) = .ok (.pcnt ⟨2, 0, false⟩ (.reg 1) 2) ∧
    decodeSlot (.v 2 0x00000300581430) = .ok (.lperm ⟨⟨2, 0, false⟩, .reg 0xA, .reg 0xB, .reg 0xC⟩) ∧
    decodeSlot (.v 2 0x00000300581431) = .ok (.lbc ⟨⟨2, 0, false⟩, .reg 0xA, .reg 0xB, .reg 0xC⟩) ∧
    decodeSlot (.v 2 0x00000300581432) = .ok (.lrot ⟨⟨2, 0, false⟩, .reg 0xA, .reg 0xB, .reg 0xC⟩) ∧
    decodeSlot (.v 2 0x0001C0C0100234) = .ok (.xmv ⟨2, 0, false⟩ (.reg 1) (.reg 2) 3) ∧
    decodeSlot (.v 2 0x0001C8C0100235) = .ok (.xbc ⟨2, 0, false⟩ (.reg 1) (.reg 2) 3 4) ∧
    decodeSlot (.v 2 0x00000000581450) = .ok (.cvt .f32i32 ⟨⟨2, 0, false⟩, .reg 0xA, .reg 0xB⟩) ∧
    decodeSlot (.v 2 0x0001C040581455) = .ok (.cvtWiden .bf16 ⟨⟨2, 0, false⟩, .reg 0xA, .reg 0xB⟩ 1) ∧
    decodeSlot (.v 2 0x0007C040100254) = .ok (.cvtNarrow .bf16 ⟨2, 0, false⟩ (.reg 1) (.reg 2) (.reg 3) 1) ∧
    decodeSlot (.v 2 0x0000030058145C) = .ok (.qntE2m1b ⟨⟨2, 0, false⟩, .reg 0xA, .reg 0xB, .reg 0xC⟩) ∧
    decodeSlot (.v 2 0x0E06030058145D) = .ok (.dqntE2m1b ⟨⟨2, 0, false⟩, .reg 0xA, .reg 0xB, .reg 0xC⟩ 3) ∧
    decodeSlot (.v 2 0x00000300581440) = .ok (.fadd ⟨⟨2, 0, false⟩, .reg 0xA, .reg 0xB, .reg 0xC⟩) ∧
    decodeSlot (.v 2 0x00000300581441) = .ok (.fsub ⟨⟨2, 0, false⟩, .reg 0xA, .reg 0xB, .reg 0xC⟩) :=
  ⟨rfl, rfl, rfl, rfl, rfl, rfl, rfl, rfl, rfl, rfl, rfl, rfl, rfl, rfl, rfl, rfl⟩
theorem test_clusterWords4 :
    decodeSlot (.v 2 0x00000300581442) = .ok (.fmul ⟨⟨2, 0, false⟩, .reg 0xA, .reg 0xB, .reg 0xC⟩) ∧
    decodeSlot (.v 2 0x001A0300581443) = .ok (.ffma ⟨⟨2, 0, false⟩, .reg 0xA, .reg 0xB, .reg 0xC, .reg 0xD⟩) ∧
    decodeSlot (.v 2 0x001A0300581444) = .ok (.ffms ⟨⟨2, 0, false⟩, .reg 0xA, .reg 0xB, .reg 0xC, .reg 0xD⟩) ∧
    decodeSlot (.v 2 0x001A0300581445) = .ok (.fnma ⟨⟨2, 0, false⟩, .reg 0xA, .reg 0xB, .reg 0xC, .reg 0xD⟩) ∧
    decodeSlot (.v 2 0x0000030058144A) = .ok (.fdiv ⟨⟨2, 0, false⟩, .reg 0xA, .reg 0xB, .reg 0xC⟩) ∧
    decodeSlot (.v 2 0x0000000058144B) = .ok (.fsqrt ⟨⟨2, 0, false⟩, .reg 0xA, .reg 0xB⟩) ∧
    decodeSlot (.v 2 0x00000300581446) = .ok (.fmin ⟨⟨2, 0, false⟩, .reg 0xA, .reg 0xB, .reg 0xC⟩) ∧
    decodeSlot (.v 2 0x00000300581447) = .ok (.fmax ⟨⟨2, 0, false⟩, .reg 0xA, .reg 0xB, .reg 0xC⟩) ∧
    decodeSlot (.v 2 0x00000000581448) = .ok (.fabs ⟨⟨2, 0, false⟩, .reg 0xA, .reg 0xB⟩) ∧
    decodeSlot (.v 2 0x00000000581449) = .ok (.fneg ⟨⟨2, 0, false⟩, .reg 0xA, .reg 0xB⟩) ∧
    decodeSlot (.v 2 0x0000030058144C) = .ok (.fcps ⟨⟨2, 0, false⟩, .reg 0xA, .reg 0xB, .reg 0xC⟩) ∧
    decodeSlot (.v 2 0x0000000058144D) = .ok (.fclass ⟨⟨2, 0, false⟩, .reg 0xA, .reg 0xB⟩) ∧
    decodeSlot (.v 2 0x00000000581490) = .ok (.vred .fadd ⟨⟨2, 0, false⟩, .reg 0xA, .reg 0xB⟩) ∧
    decodeSlot (.v 2 0x00000000581460) = .ok (.frcp ⟨⟨2, 0, false⟩, .reg 0xA, .reg 0xB⟩) ∧
    decodeSlot (.v 2 0x00000000581461) = .ok (.frsq ⟨⟨2, 0, false⟩, .reg 0xA, .reg 0xB⟩) ∧
    decodeSlot (.v 2 0x00000000581462) = .ok (.fexp2 ⟨⟨2, 0, false⟩, .reg 0xA, .reg 0xB⟩) :=
  ⟨rfl, rfl, rfl, rfl, rfl, rfl, rfl, rfl, rfl, rfl, rfl, rfl, rfl, rfl, rfl, rfl⟩
theorem test_clusterWords5 :
    decodeSlot (.v 2 0x00000000581463) = .ok (.flog2 ⟨⟨2, 0, false⟩, .reg 0xA, .reg 0xB⟩) ∧
    decodeSlot (.v 2 0x00000000581464) = .ok (.fsin ⟨⟨2, 0, false⟩, .reg 0xA, .reg 0xB⟩) ∧
    decodeSlot (.v 2 0x00000000581465) = .ok (.fcos ⟨⟨2, 0, false⟩, .reg 0xA, .reg 0xB⟩) ∧
    decodeSlot (.v 2 0x00000000581466) = .ok (.ftanh ⟨⟨2, 0, false⟩, .reg 0xA, .reg 0xB⟩) ∧
    decodeSlot (.v 2 0x00000000581467) = .ok (.fsigm ⟨⟨2, 0, false⟩, .reg 0xA, .reg 0xB⟩) ∧
    decodeSlot (.v 2 0x00000000581470) = .ok (.specialFunction16 .rcp false ⟨⟨2, 0, false⟩, .reg 0xA, .reg 0xB⟩) ∧
    decodeSlot (.v 2 0x0E000300581480) = .ok (.qenc false ⟨⟨2, 0, false⟩, .reg 0xA, .reg 0xB, .reg 0xC⟩) ∧
    decodeSlot (.v 2 0x00000300581481) = .ok (.qadd ⟨⟨2, 0, false⟩, .reg 0xA, .reg 0xB, .reg 0xC⟩) ∧
    decodeSlot (.v 2 0x00000300581482) = .ok (.qsub ⟨⟨2, 0, false⟩, .reg 0xA, .reg 0xB, .reg 0xC⟩) ∧
    decodeSlot (.v 2 0x00000000581486) = .ok (.qneg ⟨⟨2, 0, false⟩, .reg 0xA, .reg 0xB⟩) ∧
    decodeSlot (.v 2 0x00000300581483) = .ok (.qmul ⟨⟨2, 0, false⟩, .reg 0xA, .reg 0xB, .reg 0xC⟩) ∧
    decodeSlot (.v 2 0x00000300581484) = .ok (.qdiv ⟨⟨2, 0, false⟩, .reg 0xA, .reg 0xB, .reg 0xC⟩) ∧
    decodeSlot (.v 2 0x00000000581485) = .ok (.qinv ⟨⟨2, 0, false⟩, .reg 0xA, .reg 0xB⟩) ∧
    decodeSlot (.v 2 0x00000080080287) = .ok (.qcmpeq ⟨2, 0, false⟩ 1 (.reg 1) (.reg 2)) ∧
    decodeSlot (.v 2 0x0001C040581488) = .ok (.qdig ⟨⟨2, 0, false⟩, .reg 0xA, .reg 0xB⟩ 1) ∧
    decodeSlot (.v 2 0x0E02030058148B) = .ok (.qsetd ⟨⟨2, 0, false⟩, .reg 0xA, .reg 0xB, .reg 0xC⟩ 1) :=
  ⟨rfl, rfl, rfl, rfl, rfl, rfl, rfl, rfl, rfl, rfl, rfl, rfl, rfl, rfl, rfl, rfl⟩
theorem test_clusterWords6 :
    decodeSlot (.v 2 0x0001C040581489) = .ok (.qdec true ⟨⟨2, 0, false⟩, .reg 0xA, .reg 0xB⟩) ∧
    decodeSlot (.v 2 0x0000000058148A) = .ok (.qcvt ⟨⟨2, 0, false⟩, .reg 0xA, .reg 0xB⟩) :=
  ⟨rfl, rfl⟩

/-! ### The dispatcher -/

def pokes (s : State) (a : Nat) : List Word → State
  | [] => s
  | w :: r => pokes (poke s a w) (a + 8) r
def desc1 : LaunchDesc := ⟨0x10000, 0x10380, 1, 0, 32, 0, 1, 16, 0, 1, 1, false, false, false, false, 0, 64, 0, 9, [], 0, 0, [],
  [], 0x10400, [11, 12, 13, 14, 15, 16, 17, 18], 0, 0⟩
def job1 : JobDesc := ⟨0x3000, 1, 1, 0, 0x10500⟩
def jobWords : List Word := [0x3000, 0x1001, 0x10500]
def launchWords : List Word := [0x10000, 0x10380, 0x1001002000000001, 0, 0x100000001, 0, 64, 9, 0, 0, 0, 0, 0, 0, 0, 0x10400,
  11, 12, 13, 14, 15, 16, 17, 18]
/-- A page of the system and one of ASID 1, both at 0x20000; a job descriptor at 0x10100, a launch descriptor at 0x10200. -/
def memory1 : State := pokes (pokes { State.reset with tlb := [{ tlb0 with asid := 0 }, tlb0] } 0x20100 jobWords) 0x20200 launchWords
/-- A launch whose descriptors are not read yet, and one checked. -/
def newLaunch : Launch := ⟨0, 0, 0x10100, 0x10200, none, none, 0, 0, [], [], [], [], .ok, false, false, false, [], false, none,
  false, []⟩
def launch1 : Launch := { newLaunch with job := some job1, desc := some desc1, nx := 1 }
def launched (l : Launch) : State := { memory1 with launches := [l], dictRuns := [(0, 1, 0x10380, 0)] }
/-- Setting up the JCB at 0x20400: one post expected, none counted. -/
theorem test_launchCheck : (match exec (.launchCheck 0) (launched newLaunch) with
    | .next t => (t.launches.map (fun l => { l with eligAt := none }), t.posts, t.memWord 0x20400, t.memWord 0x20408, t.memWord 0x20420) | _ => ([], [], 1, 0, 0)) =
      ([launch1], [], 0, 1, 1) ∧
    (match exec (.launchCheck 0) (launched { newLaunch with jd := 0x10101 }) with
      | .next t => (t.launches, t.faultLog.map (·.cause), t.msi) | _ => ([], [], [])) = ([], [.noJcb], [(0, 1)]) := by decide +kernel
/-- A pair whose first part is known. -/
theorem pair_of_fst {α β : Type} {p : α × β} {a : α} (h : p.1 = a) : ∃ b, p = (a, b) := ⟨p.2, by rw [← h]⟩
def jobRead : List Word := jobWords ++ [0, 0, 0, 0, 0]
def launchRead : List Word := launchWords ++ [0, 0, 0, 0, 0, 0, 0, 0]
/-- Memory with these descriptors, and the state once both have been read. -/
def offered (jw lw : List Word) : State := { pokes (pokes (launched newLaunch) 0x20100 jw) 0x20200 lw with launches := [newLaunch] }
def jobTaken (s : State) : State := (s.jobWords 0x10100).2
def bothTaken (s : State) : State := ((jobTaken s).wordsAt 1 0x3000 0x10200 32 .read 1).2
/-- The two reads give these words. -/
def Reads (s : State) (jw lw : List Word) : Prop := (s.jobWords 0x10100).1.toOption = some jw ∧
  ((jobTaken s).wordsAt 1 0x3000 0x10200 32 .read 1).1.toOption = some lw
theorem witness_LaunchChecks : (launched newLaunch).launchBy 0 = some newLaunch ∧ newLaunch.part = (launched newLaunch).part ∧
    (0x10101 : Word).toNat % 64 ≠ 0 ∧ ((launched newLaunch).jobWords 0x10101).1.toOption = none ∧
    (∀ fn, fn < 8 → (launched newLaunch).armed fn 2 = false) ∧
    ((jobTaken (launched newLaunch)).wordsAt 1 0x3000 0x30000 32 .read 1).1.toOption = none := by decide +kernel
theorem witness_LaunchRead : Reads (offered jobWords launchWords) jobRead launchRead ∧ jobOf jobRead = job1 ∧
    ((bothTaken (offered jobWords launchWords)).launchFault 0 jobRead job1 0x10200 launchRead (some [])).1 = none ∧
    ((bothTaken (offered jobWords launchWords)).launchFault 0 jobRead job1 0x10200 (launchRead.set 2 0) (some [])).1 = some (2, 0) ∧
    (bothTaken (offered jobWords launchWords)).tablesAway job1 0x10100 = false ∧
    ((bothTaken (offered jobWords launchWords)).translate 1 0x3000 0x10400 .write).1 = .ok 0x20400 tlb0 ∧
    (bothTaken (offered jobWords launchWords)).layerOff 0x20400 = false ∧
    (bothTaken (offered jobWords launchWords)).cancelOf 0x10100 0x10400 = false := by unfold Reads; decide +kernel
/-- A job whose JCB lies on an absent page, a cancel of one of its graphs recorded; a launch whose JCB lies there; one whose
JCB cannot be written; one with a cancel of itself recorded. -/
theorem witness_LaunchHeld :
    (let s : State := { offered (jobWords.set 2 0x30500) launchWords with cancels := [(2, 0x10100, 0x10700, 0)] }
     Reads s (jobRead.set 2 0x30500) launchRead ∧
      ((bothTaken s).launchFault 0 (jobRead.set 2 0x30500) { job1 with jjcb := 0x30500 } 0x10200 launchRead (some [])).1 = none ∧
      (bothTaken s).tablesAway { job1 with jjcb := 0x30500 } 0x10100 = true) ∧
    (let s := offered jobWords (launchWords.set 15 0x30400)
     Reads s jobRead (launchRead.set 15 0x30400) ∧
      ((bothTaken s).launchFault 0 jobRead job1 0x10200 (launchRead.set 15 0x30400) (some [])).1 = none ∧
      ((bothTaken s).translate 1 0x3000 0x30400 .write).1 = .fault .pgAbsent) ∧
    (let s : State := { offered jobWords launchWords with tlb := [{ tlb0 with asid := 0 }, { tlb0 with wr := false }] }
     Reads s jobRead launchRead ∧ ((bothTaken s).launchFault 0 jobRead job1 0x10200 launchRead (some [])).1 = none ∧
      ((bothTaken s).translate 1 0x3000 0x10400 .write).1 = .fault .pgPerm) ∧
    ({ offered jobWords launchWords with cancels := [(1, 0x10100, 0x10400, 0)] } : State).cancelOf 0x10100 0x10400 = true := by
  unfold Reads; decide +kernel
theorem witness_NoTable (s : State) (j : JobDesc) :
    s.wsWords j (wd launchRead 8) (if wd launchRead 8 = 0 then 0 else ufield (wd launchRead 9) 0 5) = (some [], s) := rfl
def window1 : Windows := ⟨0, 0, 0, 0, false, []⟩
theorem test_admission : (match exec (.admission 0) (launched launch1) with
    | .next t => (t.ctx.phase, t.ctx.vcnt, t.ctx.task.map (fun k => (k.x, k.swhi))) | _ => (.free, 0, none)) =
      (.admitted, 32, some (0, 16)) ∧
    (match exec (.admission 0) (launched { launch1 with failed := true }) with
      | .next t => t.posts.map (fun p => (p.lvl, p.status, p.cause)) | _ => []) = [(5, .ok, 0), (1, .poisoned, 6)] := by
  decide +kernel
theorem witness_LaunchAdmission : (launched launch1).launchBy 0 = some launch1 ∧ launch1.ready = some 0 ∧
    (launched launch1).unrun launch1 desc1 0 = none ∧ (launched launch1).preempted.contains 0x10100 = false ∧
    (launched launch1).fits launch1 desc1 0 = some window1 ∧
    (launched { launch1 with failed := true }).unrun { launch1 with failed := true } desc1 0 = some (.poisoned, 6, 0) ∧
    ({ launched launch1 with online := false } : State).fits launch1 desc1 0 = none := by decide +kernel
/-- A launch of two tasks in classes, whose second belongs to another member. -/
def descAway : LaunchDesc := { desc1 with plc := 1, nx := 2 }
def launchAway : Launch := { launch1 with desc := some descAway, nx := 2, next := 1 }
/-- A launch with a segment, and a deckle whose every line a segment being pushed out still holds. -/
def descSeg : LaunchDesc := { desc1 with ws := [⟨1, false, 0, 2, .f32, 5, 9, 4, 0x10600, 0, 0⟩] }
def launchSeg : Launch := { launch1 with desc := some descSeg }
def crammed : State := { launched launchSeg with
  sw := 1, segs := [{ seg0 with ctx := 2, size := 512, st := .pushing, place := List.range 512, spoff := 512 }] }
theorem witness_TasksElsewhere : launchAway.ready = some 1 ∧ (launched launchAway).mine launchAway descAway 1 = false ∧
    (launched launchAway).unrun launchAway descAway 1 = none ∧ (launched launch1).mine launch1 desc1 0 = true ∧
    (launched launch1).eligible launch1 = true ∧
    (launched launch1).eligible { launch1 with desc := some { desc1 with preds := [⟨false, 0x10700⟩] } } = false ∧
    descAway.plc = 1 ∧ (launched launchAway).offline 0 descAway = false ∧
    ({ launched launchAway with coreOut := [(1, true)] } : State).offline 0 descAway = true ∧
    ({ launched launchAway with coreOut := [(1, true)] } : State).unrun launchAway descAway 1 = none ∧
    (launched launchAway).groupOfTask launchAway descAway 1 = groupOf (launched launchAway).core.toNat ∧
    (launched launchAway).groupOfTask { launchAway with next := 8 } { descAway with nx := 9 } 8 ≠ groupOf (launched launchAway).core.toNat ∧
    (launched launchAway).namesOn 1 0x10100 descAway = false ∧ (launched launchAway).barrierTaken launchAway descAway = false ∧
    ({ launched launchAway with barHeld := [(0, 3, 7)] } : State).barrierTaken launchAway { descAway with barm := 8 } = true := by
  decide +kernel
theorem witness_Seats : (∃ w, (launched launchSeg).fits launchSeg descSeg 0 = some w ∧ w.load = false ∧
      ((launched launchSeg).admitTask launchSeg descSeg job1 0 w).Seats w.ctx) ∧
    ∃ w, crammed.fits launchSeg descSeg 0 = some w ∧ w.load = false ∧
      ¬ (crammed.admitTask launchSeg descSeg job1 0 w).Seats w.ctx := by
  unfold State.Seats
  exact ⟨⟨_, by rfl, by rfl, by decide +kernel⟩, _, by rfl, by rfl, by decide +kernel⟩
/-- A launch whose dictionary is loaded first: sound, or on an absent page, or with an entry that no bundle has. -/
def loadsDict (d : LaunchDesc) : State := { launched { launch1 with desc := some d } with dictRuns := [] }
def badDict : State := { pokes (launched launch1) 0x20380 (List.replicate 12 0xFFFFFFFFFFFFFFFF) with dictRuns := [] }
theorem witness_Loads : (∃ w, (loadsDict desc1).fits launch1 desc1 0 = some w ∧ w.load = true ∧
      ((loadsDict desc1).readDict job1 desc1).1 = .entries [0] ∧
      ((((loadsDict desc1).readDict job1 desc1).2.loadDict desc1 w.dbase [0]).admitTask launch1 desc1 job1 0 w).Seats w.ctx) ∧
    ((loadsDict { desc1 with dict := 0x30380 }).readDict job1 { desc1 with dict := 0x30380 }).1 = .away ∧
    (∃ w, badDict.fits launch1 desc1 0 = some w ∧ w.load = true) ∧ (badDict.readDict job1 desc1).1 = .bad 0 := by
  unfold State.Seats
  exact ⟨⟨_, by rfl, by rfl, by decide +kernel, by decide +kernel⟩, by decide +kernel, ⟨_, by rfl, by rfl⟩, by decide +kernel⟩
/-- A launch that has aged to EP 15, on a core where another launch holds its barrier. -/
def aged : Launch := { launch1 with desc := some { desc1 with barm := 8 }, eligAt := some 0 }
theorem witness_Reservation : (let s : State := { launched aged with fresh := 20000, barHeld := [(0, 3, 7)] }
    s.fits aged { desc1 with barm := 8 } 0 = none ∧ (s.emptyCore.fits aged { desc1 with barm := 8 } 0).isSome = true ∧
    s.reserved = none ∧ s.epOf aged = 15) := by decide +kernel
def task1 : Task := { task0 with launch := 0, jd := 0x10100, job := job1, h := 64, dict := 0x10380, ljcb := 0x10400 }
def fill : WsEntry := ⟨1, false, 0, 2, .f32, 5, 9, 4, 0x10600, 0, 0⟩
def entries : List WsEntry := [fill, { fill with init := 0 }, { fill with kind := 2 }, { fill with kind := 3 }, { fill with src := 0x10601 },
  { fill with init := 3, src := 0 }]
/-- Context 1 holds an admitted task with these entries. -/
def admitted (l : Launch) (begun : List Nat := []) : State := { launched l with others := [(1, { Ctx.zero with
  phase := .admitted, task := some { task1 with ws := entries, staged := begun }, vcnt := 32 })] }
theorem test_staging : (match exec (.stagingStart 1 0) (admitted launch1) with
    | .next t => t.staging.map (fun c => (c.kind, c.len, c.src)) | _ => []) = [(.load, 512, .glob 0x10600)] ∧
    (match exec (.stagingStart 1 4) (admitted launch1 [0, 1, 2, 3]) with
      | .next t => ((t.ctxAt 1).task.map (fun k => (k.staged, k.refills)), t.staging.length) | _ => (none, 1)) = (some ([0, 1, 2, 3, 4], [4]), 0) := by
  decide +kernel
theorem witness_StagingBegins : ((admitted launch1).ctxAt 1).phase = .admitted ∧ entries[5]? = some { fill with init := 3, src := 0 } ∧
    (admitted launch1).inTurn { task1 with ws := entries, staged := [0, 1, 2, 3, 4] } 5 = true ∧
    (admitted launch1).inTurn { task1 with ws := entries } 5 = false ∧ (admitted launch1).staging.length < 16 ∧ fill.dep = false ∧ { fill with dep := true }.dep = true ∧ fill.src.toNat % 64 = 0 ∧
    (0x10601 : Word).toNat % 64 ≠ 0 := by decide
def faulted : State := match execStagingStart 1 0 (admitted launch1) with
  | .next t => { t with staging := t.staging.map (fun c => { c with fault := some .pgAbsent }) }
  | _ => State.reset
theorem test_stagingAbandon : (match exec (.stagingAbandon 0) faulted with
    | .next t => (t.staging.length, (t.ctxAt 1).task.map (·.refills)) | _ => (1, none)) = (0, some [0]) := by decide +kernel
def refillDue : State := { base with segs := [{ seg0 with empty := [(0, true)], wanted := true }], ctx := { base.ctx with
  task := some { task1 with ws := entries, refills := [0] } } }
theorem test_refill : (match exec (.refill 0 0) refillDue with | .next t => t.copies.map (fun c => (c.kind, c.entry)) | _ => []) =
    [(.load, some 0)] := by decide +kernel
/-- A look-ahead task of launch 1, whose predecessor is not done, holds the last free deckle. -/
def desc2 : LaunchDesc := { desc1 with preds := [⟨false, 0x10700⟩], h := 8192 }
def launch2 : Launch := { launch1 with id := 1, desc := some desc2, next := 1 }
def ahead9 : State := { launched { launch1 with desc := some { desc1 with h := 8192 } } with
  launches := [launch2, { launch1 with desc := some { desc1 with h := 8192 } }]
  others := [(1, { Ctx.zero with phase := .admitted, task := some { task1 with launch := 1, h := 8192 }, vcnt := 32 })] }
theorem test_lookaheadRevoke : (match exec .lookaheadRevoke ahead9 with
    | .next t => ((t.ctxAt 1).phase, t.launches.map (·.again)) | _ => (.admitted, [])) = (.free, [[0], []]) := by decide +kernel
theorem witness_StagingGivesWay : (faulted.staging.map (fun c => c.fault.isSome)) = [true] ∧ (faulted.staging.map (·.kind)) = [.load] ∧
    refillDue.ctx.phase = .running ∧ entries[0]? = some fill ∧ (∃ x, refillDue.seg 0 9 = some x ∧ x.wanted = true ∧ ∃ p ∈ x.empty, p.2 = true) ∧
    ahead9.lookaheads ≠ [] ∧ ahead9.byPriority.head? = some { launch1 with desc := some { desc1 with h := 8192 } } ∧ (∃ w, (ahead9.revokeAll ahead9.lookaheads).fits { launch1 with desc := some { desc1 with h := 8192 } } { desc1 with h := 8192 } 0 = some w) ∧
    ahead9.fits { launch1 with desc := some { desc1 with h := 8192 } } { desc1 with h := 8192 } 0 = none :=
  ⟨by decide, by decide, by decide, by decide, ⟨_, rfl, rfl, (0, true), by decide, rfl⟩, by decide, by decide, ⟨_, by rfl⟩, by rfl⟩
def roomy : LaunchDesc := { desc1 with h := 8192 }
def wanting : Launch := { launch1 with desc := some roomy }
theorem witness_LookaheadRevoke : ahead9.byPriority = [] ++ wanting :: [launch2] ∧ ahead9.launchBy 0 = some wanting ∧
    wanting.ready = some 0 ∧ ahead9.eligible wanting = true ∧ ahead9.unrun wanting roomy 0 = none ∧
    (∃ w, (ahead9.revokeFor wanting roomy 0 4).fits wanting roomy 0 = some w ∧ w.load = false ∧
      ((ahead9.revokeFor wanting roomy 0 4).admitTask wanting roomy job1 0 w).Seats w.ctx) ∧
    (∃ w, (ahead9.revokeAll ahead9.lookaheads).fits wanting roomy 0 = some w) ∧ ahead9.fits wanting roomy 0 = none := by
  unfold State.Seats
  exact ⟨by decide +kernel, by decide +kernel, by decide, by decide +kernel, by decide +kernel, ⟨_, by rfl, by rfl, by decide +kernel⟩,
    ⟨_, by rfl⟩, by rfl⟩
/-- The same without entries, so that nothing is to be filled. -/
def ready1 : State := { launched launch1 with others := [(1, { Ctx.zero with phase := .admitted, task := some { task1 with ws := [] }, vcnt := 32 })] }
theorem test_dispatch : (match exec (.dispatch 1) ready1 with
    | .next t => ((t.ctxAt 1).phase, (t.ctxAt 1).pc, (t.ctxAt 1).regs.ra 8, (t.ctxAt 1).regs.rseed) | _ => (.free, 0, 0, 0)) =
      (.running, 0x10040, 18, 9) := by decide +kernel
theorem witness_TaskDispatch : (ready1.ctxAt 1).task = some { task1 with ws := [] } ∧ (ready1.ctxAt 1).phase = .admitted ∧
    ready1.launchBy 0 = some launch1 ∧ ready1.unrun launch1 desc1 0 = none ∧ ready1.eligible launch1 = true ∧
    ready1.fillsDone 1 { task1 with ws := [] } = true ∧ ready1.preempted.contains 0x10100 = false ∧
    ready1.unrun { launch1 with failed := true } desc1 0 = some (.poisoned, 6, 0) ∧
    (admitted launch1).fillsDone 1 { task1 with ws := entries } = false := by decide +kernel
/-- A retired task with nothing outstanding. -/
def retired1 : State := { launched launch1 with others := [(1, { Ctx.zero with phase := .retiring, task := some task1, vcnt := 32 })] }
theorem test_taskRelease : (match exec (.taskRelease (.own 1)) retired1 with
    | .next t => ((t.ctxAt 1).phase, t.posts.map (fun p => (p.lvl, p.status, p.jcb))) | _ => (.free, [])) =
      (.free, [(5, .ok, 0x10400), (1, .ok, 0x10400)]) := by decide +kernel
theorem witness_TaskRelease : (retired1.ctxAt 1).phase = .retiring ∧ (∀ c ∈ retired1.copies, c.ctx ≠ 1) ∧
    (∀ z ∈ retired1.zstores, z.ctx ≠ 1) ∧ (∀ q ∈ retired1.reqs, q.ctx ≠ 1) ∧ (∀ x ∈ retired1.streams, x.ctx ≠ 1) ∧
    (∀ e ∈ retired1.segs, e.ctx = 1 → e.cpins = 0) ∧
    (∃ e ∈ ({ retired1 with segs := [{ seg0 with ctx := 1, cpins := 1 }] } : State).segs, e.ctx = 1 ∧ e.cpins ≠ 0) ∧ (∀ g ∈ retired1.groups, g.members.any (retired1.isMine 1) = false) ∧ retired1.twinOn = false ∧
    (∃ q ∈ ({ retired1 with reqs := [⟨0, 1, .trig, 0, 8, 0, 0, false, .plain, .ctx, 0, 0⟩] } : State).reqs, q.ctx = 1) := by decide +kernel

def post1 : Post := ⟨0, job1, 0x10100, 0x10400, 1, .poisoned, 8, 3, 0, 0, false, false⟩
/-- A JCB that expects two posts: the first counts and raises the status, with its cause 8. -/
theorem test_postWords : postWords post1 [0, 2, 0, 0, 2, 0, 0, 0] = [0x300080002, 2, 1, 0, 2, 0, 0, 0] ∧
    postWords { post1 with lvl := 5 } [0, 2, 0, 0, 2, 0, 0, 0] = [0, 2, 0, 1, 2, 0, 0, 0] ∧
    postWords post1 [4, 2, 2, 0, 2, 0, 0, 0] = [4, 2, 2, 0, 2, 0, 0, 0] := by decide +kernel
def posting : State := { poke (launched launch1) 0x20408 1 with posts := [post1] }
theorem test_jcbPost : (match exec .jcbPost posting with
    | .next t => (t.memWord 0x20400, t.memWord 0x20410, t.posts.map (fun p => (p.lvl, p.jcb, p.cause))) | _ => (0, 0, [])) =
      (0x300080006, 1, [(4, 0x10500, 10)]) := by decide +kernel
theorem witness_PostedCounts : [(0 : Word), 2, 0, 0, 2, 0, 0, 0].length = 8 ∧ post1.cause < 65536 ∧ (4 : Word).getLsbD 2 = true ∧
    (0x80 : Word).getLsbD 7 = true ∧ (0 : Word).getLsbD 7 = false := by decide
/-- A post whose JCB the dispatcher keeps itself; one owed to the levels above; one of a whole launch whose JCB is lost. -/
def keeping : State := { posting with kept := [⟨1, 0x10400, 2, 0, 0, false⟩] }
def owed : State := { posting with posts := [{ post1 with lvl := 6, jcb := 0x10500 }] }
theorem test_keptPost : (match exec .jcbPost keeping with
    | .next t => (t.kept.map (fun k => (k.cnt, k.done)), t.posts.length, t.memWord 0x20410) | _ => ([], 1, 0)) = ([(1, false)], 0, 0) ∧
    (match exec .jcbPost owed with | .next t => t.posts.map (fun p => (p.lvl, p.jcb, p.status)) | _ => []) = [(4, 0x10500, .poisoned)] ∧
    (match exec .jcbPost { posting with posts := [{ post1 with jcb := 0x10401 }] } with
      | .next t => (t.posts.map (fun p => (p.lvl, p.jcb, p.cause, p.raiseOnly)), t.faultLog.map (·.cause)) | _ => ([], [])) =
      ([(4, 0x10500, 11, true), (4, 0x10500, 10, false)], [.noJcb]) := by decide +kernel
theorem witness_KeptPosts : keeping.keptAt post1.job.asid post1.jcb = some ⟨1, 0x10400, 2, 0, 0, false⟩ ∧
    (owed.translate 1 0x3000 0x10500 .system).1 = .ok 0x20500 tlb0 ∧
    (({ owed with tlb := [] } : State).translate 1 0x3000 0x10500 .system).1 = .fault .pgAbsent ∧
    (0x10401 : Word).toNat % 64 ≠ 0 ∧ ({ posting with hbmOff := [(hbmStack 0x20400, true)] } : State).layerOff 0x20400 = true := by decide +kernel
theorem witness_CompletionPosts : posting.keptAt post1.job.asid post1.jcb = none ∧ post1.jcb.toNat % 64 = 0 ∧
    posting.translate 1 0x3000 0x10400 .write = (.ok 0x20400 tlb0, posting) ∧ posting.layerOff 0x20400 = false ∧
    posting.jcbWords job1 0x10500 ≠ none ∧ ({ posting with tlb := [] } : State).jcbWords job1 0x10500 = none ∧
    (posting.translate 1 0x3000 0x10500 .system).1 = .ok 0x20500 tlb0 ∧ Cause.kind .pgAbsent = .served ∧ Cause.kind .pgPerm ≠ .served ∧
    (({ posting with tlb := [{ tlb0 with wr := false }] } : State).translate 1 0x3000 0x10400 .write).1 = .fault .pgPerm := by
  decide +kernel
def cancelling : State := { ready1 with cancelQ := [(4, 0x10100, 0x10500, 0)] }
theorem test_cancelApply : (match exec .cancelApply cancelling with
    | .next t => (t.launches.map (·.cancelled), (t.ctxAt 1).phase, t.cancels.length, t.posts.map (·.status)) | _ => ([], .admitted, 0, [])) =
      ([true], .free, 1, [.ok, .cancelled]) := by decide +kernel
/-- The state once the job descriptor of a cancel has been read. -/
def cancelRead (s : State) : State := (({ s with cancelQ := [] } : State).jobWords 0x10100).2
theorem witness_Cancels : (({ cancelling with cancelQ := [] } : State).jobWords 0x10100).1.toOption = some jobRead ∧
    (({ cancelling with cancelQ := [] } : State).jobWords 0x10101).1.toOption = none ∧
    (cancelRead cancelling).jcbDone job1 0x10500 = false ∧ (cancelRead cancelling).namesInstance job1 (4, 0x10100, 0x10500, 0) = true ∧
    cancelPages job1 (4, 0x10100, 0x10500, 0) = [0x10500] ∧ (cancelRead cancelling).jcbAway job1 0x10500 = false ∧
    (cancelRead cancelling).namesInstance job1 (2, 0x10100, 0x10700, 0) = false ∧
    (cancelRead (poke cancelling 0x20500 4)).jcbDone job1 0x10500 = true ∧ cancelling.untraced 1 ∧
    ((cancelRead cancelling).translate 1 0x3000 0x10500 .write).1 = .ok 0x20500 tlb0 ∧ (cancelRead cancelling).layerOff 0x20500 = false ∧
    ((cancelRead cancelling).memWord 0x20500).getLsbD 2 = false ∧ (cancelRead cancelling).keptAt 1 0x10500 = none ∧
    launch1.failed = false ∧ cancelling.taskCancelled launch1 0 0 = false := by unfold State.untraced; decide +kernel
/-- Cancels of the launch, its graph, its phase, one task; of a launch whose JCB lies on an absent page. -/
def graphed : State := poke (poke ready1 0x20520 0x10800) 0x20528 0x10900
theorem test_cancelLevels : ([(1, 0x10400, 0), (2, 0x10800, 0), (3, 0x10900, 0), (0, 0x10400, 0)] : List (Nat × Word × Nat)).map (fun c =>
      match exec .cancelApply { graphed with cancelQ := [(c.1, 0x10100, c.2.1, c.2.2)] } with
      | .next t => (t.ctxAt 1).phase == .free && t.posts.any (fun p => p.lvl == 1 && p.status == .cancelled && p.cause == 7) | _ => false) =
    [true, true, true, true] ∧
    (match exec .cancelApply { graphed with cancelQ := [(1, 0x10100, 0x10400, 0)] } with | .next t => t.memWord 0x20400 | _ => 0) = 8 := by
  decide +kernel
theorem witness_CancelHeld : (let s : State := { launched { launch1 with desc := some { desc1 with ljcb := 0x30400 } } with cancelQ := [(1, 0x10100, 0x30400, 0)] }
    (cancelRead s).namesInstance job1 (1, 0x10100, 0x30400, 0) = true ∧
    cancelPages job1 (1, 0x10100, 0x30400, 0) = [0x30400] ∧ (cancelRead s).jcbAway job1 0x30400 = true) := by decide +kernel
def ringing (w : List Word) : State := { ready1 with enqs := [⟨0, 3, 0, true, [⟨w⟩], [], 0, 0⟩] }
theorem test_enqueueTake : (match exec (.enqueueTake 3) (ringing [1, 0x10100, 0x10200, 0]) with
    | .next t => (t.launches.map (fun l => (l.jd, l.ld, l.job.isSome)), t.enqs.map (·.ring)) | _ => ([], [])) =
      ([(0x10100, 0x10200, true), (0x10100, 0x10200, false)], [[]]) := by decide +kernel
theorem test_enqueuedCancel : (match exec (.enqueueTake 3) (ringing [0x42, 0x10100, 0x10500, 0]) with
    | .next t => t.cancelQ.map (fun c => (c.1, c.2.2.1)) | _ => []) = [(4, 0x10500)] ∧
    (match exec (.enqueueTake 3) (ringing [0x80, 0x10100, 0, 0]) with
    | .next t => t.posts.map (fun p => (p.lvl, p.jcb, p.cause)) | _ => []) = [(4, 0x10500, 2)] := by decide +kernel
theorem witness_EnqueuedRecords : (ringing [1, 0x10100, 0x10200, 0]).enqQ ready1.part 3 = some ⟨0, 3, 0, true, [⟨[1, 0x10100, 0x10200, 0]⟩], [], 0, 0⟩ ∧
    ready1.launches.countP (fun l => l.part == ready1.part && !l.done) < 4096 ∧ wd [0x80] 3 = 0 ∧ ufield (0x80 : Word) 7 57 ≠ 0 ∧
    (2 : Word) = 2 ∧ wd [0x42] 0 = BitVec.ofNat 64 (2 + 16 * 4) ∧ (ready1.jobWords 0x10100).1.toOption = some jobRead ∧
    (ready1.jobWords 0x10101).1.toOption = none :=
  ⟨by decide, by decide, by decide, by decide, rfl, by decide, by decide +kernel, by decide +kernel⟩

/-- Tasks of other members: one that is away, and one that is not. -/
theorem witness_TaskReleaseAway : ({ launchAway with away := [1] } : Launch).away.contains 1 = true ∧
    launchAway.away.contains 1 = false ∧ (∀ p ∈ (launched { launchAway with away := [1] }).peers, ∀ e ∈ p.segs, e.cpins = 0) ∧
    (launched { launchAway with away := [1] }).launchBy 0 = some { launchAway with away := [1] } := by decide
theorem test_taskReleaseAway : (match exec (.taskRelease (.away 0 1 1)) (launched { launchAway with away := [1] }) with
    | .next t => (t.launches.map (fun l => (l.away, l.retired)), t.posts.map (fun p => (p.lvl, p.status, p.cause))) | _ => ([], [])) =
      ([([], [1])], [(5, .ok, 0), (1, .cancelled, 7)]) := by decide +kernel

/-- A running task, its job pre-empted, at a literal bundle with DP. -/
def drainAt (w : Nat) : State := { base.placeWord w with preempted := [task0.jd] }
def dpBundle : Nat := 1
theorem test_drainPoint : (match exec .drainPoint (drainAt dpBundle) with
    | .next t => (t.ctx.phase, t.images.map (fun x => (x.heavy, x.slot, x.ctx.pc))) | _ => (.free, [])) =
      (.saved, [(false, some 0, 64)]) ∧
    (match exec .drainPoint (drainAt 0) with | .next t => t.images.length | _ => 1) = 0 := by decide +kernel
theorem witness_DrainPointsAndSaves : base.stopWanted = false ∧ lagged.ctx.lag ≠ [] ∧ (drainAt dpBundle).ctx.phase = .running ∧
    (drainAt dpBundle).stopWanted = true ∧ (drainAt dpBundle).ctx.lag = [] ∧ (drainAt dpBundle).ctx.drained ≠ some 64 ∧
    (drainAt dpBundle).expand = .ok (⟨{ Header.zero with dp := true }, .nop, .nop, .nop, .nop, .nop, .nop, List.replicate 8 .nop⟩, 64 + 98, drainAt dpBundle) ∧
    (drainAt dpBundle).ctx.flight = [] ∧ (drainAt dpBundle).ctx.queues = [] ∧ (drainAt dpBundle).ctxCancelled 0 = false :=
  ⟨by decide, by decide, rfl, rfl, rfl, by decide, rfl, rfl, rfl, rfl⟩
/-- A blocked context 1, its job pre-empted, with a bundle in the lag record. -/
def blocked : State := { base with preempted := [task0.jd], others := [(1, lagged.ctx)] }
theorem test_heavySave : (match exec (.heavySave 1) blocked with
    | .next t => ((t.ctxAt 1).phase, t.images.map (fun x => (x.heavy, x.slot, x.ctx.lag.length))) | _ => (.free, [])) =
      (.saved, [(true, some 1, 1)]) := by decide +kernel
theorem witness_HeavySave : (blocked.ctxAt 1).phase = .running ∧ (blocked.ctxAt 1).task = some task0 ∧
    blocked.preempted.contains task0.jd = true ∧ blocked.ctxCancelled 1 = false ∧ blocked.phase = none ∧ (blocked.ctxAt 1).lag ≠ [] ∧
    (∀ q ∈ blocked.reqs, q.ctx ≠ 1) ∧ (∀ q ∈ (blocked.ctxAt 1).queues, ∀ e ∈ q.2, e.val ≠ none) := by decide
def image1 : Image := ⟨false, none, { base.ctx with task := some task1, vcnt := 32 }, [{ seg0 with st := .absent }], [], [(0, 5)], [], [], [], [], ⟨[], []⟩⟩
def saved1 : State := { launched launch1 with images := [{ image1 with slot := some 1 }]
                                              others := [(1, { Ctx.zero with phase := .saved, task := some task1 })] }
theorem test_preemptTask : (match exec (.preemptTask 1) saved1 with
    | .next t => ((t.ctxAt 1).phase, t.images.map (·.slot)) | _ => (.saved, [])) = (.free, [none]) := by decide +kernel
def resumable (l : Launch) : State := { launched l with images := [image1] }
theorem test_taskResume : (match exec (.taskResume 0) (resumable launch1) with
    | .next t => (t.ctx.phase, t.ctx.regs.ra 5, t.v.get 0 0, t.images.length, t.segs.map (·.name)) | _ => (.free, 0, 0, 1, [])) =
      (.running, 7, 5, 0, [9]) ∧
    (match exec (.taskResume 0) (resumable { launch1 with cancelled := true }) with
    | .next t => t.posts.map (fun p => (p.lvl, p.status, p.cause)) | _ => []) = [(5, .ok, 0), (1, .cancelled, 7)] := by decide +kernel
theorem witness_PreemptedTasks : (saved1.ctxAt 1).phase = .saved ∧ (∀ c ∈ saved1.copies, c.ctx ≠ 1) ∧ (∀ z ∈ saved1.zstores, z.ctx ≠ 1) ∧
    (∀ q ∈ saved1.reqs, q.ctx ≠ 1) ∧ (resumable launch1).images[0]? = some image1 ∧ image1.ctx.task = some task1 ∧
    (resumable launch1).launchBy task1.launch = some launch1 ∧ (launched launch1).taskCancelled launch1 0 0 = false ∧
    (launched launch1).fits launch1 desc1 0 = some window1 ∧ window1.load = false ∧ image1.slot = none ∧
    ({ launched launch1 with online := false } : State).fits launch1 desc1 0 = none ∧ image1.ctx.vcnt = desc1.vcnt ∧ image1.v.wf 0 = true := by
  decide +kernel
/-- The dictionary loaded again at resume is the one of `witness_Loads`. -/
theorem witness_Resumes :
    ((launched launch1).restore image1 window1).Seats window1.ctx ∧
    (launched launch1).segs.length + image1.segs.length ≤ 256 ∧
    256 < ({ launched launch1 with segs := List.replicate 256 seg0 } : State).segs.length + image1.segs.length := by
  unfold State.Seats
  exact ⟨by decide +kernel, by decide, by decide +kernel⟩
/-- A launch whose task another core's member has taken becomes eligible: the L1 is invalidated for its first dispatch. -/
def elsewhere : State := { launched { launch1 with next := 1, away := [0] } with l1 := [⟨4, 0⟩] }
theorem test_eligibilityNotes : (elsewhere.noteEligible.l1, elsewhere.noteEligible.launches.map (·.eligAt.isSome)) = ([], [true]) ∧
    (elsewhere.noteEligible.noteEligible == elsewhere.noteEligible) = true := by decide +kernel
theorem witness_EligibilityNotes : (∀ l ∈ elsewhere.launches, elsewhere.newlyEligible l = true ∧ l.started = false ∧ l.away ≠ [] ∧
      l.desc = some desc1) ∧ desc1.preds.any (·.erl) = false ∧
    (∀ l ∈ (launched newLaunch).launches, (launched newLaunch).newlyEligible l = false) := by decide +kernel
/-- A dictionary image that no task uses stays while other entries are free (R343). -/
def otherDict : LaunchDesc := { desc1 with dict := 0x10700 }
theorem test_retainedImage : ((launched launch1).fits launch1 otherDict 0).map (fun w => (w.load, w.dbase)) = some (true, 1) ∧
    (({ launched launch1 with dictRuns := [(0, 1024, 0x10380, 0)] } : State).fits launch1 otherDict 0).map (fun w => (w.load, w.dbase)) =
      some (true, 0) := by decide +kernel
theorem witness_Fitting_retained : ∃ b, b + otherDict.dcnt ≤ 1024 ∧
    (∀ h ∈ (launched launch1).held, b + otherDict.dcnt ≤ h.2.2.dbase ∨ h.2.2.dbase + h.2.2.dlim ≤ b) ∧
    ∀ r ∈ (launched launch1).dictRuns, b + otherDict.dcnt ≤ r.1 ∨ r.1 + r.2.1 ≤ b := ⟨1, by decide +kernel⟩
/-- A job whose control block has tables of graphs, at 0x10800, and of phases, at 0x10900; a post of a phase, counted. -/
theorem test_postsAbove : (match exec .jcbPost (poke (poke posting 0x20520 0x10800) 0x20528 0x10900) with
    | .next t => t.posts.map (fun p => (p.lvl, p.jcb)) | _ => []) =
      [(2, 0x10800 + BitVec.ofNat 64 (64 * desc1.graph.toNat)), (3, 0x10900 + BitVec.ofNat 64 (64 * desc1.phase.toNat)), (4, 0x10500)] ∧
    (match exec .jcbPost { poke posting 0x20408 5 with posts := [{ post1 with lvl := 3 }] } with
      | .next t => t.postedAt 1 0x10400 | _ => 0) = 1 := by decide +kernel
theorem witness_CompletionPosts_tables : (let s := poke (poke posting 0x20520 0x10800) 0x20528 0x10900
    wd ((s.jcbWords job1 0x10500).getD []) 4 = 0x10800 ∧ wd ((s.jcbWords job1 0x10500).getD []) 5 = 0x10900 ∧
    (s.launchBy post1.launch).bind (·.desc) = some desc1 ∧ wd ((posting.jcbWords job1 0x10500).getD []) 4 = 0) := by decide +kernel
/-- A saved task whose job is pre-empted and that is cancelled retires; on a frozen core a saved context waits. -/
theorem test_cancelledWhilePreempted : (match exec (.taskResume 0) { resumable { launch1 with cancelled := true } with preempted := [0x10100] } with
    | .next t => (t.images.length, t.posts.map (fun p => (p.lvl, p.status))) | _ => (1, [])) = (0, [(5, .ok), (1, .cancelled)]) ∧
    (match exec (.taskResume 0) { resumable launch1 with preempted := [0x10100] } with
      | .next t => t.images.length | _ => 0) = 1 ∧
    (match exec (.preemptTask 1) { saved1 with frozen := true } with | .next t => (t.ctxAt 1).phase | _ => .free) = .saved := by decide +kernel

/-! ### Errors, spares, temperature and power -/

theorem test_softErrors : (match exec (.softError (.memUnit 0x1000 true)) base with
    | .next t => (t.corrected, t.memPoison) | _ => (0, [(0, true)])) = (1, []) ∧
    (match exec (.softError (.segUnit 0 9 3 false)) base with
      | .next t => t.segs.map (fun e => (e.poison.get false 3, e.poison.get false 2)) | _ => []) = [(true, false)] ∧
    (match exec (.softError (.queueEntry 0 0 false)) (queued 0) with
      | .next t => (t.ctx.queue 0).map (·.poison) | _ => []) = [true] ∧
    (match exec (.softError (.accumulator 255 false)) base with
      | .next t => t.ctx.zPoison.get false 255 | _ => false) = true := by decide +kernel
theorem test_softErrorRegisters : (match exec (.softError (.vecReg 7 639 false)) base with
      | .next t => t.vPoison.get false 5119 | _ => false) = true ∧
    (match exec (.softError (.aReg 63 false)) base with | .next t => t.ctx.regs.aPoison.get false 63 | _ => false) = true ∧
    (match exec (.softError .coreState) base with | .next t => t.frozen | _ => false) = true := by decide +kernel
theorem witness_SoftErrors : base.ctx.phase = .running ∧ (7 : Nat) < 8 ∧ (639 : Nat) < 640 ∧ (63 : AReg) ≠ 0 ∧ (23 : Nat) < 24 ∧
    base.seg 0 9 = some seg0 ∧ seg0.here = true ∧ 7 < 2 * seg0.size ∧ ((queued 0).ctx.queue 0)[0]? = some entry0 := by decide
def withAside : State := base.modCtx (fun c => { c with aside := some { aside0 with flight := [⟨0, 9, .ia, 0, .reg 639, 5, 0x7, false⟩] } })
theorem witness_SoftErrorStops : (withAside.ctx.aside = some { aside0 with flight := [⟨0, 9, .ia, 0, .reg 639, 5, 0x7, false⟩] }) ∧ ((ready1.ctxAt 1).phase = .admitted) ∧
    (ready1.ctxAt 1).task = some { task1 with ws := [] } ∧ ready1.launchBy 0 = some launch1 ∧ (511 : Nat) < 512 ∧ (127 : Nat) < 128 := by decide
theorem test_softErrorRows : (match exec (.softError (.row 0x30000 false)) base with
      | .next t => (t.retiredPages, t.corrected, (t.barAt 0 0x40008).getLsbD 0) | _ => ([], 0, false)) = ([3], 1, true) ∧
    (match exec (.softError (.asideShelf 0 false)) withAside with | .next t => t.ctx.aside.map (fun a => a.flight.map (·.poison)) | _ => none) =
      some [true] ∧
    (match exec (.softError (.smallReg false)) base with | .next t => t.frozen | _ => false) = true := by decide +kernel
def frozen : State := { base with frozen := true }
theorem test_spares : (match exec (.coreMigration (some 520) 0xF) frozen with
    | .next t => (t.phys, t.frozen, t.spareCores.get 0 0, t.ctx.regs.ra 5) | _ => (0, true, 0, 0)) = (520, false, 15, 7) ∧
    (match exec (.coreMigration (some 520) 0xF) { frozen with spareCores := [] } with
      | .next t => (t.online, t.ctx.phase) | _ => (true, .running)) = (false, .retiring) ∧
    (match exec (.sliceSpare 3 true) base with | .next t => (t.spareSlices.get 0 0, t.sliceOut.get false 3) | _ => (8, true)) = (7, false) ∧
    (match exec (.sliceSpare 3 false) { base with spareSlices := [] } with | .next t => t.sliceOut.get false 3 | _ => false) = true := by decide +kernel
theorem witness_Spares : frozen.frozen = true ∧ frozen.phase = none ∧ frozen.spareCores.get 0 (dieOf frozen.core.toNat) ≠ 0 ∧
    ({ frozen with spareCores := [] } : State).spareCores.get 0 0 = 0 ∧ base.frozen = false ∧ base.sliceOut.get false 511 = false ∧
    frozen.freeSpare 0 512 = true ∧ frozen.freeSpare 0 527 = true ∧ frozen.freeSpare 0 528 = false ∧ frozen.freeSpare 0 511 = false ∧
    base.spareSlices.get 0 (511 / 128) ≠ 0 ∧ ({ base with spareSlices := [] } : State).spareSlices.get 0 (511 / 128) = 0 ∧ ({ base with sliceOut := [(3, true)] } : State).sliceOut.get false 3 = true := by decide
theorem test_throttle : ∃ t, exec (.thermalThrottle 31) base = .next t ∧ t.throttled.get false 31 = true := by
  refine ⟨_, rfl, ?_⟩
  dsimp only
  split <;> decide +kernel
theorem test_power : (match exec (.throttleRelease 31) { base with throttled := [(31, true)] } with | .next t => t.throttled.get false 31 | _ => true) = false ∧
    (match exec (.pwrcapWrite 500) base with | .next t => t.barAt 0 0x40010 | _ => 0) = 500 ∧
    (match exec (.pwrcapWrite 499) base with | .next t => t.barAt 0 0x40010 | _ => 0) = 3000 ∧
    (match exec (.thermalShutdown 0) base with | .next t => (t.inReset, t.ctx.phase) | _ => (false, .running)) = (true, .retiring) := by
  decide +kernel
theorem witness_TemperatureAndPower : ufield (500 : Word) 0 12 = 500 ∧ ufield (3000 : Word) 0 12 = 3000 ∧
    ¬ (500 ≤ ufield (3001 : Word) 0 12 ∧ ufield (3001 : Word) 0 12 ≤ 3000) ∧ base.ctx.phase = .running := by decide

/-! ### The mailbox -/

/-- A record at slot 0, which is the next. -/
def mailed (s : State) (w : List Word) : State :=
  (((((s.setBar 0 0x2000 0x100).setBar 0 0 (wd w 0)).setBar 0 8 (wd w 1)).setBar 0 16 (wd w 2)).setBar 0 24 (wd w 3))
theorem test_mailboxSlotWrite : (match exec (.mailboxSlotWrite 255 3 7) base with | .next t => t.bar 0x1FF8 | _ => 0) = 7 ∧
    (match exec (.mailboxSlotWrite 0 0 0x80) (mailed base [0x181]) with | .next t => (t.bar 0, t.bar 0x2000) | _ => (0, 0)) =
      (0x181, 0x100000100) := by decide +kernel
theorem test_launch : (match exec .launch (mailed base [0x181, 0x10100, 0x10200]) with
    | .next t => (t.launches.map (fun l => (l.jd, l.ld)), t.bar 0, t.bar 0x2000, t.msi) | _ => ([], 0, 0, [])) =
      ([(0x10100, 0x10200)], 0x101, 0x101, [(0, 0)]) := by decide +kernel
theorem test_cancelRecord : (match exec .cancel (mailed base [0x1C2, 0x10100, 0x10500]) with
    | .next t => (t.cancelQ.map (fun c => (c.1, c.2.1)), t.bar 0) | _ => ([], 0)) = ([(4, 0x10100)], 0x142) := by decide +kernel
theorem test_preemptRecord : (match exec .preempt (mailed ready1 [0x183, 0x10100]) with
    | .next t => (t.preempted, (t.ctxAt 1).phase) | _ => ([], .running)) = ([0x10100], .free) ∧
    (match exec .resume (mailed { ready1 with preempted := [0x10100] } [0x184, 0x10100]) with | .next t => t.preempted | _ => [1]) = [] := by
  decide +kernel
theorem test_qcreate : (match exec .qcreate (mailed base [0x187, 3, 0x10800, 4]) with
    | .next t => (t.enqs.map (fun q => (q.idx, q.cap)), t.bar 8) | _ => ([], 0)) = ([(3, 4)], 3) ∧
    (match exec .qdestroy (mailed (ringing []) [0x188, 3]) with
      | .next t => t.enqs.map (fun q => (q.exists_, q.gen)) | _ => []) = [(false, 1)] := by decide +kernel
theorem test_badrec : (match exec .badrec (mailed base [0x18F]) with | .next t => (t.bar 0, t.bar 0x2000) | _ => (0, 0)) =
    (0x2010F, 0x101) := by decide +kernel
theorem witness_MailboxSlots : (mailed base [0x18F]).bar (32 * 0) = 0x18F ∧ ufield (0x18F : Word) 8 8 = ufield (0x100 : Word) 8 8 ∧
    8 < ufield (0x18F : Word) 0 4 ∧ (0x100 : Word).getLsbD 7 = false := by decide
theorem witness_MailboxRecords : (∀ w ∈ ([[0x181, 0, 0, 0], [0x182, 0, 0, 5], [0x1C2, 0, 0, 0], [0x183, 0, 0, 0], [0x184, 0, 0, 0],
      [0x187, 255, 32, 0xFFFFF], [0x188, 0, 0, 0]] : List (List Word)),
    (mailed base w).mbHead = some (0, w) ∧ ufield (wd w 0) 24 40 = 0) ∧ (mailed base []).partOf (groupOf 0) = some base.part ∧
    (mailed base []).twinOn = false ∧ base.launches.countP (fun l => l.part == base.part && !l.done) < 4096 ∧
    ((255 : Word).toNat < 256 ∧ (32 : Word).toNat % 32 = 0 ∧ (0xFFFFF : Word).toNat < 2 ^ 20) ∧ base.enqQ base.part 3 = none ∧
    (ringing []).enqQ base.part 3 = some ⟨0, 3, 0, true, [⟨[]⟩], [], 0, 0⟩ := by decide +kernel

/-- A tensor of one tile of 128 bytes at 0x4287650000, its descriptor at 0x20000, the pages of the spec's worked walk. -/
def tensorWords : List Word := [0x50001, 0x4287650000, 0x10000100001, 0, 0, 0, 0, 0]
def tensor (w : List Word) (d0 : Word) : State := mailed (pokes { tables.setBar 0 0x10500 0x10000 with
  tlb := [{ tlb0 with asid := 0 }], sysRoot := [(0, 0x100000)] } 0x20000 (tensorWords.set 0 d0)) w
theorem test_tbind : (match exec .tbind (tensor [0x185, 0, 0, 0] 0x50001) with
    | .next t => (t.bar 0, t.memWord 0x20000, t.memWord 0x104028, t.bound.map (·.size)) | _ => (0, 0, 0, [])) =
      (0x105, 0x50003, 0x345601B1, [128]) ∧
    (match exec .tbind (tensor [0x185, 0, 0, 0] 0x50003) with | .next t => t.bar 0 | _ => 0) = 0x110105 ∧
    (match exec .tunbind (tensor [0x186, 0, 0, 0] 0x50003) with
      | .next t => (t.bar 0, t.memWord 0x20000) | _ => (0, 0)) = (0x106, 0x50101) := by decide +kernel
def leaf1 : Tlb := ⟨0, 0x4287650000, 0x10000, 0x34560000, 0, true, true, false, false, false, 0, 0x104028⟩
theorem witness_TensorBinding : (tensor [0x185, 0, 0, 0] 0x50001).mbHead = some (0, [0x185, 0, 0, 0]) ∧
    (∃ s1, (tensor [0x185, 0, 0, 0] 0x50001).descriptor 0 = .ok (tensorWords, 0x20000) s1 ∧
      s1.rawWalk 0 s1.sysRootOf 0x4287650000 = .leaf leaf1 ∧ s1.reqs = [] ∧ s1.zstores = [] ∧
      s1.leaves s1.part (unitsOfRun 0x4287650000 (tensorSize tensorWords)) = some [leaf1]) ∧
    badTensor tensorWords = false ∧ badTensor (tensorWords.set 0 0x50003) = false ∧ leaf1.kind = 0 ∧ leaf1.sl = false ∧
    tensorSize tensorWords ≤ 65536 ∧ (0x20000 + 64 ≤ leaf1.ent ∨ leaf1.ent + 8 ≤ 0x20000) :=
  ⟨by decide +kernel, ⟨_, rfl, by rfl, rfl, rfl, by rfl⟩, by decide +kernel, by decide +kernel, rfl, rfl, by decide +kernel, by decide⟩
/-- What a lookup gives, and the state after it. -/
def lookFor {α : Type} : Look α → Option α
  | .ok a _ => some a
  | .waits _ | .fault _ _ _ => none
def lookEnd {α : Type} : Look α → State
  | .ok _ t | .waits t | .fault _ _ t => t
/-- The state once the descriptor of tensor 0 has been read. -/
def describedBy (s : State) : State := lookEnd (s.descriptor 0)
theorem witness_Unbinding : let s := tensor [0x186, 0, 0, 0] 0x50003
    let s1 := describedBy s
    lookFor (s.descriptor 0) = some (tensorWords.set 0 0x50003, 0x20000) ∧
    ((s1.sysDirty s1.part (s1.descVa s1.part 0)).feltWrite 0x20000 (natBytes 8 (0x50003 &&& ~~~(2#64) : Word).toNat) 0 false).leaves s.part
      (unitsOfRun 0x4287650000 (tensorSize tensorWords)) = some [leaf1] ∧
    s1.reqs = [] ∧ s1.zstores = [] ∧ s1.ctx.watch.staged = [] ∧ (∀ c ∈ s1.others, c.2.watch.staged = []) ∧
    s1.layerOff 0x20000 = false ∧ s1.layerOff leaf1.ent = false ∧ s.barAt 0 0x30000 ≠ 0 ∧
    ∀ b ∈ s1.bound, b.part = s1.part → b.idx = 0 → b.closing = false := by decide +kernel

/-! ### The host's windows and registers, debugging, boot -/

theorem test_bar2 : (match exec (.bar2Write ⟨0, 0x20001⟩ 7) (base.setBar 0 0x10100 0) with | .next t => t.memWord 0x20001 | _ => 0) = 7 ∧
    (match exec (.bar2Read ⟨0, 0x20000⟩) (poke (base.setBar 0 0x10100 0) 0x20000 9) with | .next t => t.hostRead | _ => none) = some 9 ∧
    (match exec (.bar2Read ⟨3, 0xFFFFFFFFE⟩) base with | .next t => t.hostRead | _ => some 0) = none ∧
    (match exec (.remoteWindowAccess 0x20000 (some 5)) (base.setBar 0 0x10100 0) with | .next t => t.memWord 0x20000 | _ => 0) = 5 := by
  decide +kernel
/-- Offsets that are a multiple of 8 and that are not, of another function too, whose window lies where its GWB says; the last
bytes of the window; a die switched off; a layer behind which a flit was lost. -/
theorem witness_HostWindows : (∀ fn, fn < 8 → ∀ off ∈ [0x20000, 0x20004, 0xFFFFFFFF8], base.layerOff off = false ∧
      off + 8 ≤ 2 ^ 36 ∧ inHbm ((base.barAt fn 0x10600).toNat + off) = true ∧
      inHbm ((base.barAt fn 0x10600).toNat + off + 7) = true) ∧
    ¬ (0xFFFFFFFF9 + 8 ≤ 2 ^ 36) ∧ ({ base with flitLost := true } : State).layerOff 0x20000 = true ∧
    ((base.setBar 3 0x10600 0x40000).barAt 3 0x10600).toNat + 1 = 0x40001 ∧ (0x20000 : Nat) % 8 = 0 := by decide +kernel
/-- Bank group 0 of die 0, reserved, seen through BAR2. -/
theorem witness_HostNear : (let s := (base.setBar 0 0x10600 0x10000000000).setBar 0 0x20010 1
    inNear ((s.bar 0x10600).toNat + 0) = true ∧ (s.barAt 0 (0x20010 + 0x1000 * (nearGroup 0x10000000000 / 32))).getLsbD
      (nearGroup 0x10000000000 % 32) = true ∧ s.layerOff 0x10000000000 = false) := by decide +kernel
/-- Partition 1 holds no group and partition 0 does: no twins. -/
theorem witness_Unpaired : (0x48 : Word).getLsbD 6 = true ∧ ufield (0x48 : Word) 0 3 = 0 ∧ ufield (0x48 : Word) 3 3 = 1 ∧
    base.barAt 0 (0x30000 + 8 * 0) ≠ 0 ∧ base.barAt 0 (0x30000 + 8 * 1) = 0 := by decide +kernel
theorem test_unpaired : (match exec (.twinWrite 0x48) base with | .next t => t.barAt 0 0x30048 | _ => 1) = 0 := by decide +kernel
theorem test_partitions : (match exec (.pcfgWrite 1 0) base with | .next t => (t.barAt 0 0x30008, t.barAt 0 0x30040) | _ => (1, 1)) = (0, 0) ∧
    (match exec (.pcfgWrite 1 1) base with | .next t => (t.barAt 0 0x30008, t.barAt 0 0x30040) | _ => (1, 0)) = (0, 1) ∧
    (match exec .pcfgsClear (base.setBar 0 0x30040 1) with | .next t => t.barAt 0 0x30040 | _ => 1) = 0 ∧
    (match exec (.twinWrite 0xFF) base with | .next t => t.barAt 0 0x30048 | _ => 0) = 0x7F ∧
    (match exec .cmpstClear (base.setBar 0 0x30050 0xF) with | .next t => t.barAt 0 0x30050 | _ => 0) = 0xC ∧
    (match exec (.cgspanWrite 255 0xFFFFFFFF) base with | .next t => t.bar 0x10EF8 | _ => 0) = 0x1FFFFF := by decide +kernel
theorem witness_PartitionRegisters : (∀ l ∈ base.launches, l.part = 1 → l.done = true) ∧
    (∀ j : BitVec 3, j ≠ 1 → base.barAt 0 (0x30000 + 8 * j.toNat) &&& 0 = 0) ∧ base.barAt 0 0x30000 &&& 1 ≠ 0 ∧
    (∃ l ∈ (launched launch1).launches, l.done = false ∧ l.part.toNat = ufield (0x40 : Word) 0 3) ∧
    (∀ x ∈ base.groups, ¬ (x.part = base.part ∧ x.gid = 255)) := by decide
def twins : State := base.setBar 0 0x30048 0x48
def write1 : KeyedWrite := ⟨1, 0, 3, 0, 0x1000, 0xFF, 5⟩
theorem test_comparator : (match exec (.comparatorCheck false write1) twins with | .next t => t.cmpKeys | _ => []) = [⟨false, write1⟩] ∧
    (match exec (.comparatorCheck true write1) { twins with cmpKeys := [⟨false, write1⟩] } with
      | .next t => (t.cmpKeys, t.barAt 0 0x30050) | _ => ([], 1)) = ([], 0) ∧
    (match exec (.comparatorCheck true { write1 with bytes := 6 }) { twins with cmpKeys := [⟨false, write1⟩] } with
      | .next t => ((t.barAt 0 0x30050).getLsbD 0, t.msi) | _ => (false, [])) = (true, [(0, 3), (1, 3)]) := by decide +kernel
theorem witness_Comparison : twins.twinOn = true ∧ base.twinOn = false ∧ (twins.barAt 0 0x30050).getLsbD 0 = false ∧
    (∀ fn : Fin 8, (twins.barAt fn 0x80020).getLsbD 3 = false) ∧ twins.cmpKeys = [] := by decide
def halted : State := base.modCtx (fun c => { c with stopped := true })
theorem test_debugging : (match exec .dbgStop base with | .next t => t.ctx.stopped | _ => false) = true ∧
    (match exec .dbgGo halted with | .next t => (t.ctx.stopped, t.ctx.brkOnce) | _ => (true, false)) = (false, true) ∧
    (match exec .dbgStep halted with | .next t => (t.ctx.stopped, t.ctx.stepTo) | _ => (true, none)) = (false, some 2) ∧
    (match exec (.registerWrite ⟨0, 0x100040 + 8 * 63⟩ 8) halted with | .next t => t.ctx.regs.ra 63 | _ => 0) = 8 := by decide +kernel
theorem witness_Debugging : ufield (base.bar 0x80008) 0 9 = base.core.toNat ∧ ufield (base.bar 0x80008) 9 2 = (0 : BitVec 2).toNat ∧
    base.ctx.phase = .running ∧ base.ctx.stopped = false ∧ halted.ctx.stopped = true ∧
    ({ base with ctx := Ctx.zero } : State).ctx.phase ≠ .running := by decide
theorem test_snapshot : (match exec .snapshotFire (base.setBar 0 0x80020 3) with | .next t => t.msi | _ => []) = [(0, 5)] ∧
    (match exec (.trcbaseWrite 0x12345) base with | .next t => (t.bar 0x80040, t.bar 0x80058) | _ => (0, 1)) = (0x12000, 0) ∧
    (match exec (.trcbaseWrite 0x12345) (base.setBar 0 0x80050 2) with | .next t => t.bar 0x80040 | _ => 1) = 0 ∧
    (match exec .trclostClear (base.setBar 0 0x80060 9) with | .next t => t.bar 0x80060 | _ => 1) = 0 ∧
    (match exec (.lpselWrite 0x7FFF) (base.setBar 0 0x80088 5) with | .next t => (t.bar 0x80080, t.bar 0x80088) | _ => (0, 1)) =
      (0x3FFF, 0) := by decide +kernel
theorem test_registerWrites : (match exec (.registerWrite ⟨0, 0x10178⟩ 0x1FFFF) base with | .next t => t.bar 0x10178 | _ => 0) = 0xFFFF ∧
    (match exec (.registerWrite ⟨0, 0x10400⟩ 4) base with | .next t => t.bar 0x10400 | _ => 0) = 4 ∧
    (match exec (.registerWrite ⟨0, 0x10400⟩ 5) base with | .next t => t.bar 0x10400 | _ => 0) = 2 ∧
    (match exec (.registerWrite ⟨0, 0x23008⟩ 30) base with | .next t => t.barAt 0 0x23008 | _ => 0) = 30 ∧
    (match exec (.registerWrite ⟨0, 0x23008⟩ 31) base with | .next t => t.barAt 0 0x23008 | _ => 0) = 20 := by decide +kernel
theorem test_functionLevelReset : (match exec .functionLevelReset ((launched launch1).setBar 0 0x10178 0) with
    | .next t => (t.bar 0x10178, t.cancelQ) | _ => (0, [])) = (0xFFFF, [(4, 0x10100, 0x10500, 0)]) := by decide +kernel
/-- A launch that is not read yet: its job is known once its descriptor has been read. -/
theorem witness_FunctionReset : (launched newLaunch).launches = [newLaunch] ∧ newLaunch.part = (launched newLaunch).part ∧
    newLaunch.done = false ∧ newLaunch.job = none ∧ ((launched newLaunch).jobWords newLaunch.jd).1.toOption = some jobRead := by
  decide +kernel
theorem test_reservedOffsets : [0x2008, 0xFFF8, 0x10F00, 0x40018, 0x7FFF8, 0x800A0, 0x200000, 0x10004].map (fun o =>
      match exec (.registerWrite ⟨0, o⟩ 7) base with | .next t => t.bar0 == base.bar0 | _ => false) = List.replicate 8 true := by
  decide +kernel
theorem witness_RegistersAndReset : base.part = 0 ∧ ((base.setBar 0 0x30000 0).setBar 0 0x30008 1).part ≠ 0 ∧ ufield (10 : Word) 0 5 = 10 ∧
    ufield (0 : Word) 0 16 = 0 ∧ (∃ l ∈ (launched launch1).launches, l.part = 0 ∧ l.done = false ∧ l.job = some job1) := by decide
/-- An image of 576 bytes of payload with SVN 3, MINSVN 2, both keys in slot 1. -/
def image0 : BootImage := ⟨[0x3434C3546, 0x24000000002, 5] ++ List.replicate 61 0, List.replicate 576 0, List.replicate 384 0, []⟩
def atStage (n : Nat) : State := { State.reset with boot := { State.reset.boot with stage := n, floor := 3, minsvn := 2 } }
theorem test_boot : (match exec (.powerOn true) State.reset with | .next t => t.boot.stage | _ => 0) = 2 ∧
    (match exec (.bootLinkUp true) (atStage 2) with | .next t => t.boot.stage | _ => 0) = 3 ∧
    (match exec (.bootDhcp true) (atStage 3) with | .next t => t.boot.stage | _ => 0) = 4 ∧
    (match exec (.bootTftp false) (atStage 4) with | .next t => t.boot.stage | _ => 0) = 3 ∧
    (match exec (.bootConfigure true) (atStage 6) with | .next t => (t.boot.stage, t.boot.floor) | _ => (0, 0)) = (7, 3) := by decide +kernel
/-- Whatever the keys and signatures, an image with a malformed header returns boot to stage 3. -/
theorem test_badImage : ∃ t, exec (.imageVerify { image0 with header := [] }) (atStage 5) = .next t ∧ t.boot.stage = 3 := by
  have h : (atStage 5).boot.imageErr { image0 with header := [] } ≠ 0 := by
    have f : imgBadFormat { image0 with header := [] } = true := by decide +kernel
    simp only [Boot.imageErr, f, if_true]
    omega
  refine ⟨_, rfl, ?_⟩
  rw [if_neg (by decide)]
  dsimp only
  rw [if_neg h]
theorem witness_BootStages : (atStage 5).boot.stage = 5 ∧ (atStage 6).boot.stage = 6 ∧ (atStage 6).boot.repairs = [] ∧
    imgBadFormat image0 = false ∧ (atStage 5).boot.floor.toNat ≤ (imgSvn image0).toNat ∧ imgKrsa image0 = 1 ∧ imgKslh image0 = 1 ∧
    (atStage 5).boot.revRsa.getLsbD 1 = false ∧ imgBadFormat { image0 with header := [] } = true := by decide +kernel
/-- A slice of another partition, and one of this; the ninth and the tenth hot moment of a die. -/
def halves : State := (base.setBar 0 0x30000 0xFFFFFFFF).setBar 0 0x30008 0xFFFFFFFF00000000
theorem test_otherSlice : (match exec (.sliceSpare 3 false) { halves.modCtx (fun c => { c with watch := { Watch.zero with lines := [(1, 0)] } }) with
      spareSlices := [], l2 := [] } with | .next t => t.ctx.watch.lost | _ => false) = true := by decide +kernel
theorem witness_OtherSlice : (∃ g, g < 512 ∧ halves.partOf (groupOf g) = some halves.part) ∧
    (∃ g, g < 512 ∧ halves.partOf (groupOf g) ≠ some halves.part) ∧ halves.partOf (groupOf 511) ≠ some halves.part := by
  refine ⟨⟨0, by decide, by decide +kernel⟩, ⟨511, by decide, by decide +kernel⟩, by decide +kernel⟩
theorem test_hot : (match exec (.thermalThrottle 5) { base with hot := [(5, 8)] } with | .next t => (t.hot.get 0 5, t.msi) | _ => (0, [(0, 0)])) = (9, []) := by
  decide +kernel
/-- A tensor whose region runs past 2^56, and one whose descriptor's page is behind a miss that waits. -/
theorem test_tensorPast : (match exec .tbind (mailed (pokes (tensor [] 0x50001) 0x20008 [0xFFFFFFFFFF0000, 0x10000100201]) [0x185, 0, 0, 0]) with
    | .next t => t.bar 0 | _ => 0) = 0x120105 := by decide +kernel
theorem witness_TensorWaits : (let s : State := { tensor [0x185, 0, 0, 0] 0x50001 with
      tlb := [], misses := (List.range 64).map (fun i => ⟨1, BitVec.ofNat 64 (2 ^ 40 + 65536 * i), false⟩) }
    s.mbHead = some (0, [0x185, 0, 0, 0]) ∧ (match s.descriptor 0 with | .waits _ => true | _ => false) = true) ∧
    2 ^ 56 < (0xFFFFFFFFFF0000 : Word).toNat + tensorSize ((tensorWords.set 1 0xFFFFFFFFFF0000).set 2 0x10000100201) := by decide +kernel
/-- Registers of other functions: SNPCTL, whose FIRE is the module's, TRCBASE and TRCSIZE, which TRCEN holds. -/
theorem test_otherFunctions : (match exec (.registerWrite ⟨3, 0x80020⟩ 0x80000003) base with
      | .next t => t.msi | _ => []) = [(3, 5)] ∧
    (match exec (.registerWrite ⟨3, 0x80040⟩ 0x12345) base with | .next t => (t.barAt 3 0x80040, t.barAt 0 0x80040) | _ => (1, 1)) = (0x12000, 0) ∧
    (match exec (.registerWrite ⟨3, 0x80048⟩ 9) (base.setBar 3 0x80050 2) with | .next t => t.barAt 3 0x80048 | _ => 0) =
      base.barAt 3 0x80048 ∧
    (match exec (.registerWrite ⟨3, 0x10700⟩ 0xFFFFFFFF) base with | .next t => t.barAt 3 0x10700 | _ => 0) = 0x1FFFFF ∧
    (match exec .snapshotFire ((base.setBar 0 0x80020 1).setBar 3 0x80020 3) with
      | .next t => t.msi | _ => []) = [(0, 5), (3, 5)] := by decide +kernel
/-- The reset of another function: this core's registers and jobs stay. -/
theorem test_otherFunctionReset : (match exec .functionLevelReset { (base.setBar 3 0x10178 0).setBar 0 0x10178 7 with flrFn := 3, cmpSaved := [(3, 9)] } with
    | .next t => (t.barAt 3 0x10178, t.barAt 0 0x10178, t.cmpSaved.get 0 3) | _ => (0, 0, 1)) = (0xFFFF, 7, 0) := by decide +kernel
theorem witness_FunctionReset_other : ({ base with flrFn := 3 } : State).flrFn ≠ base.part ∧
    (∀ l ∈ base.launches, l.part = (3 : BitVec 3) → l.done = false → l.job ≠ none) ∧ base.flrFn = base.part := by decide
/-- A task of another group retires while a write of the other side is unmatched. -/
def awayTwin : Launch := { launchAway with desc := some { descAway with nx := 9 }, nx := 9, away := [8] }
def twinned : State := { (launched awayTwin).setBar 0 0x30048 0x48 with cmpKeys := [⟨true, ⟨0x10400, 8, 3, 0, 0x1000, 0xFF, 5⟩⟩] }
theorem test_retirementStops : (match exec (.taskRelease (.away 0 8 0)) twinned with
    | .next t => ((t.barAt 0 0x30050).getLsbD 0, (t.barAt 0 0x30050).getLsbD 1, t.preempted) | _ => (false, false, [])) =
      (true, true, [0x10100]) := by decide +kernel
theorem witness_Comparison_retirement : twinned.launchBy 0 = some awayTwin ∧ awayTwin.desc = some { descAway with nx := 9 } ∧
    awayTwin.away.contains 8 = true ∧ twinned.groupOfTask awayTwin { descAway with nx := 9 } 8 ≠ groupOf twinned.core.toNat ∧
    twinned.twinOn = true ∧ awayTwin.part = twinned.primary ∧ (true ≠ (awayTwin.part == twinned.twinPart)) ∧
    (0x10400 : Word) = ({ descAway with nx := 9 } : LaunchDesc).ljcb ∧
    BitVec.ofNat 32 ((awayTwin.xy 8).1 + 65536 * (awayTwin.xy 8).2) = 8 ∧ (twinned.barAt 0 0x30050).getLsbD 0 = false := by decide +kernel
/-- The image of a stopped context at offset 0: handler-active, the mask and the window sizes may be written. -/
theorem test_imageWord0 : (match exec (.registerWrite ⟨0, 0x100000⟩ 0x1000100FC) halted with
    | .next t => (t.ctx.active, t.ctx.hmask, t.ctx.vcnt, t.ctx.mcnt) | _ => (false, 0, 0, 0)) = (true, 31, 1, 1) := by decide +kernel
theorem witness_Debugging_image : halted.ctx.vbase + ufield (0x1000100FC : Word) 16 10 ≤ 640 ∧
    halted.ctx.mbase + ufield (0x1000100FC : Word) 32 4 ≤ 8 := by decide
-- The digest of "abc" that the standard publishes begins cb00753f45a35e8b and ends 58baeca134c825a7.
theorem test_sha384 : (sha384 [0x61, 0x62, 0x63]).take 8 = [0xCB, 0x00, 0x75, 0x3F, 0x45, 0xA3, 0x5E, 0x8B] ∧
    (sha384 [0x61, 0x62, 0x63]).drop 40 = [0x58, 0xBA, 0xEC, 0xA1, 0x34, 0xC8, 0x25, 0xA7] := by decide +kernel

/-! ### Well-formedness: for each check, a term that it refuses -/

def ga (o : MemOrd) (sc : Scope) : GMem := ⟨⟨6, 0, 0, 0⟩, 0, false, o, sc⟩
def kept : GMem := { ga .plain .ctx with w := true }
def opt (be : Bool) (bar : BitVec 6) (sh : Bool) (csh : BitVec 2) : CopyOpt := ⟨0, be, bar, sh, csh⟩
theorem test_illFormedOperands : (Instr.bara 1 6 .core).wf = false ∧ (Instr.barw 1 6 .ctx).wf = false ∧ (Instr.grow 0).wf = false ∧
    (Instr.jtab 6 7 1 false).wf = false ∧ (Instr.mtsr 0 .deck 6).wf = false := by decide
theorem test_illFormedMemory : (Instr.lda .i64 5 (ga .plain .grp)).wf = false ∧ (Instr.lda .i64 5 (ga .release .ctx)).wf = false ∧
    (Instr.sta .b64 5 (ga .acquire .ctx)).wf = false ∧ (Instr.sta .b64 5 kept).wf = false ∧ (Instr.ldq ⟨true, 1, 0⟩ (ga .plain .ctx)).wf = false ∧
    (Instr.ldqxLocal ⟨true, 1, 0⟩ ⟨1, ⟨6, 0, 0, 0⟩⟩).wf = false ∧ (Instr.stq ⟨0, 0⟩ kept).wf = false ∧
    (Instr.atomAdd (.scalar 5) kept).wf = false ∧ (Instr.atomSwap (.vector ⟨0, 0⟩) (ga .plain .ctx)).wf = false ∧
    (Instr.atomCas (.scalar 5) { ga .plain .ctx with a := ⟨6, 0, 1, 0⟩ }).wf = false ∧
    (Instr.atomLocal .swap (.vector ⟨0, 0⟩) ⟨1, ⟨6, 0, 0, 0⟩⟩).wf = false ∧ (Instr.clrd (.reg 5) kept).wf = false ∧
    (Instr.cmstStage ⟨0, 0⟩ (ga .release .ctx)).wf = false ∧ (Instr.cmstCommit 5 .plain .grp).wf = false ∧
    (Instr.fence .plain .grp).wf = false := by decide
theorem test_illFormedCopies : (Instr.cpss 1 2 6 7 8 (opt false 1 false 0)).wf = false ∧
    (Instr.cpgs 0 1 6 7 8 (opt false 0 false 1)).wf = false ∧ (Instr.cpts 0 1 6 7 8 (opt false 0 true 0)).wf = false ∧
    (Instr.xsel 1 6 0).wf = false ∧ (Instr.xsel 1 6 5).wf = false ∧ (Instr.cgleave 1).wf = true ∧
    (Instr.cgbc 1 1 2 6 7 8 0 false 1).wf = false := by decide
theorem test_illFormedLanes : (Instr.mma .bf16 0 0 (.seg 2) 0 0 5).wf = false ∧ (Instr.mov ⟨hd, .reg 640, .reg 0⟩).wf = false ∧
    (Instr.mov ⟨hd, .reg 0, .reg 640⟩).wf = false ∧ (Instr.mov ⟨⟨0, 0, true⟩, .reg 1, .reg 0⟩).wf = false ∧
    (Instr.laneCompare .eq ⟨0, 0, true⟩ 1 (.reg 0) (.reg 0)).wf = false ∧ (Instr.cvtWiden .bf16 ⟨hd, .reg 0, .reg 0⟩ 2).wf = false ∧
    (Instr.cvtNarrow .f16 hd (.reg 0) (.reg 0) (.reg 0) 3).wf = false ∧ (Instr.qenc true ⟨hd, .reg 0, .reg 0, .reg 1⟩).wf = false ∧
    (Instr.xmv hd (.reg 0) (.reg 640) 0).wf = false := by decide
theorem test_illFormedBundles : ({ Bundle.zero with s0 := addSlot, s1 := .li 1 6 0 } : Bundle).wf = false ∧
    ({ Bundle.zero with hdr := { Header.zero with yb := true, ll := true } } : Bundle).wf = false ∧
    ({ Bundle.zero with hdr := { Header.zero with rm := 1 } } : Bundle).wf = false ∧
    ({ Bundle.zero with hdr := { Header.zero with pxe := true, rm := 6 } } : Bundle).wf = false ∧
    ({ Bundle.zero with c := .brq false 1, s0 := .popbq 0 5 } : Bundle).wf = false ∧
    ({ Bundle.zero with c := .retire, mx := .zclr 0 } : Bundle).wf = false ∧
    ({ Bundle.zero with hdr := { Header.zero with swc := true }, s0 := .mtsr 0 (.csh 0) 6 } : Bundle).wf = false ∧
    Bundle.zero.wf = true := by decide +kernel
/-- Reserved words: a code the maps leave out, a field that must be zero. -/
theorem test_reservedWords : (∃ e, decodeSlot (.c 0x4C00000000) = .error e) ∧ (∃ e, decodeSlot (.x 0x100000000001) = .error e) ∧
    (∃ e, decodeSlot (.v 0 0x1F) = .error e) ∧ (∃ e, decodeSlot (.c 0x3400000001) = .error e) := ⟨⟨_, rfl⟩, ⟨_, rfl⟩, ⟨_, rfl⟩, ⟨_, rfl⟩⟩
theorem test_rows : decodeTableWord 104 (0x011861C000 * 2 ^ 64) = some addSlot ∧ decodeTableWord 64 (0x3000000000 * 2 ^ 24) = some .retire :=
  ⟨rfl, rfl⟩

/-! ### Encodings, reset and what every step keeps -/

theorem witness_EncodeThenDecode : addSlot.wf = true ∧ encode addSlot = some (.s 0 0x011861C000) ∧
    decodeSlot (.s 0 0x011861C000) = .ok addSlot := ⟨rfl, rfl, rfl⟩
theorem witness_DecodeThenEncode : decodeSlot (.v 7 0) = .ok .nop ∧ decodeSlot (.c 0x3000000000) = .ok .retire := ⟨rfl, rfl⟩
theorem witness_StepKeepsMemoryForm : base.MemoryOk ∧ ∃ t, step (placed addBundle) = .next t := ⟨by unfold State.MemoryOk; decide, _, rfl⟩
theorem witness_StepKeepsDeckle : base.DeckleOk ∧ State.reset.DeckleOk := by unfold State.DeckleOk; decide
theorem witness_StepRunsTheAgenda : ({ base with agenda := [addSlot] } : State).agenda = addSlot :: [] ∧
    ({ base with inReset := true } : State).inReset = true ∧ base.agenda = [] ∧ State.reset.choose.isNone = true := by decide +kernel

end Sys2Proof.Tests
end

section
/-! SUPPORT. The registers of BAR0: a register read after another was written, masks, and the partition of this core. -/

namespace Sys2Proof.Machine

/-! ### Registers by function and offset (R384) -/

theorem barKey_inj {fn off fn' off' : Nat} (h : off < 2097152) (h' : off' < 2097152) :
    barKey fn off = barKey fn' off' ↔ fn = fn' ∧ off = off' := by
  unfold barKey
  omega

@[simp] theorem State.barAt_setBar_same (s : State) (fn off : Nat) (v : Word) : (s.setBar fn off v).barAt fn off = v :=
  Store.get_set_same _ _ _ _

theorem State.barAt_setBar_other (s : State) {fn off fn' off' : Nat} (v : Word) (h : off < 2097152) (h' : off' < 2097152)
    (ne : fn' ≠ fn ∨ off' ≠ off) : (s.setBar fn off v).barAt fn' off' = s.barAt fn' off' := by
  refine Store.get_set_other _ _ _ _ _ fun e => ?_
  obtain ⟨rfl, rfl⟩ := (barKey_inj h' h).1 e
  simp at ne

/-- The partition of a core follows from the partition masks alone (R393). -/
theorem State.part_congr {s t : State} (hc : t.core = s.core)
    (h : ∀ i, i < 8 → t.barAt 0 (0x30000 + 8 * i) = s.barAt 0 (0x30000 + 8 * i)) : t.part = s.part := by
  have find : ∀ (l : List Nat) (g : Nat), (∀ i ∈ l, i < 8) →
      l.find? (fun i => (t.barAt 0 (0x30000 + 8 * i)).getLsbD g) = l.find? (fun i => (s.barAt 0 (0x30000 + 8 * i)).getLsbD g) := by
    intro l g
    induction l with
    | nil => intro _; rfl
    | cons a r ih =>
      intro hl
      rw [List.find?_cons, List.find?_cons, h a (hl a (by simp)), ih fun i hi => hl i (by simp [hi])]
  unfold State.part State.partOf
  rw [hc, find _ _ fun i => List.mem_range.1]

theorem State.part_setBar (s : State) {fn off : Nat} (v : Word) (ho : off < 2097152) (h : off < 0x30000 ∨ 0x30040 ≤ off) :
    (s.setBar fn off v).part = s.part :=
  State.part_congr rfl fun i hi => s.barAt_setBar_other v ho (by omega) (by omega)

/-! ### Fields and masks (R7) -/

theorem ufield_eq_extract (w : Word) (lo n : Nat) : ufield w lo n = (w.extractLsb' lo n).toNat := by
  rw [BitVec.extractLsb'_toNat]
  rfl

theorem ufield_lt (w : Word) (lo n : Nat) : ufield w lo n < 2 ^ n := Nat.mod_lt _ (Nat.two_pow_pos n)

/-- A field all of whose bits a mask keeps. -/
theorem ufield_and_of_ones (v m : Word) (lo n : Nat) (h : m.extractLsb' lo n = BitVec.allOnes n) :
    ufield (v &&& m) lo n = ufield v lo n := by
  rw [ufield_eq_extract, ufield_eq_extract, BitVec.extractLsb'_and, h, BitVec.and_allOnes]

/-- A field none of whose bits a mask keeps. -/
theorem ufield_and_of_zeros (v m : Word) (lo n : Nat) (h : m.extractLsb' lo n = 0#n) : ufield (v &&& m) lo n = 0 := by
  rw [ufield_eq_extract, BitVec.extractLsb'_and, h, BitVec.and_zero, BitVec.toNat_zero]

/-- Masked to its lowest bits, a word has their value. -/
theorem toNat_and_low (v : Word) (n : Nat) (h : n ≤ 64) : (v &&& BitVec.ofNat 64 (2 ^ n - 1)).toNat = ufield v 0 n := by
  have le : 2 ^ n ≤ 2 ^ 64 := Nat.pow_le_pow_right (by decide) h
  have pos := Nat.two_pow_pos n
  rw [BitVec.toNat_and, BitVec.toNat_ofNat, Nat.mod_eq_of_lt (by omega), Nat.and_two_pow_sub_one_eq_mod]
  rfl

end Sys2Proof.Machine
end

section
/-! SUPPORT. What a host write of a BAR0 register does (R7, R84, R103, R114, R334, R384, R392, R401, R402). -/

namespace Sys2Proof.Machine

/-! ### Where a write goes -/

/-- A write that puts one value into one register of the function. -/
theorem registerWrite_takes {s : State} {fn : BitVec 3} {off : Nat} {v w : Word}
    (h : s.writeReg fn off v = s.setBar fn.toNat off w) :
    ∃ t, exec (.registerWrite ⟨fn, off⟩ v) s = .next t ∧ t = { s with bar0 := t.bar0 } ∧ t.barAt fn.toNat off = w :=
  ⟨_, congrArg Host.Outcome.next h, rfl, State.barAt_setBar_same _ _ _ _⟩

theorem registerWrite_dropped {s : State} {fn : BitVec 3} {off : Nat} {v : Word} (h : s.writeReg fn off v = s) :
    exec (.registerWrite ⟨fn, off⟩ v) s = .next s := congrArg Host.Outcome.next h

theorem State.writeReg_unaligned (s : State) (fn : BitVec 3) {off : Nat} (v : Word) (h : off % 8 ≠ 0) :
    s.writeReg fn off v = s := if_pos h

theorem isModule_iff (off : Nat) : isModule off = true ↔ 0x20000 ≤ off ∧ off < 0x80000 := decide_eq_true_iff

theorem State.writeReg_module (s : State) {off : Nat} (v : Word) (a : off % 8 = 0) (h : 0x20000 ≤ off ∧ off < 0x80000) :
    s.writeReg 0 off v = s.writeModule off v := by
  unfold State.writeReg
  rw [if_neg (by omega), if_pos ((isModule_iff off).2 h), if_pos rfl]

theorem State.writeReg_module_other (s : State) {fn : BitVec 3} {off : Nat} (v : Word)
    (h : 0x20000 ≤ off ∧ off < 0x80000) (hf : fn ≠ 0) : s.writeReg fn off v = s := by
  unfold State.writeReg
  rw [if_pos ((isModule_iff off).2 h), if_neg hf, ite_self]

/-- The offsets of commands: what they do depends on whether the function is that of this core's partition. -/
def isCommand (off : Nat) : Prop :=
  off = regXIVC ∨ off = regL2CMD ∨ off = 0x10508 ∨ off = 0x80010 ∨ (0x100000 ≤ off ∧ off < 0x200000)

theorem State.writeOwn_of_not_command (s : State) {off : Nat} (v : Word) (h : ¬ isCommand off) :
    s.writeOwn off v = s.writeEach s.part off v := by
  simp only [isCommand, not_or] at h
  obtain ⟨h1, h2, h3, h4, h5⟩ := h
  unfold State.writeOwn
  rw [if_neg h1, if_neg h2, if_neg h3, if_neg h4, if_neg h5]

theorem State.writeOther_of_not_command (s : State) (fn : BitVec 3) {off : Nat} (v : Word) (h : ¬ isCommand off) :
    s.writeOther fn off v = s.writeEach fn off v := by
  simp only [isCommand, not_or] at h
  obtain ⟨h1, h2, -⟩ := h
  unfold State.writeOther
  rw [if_neg h1, if_neg h2]

/-- A register that is neither module-wide nor a command is written in the same way in every function. -/
theorem State.writeReg_each (s : State) (fn : BitVec 3) {off : Nat} (v : Word) (a : off % 8 = 0)
    (hm : ¬ (0x20000 ≤ off ∧ off < 0x80000)) (hc : ¬ isCommand off) : s.writeReg fn off v = s.writeEach fn off v := by
  unfold State.writeReg
  rw [if_neg (by omega), if_neg (by rwa [isModule_iff])]
  by_cases e : fn = s.part
  · rw [if_pos e, s.writeOwn_of_not_command v hc, e]
  · rw [if_neg e, s.writeOther_of_not_command fn v hc]

/-! ### Registers that only hold a value -/

theorem plainMask_none {off : Nat} (h1 : ¬ (0x10100 ≤ off ∧ off < 0x10180))
    (h2 : off ∉ [regXIVA, regXIVN, 0x10200, regCMPCTL, 0x10500, 0x10600, 0x80000, 0x80008, 0x80050]) : plainMask off = none := by
  unfold plainMask
  rw [if_neg h1, Option.map_eq_none_iff, List.find?_eq_none]
  intro x hx e
  refine h2 ?_
  rw [← beq_iff_eq.1 e]
  exact List.mem_map_of_mem (f := Prod.fst) hx

theorem State.writeEach_plain (s : State) (fn : BitVec 3) {off : Nat} {m : Word} (v : Word) (h : plainMask off = some m) :
    s.writeEach fn off v = s.setBar fn.toNat off (v &&& m) := by
  unfold State.writeEach
  rw [h]
  rfl

/-- The registers that keep the defined bits of what is written, with the masks of those bits. -/
def plainRegisters : List (Nat × Word) :=
  [(0x10000, 0x00FFFFFFFFFF0000), (0x10008, 0xFFFFFFFF), (0x10100, 0xFFFF), (0x10178, 0xFFFF), (0x10200, 0xF01FF), (0x10300, 1),
   (0x10500, 0x00FFFFFFFFFF0000), (0x10600, 0x000FFFF000000000), (0x80000, 1), (0x80008, 0x7FF), (0x80050, 0xFFE)]

theorem plainRegisters_spec : ∀ om ∈ plainRegisters, om.1 % 8 = 0 ∧ ¬ (0x20000 ≤ om.1 ∧ om.1 < 0x80000) ∧ ¬ isCommand om.1 ∧
    plainMask om.1 = some om.2 := by
  unfold isCommand
  decide

theorem State.writeReg_plain (s : State) (fn : BitVec 3) (v : Word) {om : Nat × Word} (h : om ∈ plainRegisters) :
    s.writeReg fn om.1 v = s.setBar fn.toNat om.1 (v &&& om.2) := by
  obtain ⟨a, hm, hc, hp⟩ := plainRegisters_spec om h
  rw [s.writeReg_each fn v a hm hc, s.writeEach_plain fn v hp]

/-! ### Offsets that are read-only or reserved -/

theorem State.writeReg_readOnly (s : State) (fn : BitVec 3) (v : Word) {off : Nat}
    (h : off ∈ [0x2000, 0x10018, 0x10180, 0x10208, 0x10308, 0x10410, 0x40000, 0x40008, 0x80018, 0x80028, 0x80058]) :
    s.writeReg fn off v = s := by
  have hw : off % 8 = 0 ∧ ¬ isCommand off := by
    revert h off
    unfold isCommand
    decide
  by_cases hm : 0x20000 ≤ off ∧ off < 0x80000
  · by_cases hf : fn = 0
    · rw [hf, s.writeReg_module v hw.1 hm]
      have : off = 0x40000 ∨ off = 0x40008 := by
        simp only [List.mem_cons, List.not_mem_nil, or_false] at h
        omega
      rcases this with rfl | rfl <;> rfl
    · exact s.writeReg_module_other v hm hf
  · rw [s.writeReg_each fn v hw.1 hm hw.2]
    simp only [List.mem_cons, List.not_mem_nil, or_false] at h
    rcases h with rfl | rfl | rfl | rfl | rfl | rfl | rfl | rfl | rfl | rfl | rfl <;> rfl

/-- The gaps of the map of R384 between and behind the blocks of registers. -/
def isGap (off : Nat) : Prop :=
  (0x2008 ≤ off ∧ off < 0x10000) ∨ (0x10F00 ≤ off ∧ off < 0x20000) ∨ (0x24000 ≤ off ∧ off < 0x30000) ∨
  (0x31000 ≤ off ∧ off < 0x40000) ∨ (0x40018 ≤ off ∧ off < 0x80000) ∨ (0x800A0 ≤ off ∧ off < 0x100000) ∨ 0x200000 ≤ off

theorem State.writeModule_gap (s : State) {off : Nat} (v : Word) (h : isGap off) (hm : 0x20000 ≤ off ∧ off < 0x80000) :
    s.writeModule off v = s := by
  unfold isGap at h
  unfold State.writeModule regTWIN regCMPST regPWRCAP
  rw [if_neg (by omega), if_neg (by omega), if_neg (by omega), if_neg (by omega), if_neg (by omega), if_neg (by omega),
    if_neg (by omega)]

theorem State.writeEach_gap (s : State) (fn : BitVec 3) {off : Nat} (v : Word) (h : isGap off)
    (hm : ¬ (0x20000 ≤ off ∧ off < 0x80000)) : s.writeEach fn off v = s := by
  unfold isGap at h
  have hp : plainMask off = none := plainMask_none (by omega) (by
    simp only [regXIVA, regXIVN, regCMPCTL, List.mem_cons, List.not_mem_nil, or_false]
    omega)
  unfold State.writeEach
  rw [hp]
  dsimp only
  rw [if_neg (by omega), if_neg (by omega), if_neg (by omega), if_neg (by omega), if_neg (by omega), if_neg (by omega),
    if_neg (by omega), if_neg (by omega), if_neg (by omega)]

theorem State.writeReg_gap (s : State) (fn : BitVec 3) {off : Nat} (v : Word) (h : isGap off) : s.writeReg fn off v = s := by
  by_cases a : off % 8 = 0
  · by_cases hm : 0x20000 ≤ off ∧ off < 0x80000
    · by_cases hf : fn = 0
      · rw [hf, s.writeReg_module v a hm, s.writeModule_gap v h hm]
      · exact s.writeReg_module_other v hm hf
    · have hc : ¬ isCommand off := by
        unfold isGap at h
        unfold isCommand regXIVC regL2CMD
        omega
      rw [s.writeReg_each fn v a hm hc, s.writeEach_gap fn v h hm]
  · exact s.writeReg_unaligned fn v a

/-! ### Registers with a range, or that other state holds -/

theorem State.putRange_in (s : State) (fn off : Nat) {mask v : Word} {lo hi : Nat}
    (h : lo ≤ (v &&& mask).toNat ∧ (v &&& mask).toNat ≤ hi) : s.putRange fn off mask v lo hi = s.setBar fn off (v &&& mask) :=
  if_pos h

theorem State.putRange_out (s : State) (fn off : Nat) {mask v : Word} {lo hi : Nat}
    (h : ¬ (lo ≤ (v &&& mask).toNat ∧ (v &&& mask).toNat ≤ hi)) : s.putRange fn off mask v lo hi = s := if_neg h

theorem State.writeReg_dswin (s : State) (fn : BitVec 3) (v : Word) :
    s.writeReg fn 0x10400 v = s.putRange fn.toNat 0x10400 7 v 1 4 :=
  s.writeReg_each fn v (by decide) (by decide) (by unfold isCommand; decide)

theorem State.writeReg_dsage (s : State) (fn : BitVec 3) (v : Word) :
    s.writeReg fn 0x10408 v = s.putRange fn.toNat 0x10408 0xFFFF v 1 65535 :=
  s.writeReg_each fn v (by decide) (by decide) (by unfold isCommand; decide)

theorem State.writeReg_trcsize (s : State) (fn : BitVec 3) (v : Word) : s.writeReg fn 0x80048 v =
    if s.barAt fn.toNat 0x80050 = 0 then s.putRange fn.toNat 0x80048 0xFFFFF v 1 1048575 else s :=
  s.writeReg_each fn v (by decide) (by decide) (by unfold isCommand; decide)

theorem State.writeReg_trcbase (s : State) (fn : BitVec 3) (v : Word) : s.writeReg fn 0x80040 v = s.writeTrcbase fn.toNat v :=
  s.writeReg_each fn v (by decide) (by decide) (by unfold isCommand; decide)

theorem State.writeReg_snpctl (s : State) (fn : BitVec 3) (v : Word) : s.writeReg fn 0x80020 v = s.writeSnpctl fn.toNat v :=
  s.writeReg_each fn v (by decide) (by decide) (by unfold isCommand; decide)

theorem State.writeReg_span (s : State) (fn : BitVec 3) (g : BitVec 8) (v : Word) :
    s.writeReg fn (0x10700 + 8 * g.toNat) v = s.writeSpan fn g v := by
  have hg := g.isLt
  rw [s.writeReg_each fn v (by omega) (by omega) (by unfold isCommand regXIVC regL2CMD; omega)]
  have hp : plainMask (0x10700 + 8 * g.toNat) = none := plainMask_none (by omega) (by
    simp only [regXIVA, regXIVN, regCMPCTL, List.mem_cons, List.not_mem_nil, or_false]
    omega)
  unfold State.writeEach
  rw [hp]
  dsimp only
  rw [if_neg (by omega), if_neg (by omega), if_neg (by omega), if_pos (by omega)]
  congr 1
  refine BitVec.eq_of_toNat_eq ?_
  rw [BitVec.toNat_ofNat]
  omega

theorem State.writeReg_nsep (s : State) {die : Nat} (h : die < 4) (v : Word) : s.writeReg 0 (0x20008 + 0x1000 * die) v =
    if 10 ≤ ufield v 0 5 ∧ ufield v 0 5 ≤ 30 then s.setBar 0 (0x20008 + 0x1000 * die) (v &&& 0x1F) else s := by
  rw [s.writeReg_module v (by omega) (by omega)]
  unfold State.writeModule
  rw [if_pos (by omega), if_neg (by omega), if_pos (by omega)]

theorem State.writeSpan_held (s : State) {fn : BitVec 3} {g : BitVec 8} (v : Word)
    (h : ∃ x ∈ s.groups, x.part = fn ∧ x.gid = g) : s.writeSpan fn g v = s :=
  if_pos (by simpa using h)

theorem State.writeSpan_free (s : State) {fn : BitVec 3} {g : BitVec 8} (v : Word)
    (h : ∀ x ∈ s.groups, ¬ (x.part = fn ∧ x.gid = g)) :
    s.writeSpan fn g v = s.setBar fn.toNat (0x10700 + 8 * g.toNat) (v &&& 0xFFFFFFFF001FFFFF) :=
  if_neg (by simpa using h)

theorem State.writeTrcbase_enabled (s : State) {fn : Nat} (v : Word) (h : s.barAt fn 0x80050 ≠ 0) : s.writeTrcbase fn v = s :=
  if_pos h

/-- TRCBASE while no record is enabled: the ring begins anew. -/
theorem trcbase_taken {s : State} {fn : BitVec 3} (v : Word) (h : s.barAt fn.toNat 0x80050 = 0) :
    ∃ t, exec (.registerWrite ⟨fn, 0x80040⟩ v) s = .next t ∧ t = { s with bar0 := t.bar0, trace := t.trace } ∧
      t.barAt fn.toNat 0x80040 = v &&& 0x000FFFFFFFFFF000 ∧ t.barAt fn.toNat 0x80058 = 0 := by
  refine ⟨_, congrArg Host.Outcome.next ((s.writeReg_trcbase fn v).trans (if_neg fun enabled => enabled h)), rfl, ?_,
    State.barAt_setBar_same _ _ _ _⟩
  rw [State.barAt_setBar_other _ _ (by decide) (by decide) (.inr (by decide)), State.barAt_setBar_same]

end Sys2Proof.Machine
end

section
/-! SUPPORT. The snapshot trigger (R401), and the registers of partitions, twins and groups (R7, R15, R385, R392, R393, R404). -/

namespace Sys2Proof.Machine

/-! ### The snapshot trigger -/

/-- What the trigger, fired in state s, does at one function. -/
def State.latchOne (s t : State) (fn : Nat) : State :=
  if s.armed fn 0 then ((t.setBar fn 0x80028 s.freeWord).setBar fn 0x80020 (s.barAt fn 0x80020 &&& ~~~(1#64))).signal fn 5
  else t.setBar fn 0x80028 s.freeWord

/-- The copies that the trigger latches: valid lines by partition and class. -/
def State.snapCopies (s : State) : Store Word :=
  (List.range 128).foldl (fun m k =>
    m.set 0 k (BitVec.ofNat 64 (s.l2.countP (fun l => l.cls.toNat = k % 16 ∧
      (s.partOf (groupOf l.slice)) = some (BitVec.ofNat 3 (k / 16)))))) s.snap

theorem State.latchSnapshot_eq (s : State) : s.latchSnapshot =
    (List.range 8).foldl s.latchOne { s with snap := s.snapCopies, fresh := s.fresh + 1 } := rfl

theorem State.latchOne_frame (s t : State) (fn : Nat) :
    s.latchOne t fn = { t with bar0 := (s.latchOne t fn).bar0, msi := (s.latchOne t fn).msi } := by
  have two : ∃ m q, s.latchOne t fn = { t with bar0 := m, msi := q } := by
    unfold State.latchOne
    dsimp only [State.setBar, State.signal]
    split <;> exact ⟨_, _, rfl⟩
  obtain ⟨m, q, h⟩ := two
  rw [h]

theorem State.latchOne_time (s t : State) (fn : Nat) : (s.latchOne t fn).barAt fn 0x80028 = s.freeWord := by
  unfold State.latchOne
  split
  · exact ((t.setBar fn 0x80028 s.freeWord).barAt_setBar_other _ (by decide) (by decide) (.inr (by decide))).trans
      (State.barAt_setBar_same _ _ _ _)
  · exact State.barAt_setBar_same _ _ _ _

theorem State.latchOne_armed (s t : State) {fn : Nat} (h : s.armed fn 0 = true) :
    (s.latchOne t fn).barAt fn 0x80020 = s.barAt fn 0x80020 &&& ~~~(1#64) ∧ (fn, 5) ∈ (s.latchOne t fn).msi := by
  unfold State.latchOne
  rw [if_pos h]
  exact ⟨State.barAt_setBar_same _ _ _ _, by simp⟩

theorem State.latchOne_other (s t : State) {fn fn' off : Nat} (h : off < 2097152) (ne : fn' ≠ fn) :
    (s.latchOne t fn).barAt fn' off = t.barAt fn' off := by
  unfold State.latchOne
  split
  · exact (State.barAt_setBar_other _ _ (by decide) h (.inl ne)).trans (State.barAt_setBar_other _ _ (by decide) h (.inl ne))
  · exact State.barAt_setBar_other _ _ (by decide) h (.inl ne)

theorem State.latchOne_msi (s t : State) (fn : Nat) {x : Nat × Nat} (h : x ∈ t.msi) : x ∈ (s.latchOne t fn).msi := by
  unfold State.latchOne
  split
  · simp [h]
  · exact h

theorem State.latchAll_frame (s t : State) (l : List Nat) : l.foldl s.latchOne t =
    { t with bar0 := (l.foldl s.latchOne t).bar0, msi := (l.foldl s.latchOne t).msi } := by
  induction l generalizing t with
  | nil => rfl
  | cons a r ih =>
    have step := s.latchOne_frame t a
    have rest := ih (s.latchOne t a)
    rw [List.foldl_cons]
    exact rest.trans (congrArg (fun u : State => { u with
      bar0 := (r.foldl s.latchOne (s.latchOne t a)).bar0, msi := (r.foldl s.latchOne (s.latchOne t a)).msi }) step)

theorem State.latchAll_other (s t : State) {l : List Nat} {fn off : Nat} (h : off < 2097152) (ne : fn ∉ l) :
    (l.foldl s.latchOne t).barAt fn off = t.barAt fn off := by
  induction l generalizing t with
  | nil => rfl
  | cons a r ih =>
    rw [List.mem_cons, not_or] at ne
    exact (ih (s.latchOne t a) ne.2).trans (s.latchOne_other t h ne.1)

theorem State.latchAll_msi (s t : State) (l : List Nat) {x : Nat × Nat} (h : x ∈ t.msi) : x ∈ (l.foldl s.latchOne t).msi := by
  induction l generalizing t with
  | nil => exact h
  | cons a r ih => exact ih (s.latchOne t a) (s.latchOne_msi t a h)

/-- Every function's SNPTIME takes the cycle, and one that had armed the trigger loses ARM and is signalled. -/
theorem State.latchAll_mem (s t : State) {l : List Nat} (nd : l.Nodup) {fn : Nat} (h : fn ∈ l) :
    (l.foldl s.latchOne t).barAt fn 0x80028 = s.freeWord ∧
    (s.armed fn 0 = true → (l.foldl s.latchOne t).barAt fn 0x80020 = s.barAt fn 0x80020 &&& ~~~(1#64) ∧
      (fn, 5) ∈ (l.foldl s.latchOne t).msi) := by
  induction l generalizing t with
  | nil => simp at h
  | cons a r ih =>
    rw [List.nodup_cons] at nd
    obtain ⟨na, nd⟩ := nd
    by_cases e : fn = a
    · subst e
      refine ⟨(s.latchAll_other _ (by decide) na).trans (s.latchOne_time t fn), fun ha => ?_⟩
      obtain ⟨hb, hm⟩ := s.latchOne_armed t ha
      exact ⟨(s.latchAll_other _ (by decide) na).trans hb, s.latchAll_msi _ r hm⟩
    · exact ih (s.latchOne t a) nd ((List.mem_cons.1 h).resolve_left e)

theorem State.latchSnapshot_frame (s : State) : s.latchSnapshot =
    { s with bar0 := s.latchSnapshot.bar0, snap := s.latchSnapshot.snap, fresh := s.fresh + 1, msi := s.latchSnapshot.msi } := by
  have h := s.latchAll_frame { s with snap := s.snapCopies, fresh := s.fresh + 1 } (List.range 8)
  rw [← State.latchSnapshot_eq] at h
  have hs : s.latchSnapshot.snap = s.snapCopies := congrArg State.snap h
  rw [hs]
  exact h

theorem State.latchSnapshot_barAt (s : State) {fn : Nat} (h : fn < 8) : s.latchSnapshot.barAt fn 0x80028 = s.freeWord ∧
    (s.armed fn 0 = true → s.latchSnapshot.barAt fn 0x80020 = s.barAt fn 0x80020 &&& ~~~(1#64) ∧
      (fn, 5) ∈ s.latchSnapshot.msi) :=
  s.latchAll_mem _ List.nodup_range (List.mem_range.2 h)

theorem State.armed_setBar_snpctl (s : State) (fn : Nat) (v : Word) :
    (s.setBar fn 0x80020 (v &&& 0xF)).armed fn 0 = v.getLsbD 0 := by
  unfold State.armed
  rw [State.barAt_setBar_same, Bool.and_self, BitVec.getLsbD_and]
  exact Bool.and_true _

/-- SNPCTL without FIRE, or without ARM: the value is taken and nothing fires. -/
theorem State.writeSnpctl_quiet (s : State) (fn : Nat) {v : Word} (h : v.getLsbD 31 = false ∨ v.getLsbD 0 = false) :
    s.writeSnpctl fn v = s.setBar fn 0x80020 (v &&& 0xF) := by
  unfold State.writeSnpctl State.fireFor
  dsimp only
  rw [s.armed_setBar_snpctl fn v]
  rcases h with h | h <;> rw [h]
  · rfl
  · exact ite_self _

/-- FIRE with ARM: the trigger fires. -/
theorem State.writeSnpctl_fires (s : State) (fn : Nat) {v : Word} (h31 : v.getLsbD 31 = true) (h0 : v.getLsbD 0 = true) :
    s.writeSnpctl fn v = (s.setBar fn 0x80020 (v &&& 0xF)).latchSnapshot := by
  unfold State.writeSnpctl State.fireFor
  dsimp only
  rw [s.armed_setBar_snpctl fn v, if_pos h31, if_pos h0]

theorem snpctl_fired {s : State} (fn : BitVec 3) {v : Word} (h31 : v.getLsbD 31 = true) (h0 : v.getLsbD 0 = true) :
    ∃ t, exec (.registerWrite ⟨fn, 0x80020⟩ v) s = .next t ∧
      t = { s with bar0 := t.bar0, snap := t.snap, fresh := s.fresh + 1, msi := t.msi } ∧ (fn.toNat, 5) ∈ t.msi ∧
      t.barAt fn.toNat 0x80020 = v &&& 0xE ∧ ∀ x : Nat, x < 8 → t.barAt x 0x80028 = Config.freeWord s.fresh := by
  refine ⟨_, congrArg Host.Outcome.next ((s.writeReg_snpctl fn v).trans (s.writeSnpctl_fires fn.toNat h31 h0)),
    State.latchSnapshot_frame _, ?_⟩
  obtain ⟨hb, hm⟩ := ((s.setBar fn.toNat 0x80020 (v &&& 0xF)).latchSnapshot_barAt fn.isLt).2
    ((s.armed_setBar_snpctl fn.toNat v).trans h0)
  refine ⟨hm, ?_, fun x hx => (State.latchSnapshot_barAt _ hx).1⟩
  rw [hb, State.barAt_setBar_same, BitVec.and_assoc]
  rfl

/-! ### Partitions (R7, R15, R385, R392, R404) -/

theorem State.jobsOf_eq_nil (s : State) (p : BitVec 3) :
    s.jobsOf p = [] ↔ ∀ l ∈ s.launches, l.part = p → l.done = true := by
  simp [State.jobsOf]

/-- A mask of partition i may be taken (log entry 42). -/
def State.PcfgFree (s : State) (i : BitVec 3) (v : Word) : Prop :=
  (s.barAt 0 (0x30000 + 8 * i.toNat) = v ∨ ∀ l ∈ s.launches, l.part = i → l.done = true) ∧
  ∀ j : BitVec 3, j ≠ i → s.barAt 0 (0x30000 + 8 * j.toNat) &&& v = 0 ∧
    (s.barAt 0 (0x30000 + 8 * j.toNat) &&& (s.barAt 0 (0x30000 + 8 * i.toNat) ^^^ v) = 0 ∨
      ∀ l ∈ s.launches, l.part = j → l.done = true)

theorem forall_lt_eight {p : Nat → Prop} : (∀ n, n < 8 → p n) ↔ ∀ j : BitVec 3, p j.toNat :=
  ⟨fun h j => h _ j.isLt, fun h n hn => by simpa [Nat.mod_eq_of_lt hn] using h (BitVec.ofNat 3 n)⟩

/-- What the model checks at partition j before partition i takes a mask. -/
def State.pcfgAllows (s : State) (i : BitVec 3) (v : Word) (j : Nat) : Bool :=
  if j = i.toNat then s.barAt 0 (0x30000 + 8 * i.toNat) ^^^ v == 0 || (s.jobsOf (BitVec.ofNat 3 j)).isEmpty
  else s.barAt 0 (0x30000 + 8 * j) &&& v == 0 &&
    (s.barAt 0 (0x30000 + 8 * j) &&& (s.barAt 0 (0x30000 + 8 * i.toNat) ^^^ v) == 0 || (s.jobsOf (BitVec.ofNat 3 j)).isEmpty)

theorem State.writePcfg_allows (s : State) (i : BitVec 3) (v : Word) : s.writePcfg i v =
    if (List.range 8).all (s.pcfgAllows i v) then (s.setBar 0 (0x30000 + 8 * i.toNat) v).setBar 0 0x30040 0
    else s.setBar 0 0x30040 1 := rfl

theorem State.pcfgAllows_self (s : State) (i : BitVec 3) (v : Word) : s.pcfgAllows i v i.toNat = true ↔
    s.barAt 0 (0x30000 + 8 * i.toNat) = v ∨ ∀ l ∈ s.launches, l.part = i → l.done = true := by
  unfold State.pcfgAllows
  rw [if_pos rfl, BitVec.ofNat_toNat, BitVec.setWidth_eq]
  simp [State.jobsOf_eq_nil, BitVec.xor_eq_zero_iff]

theorem State.pcfgAllows_other (s : State) {i j : BitVec 3} (v : Word) (h : j ≠ i) : s.pcfgAllows i v j.toNat = true ↔
    s.barAt 0 (0x30000 + 8 * j.toNat) &&& v = 0 ∧
      (s.barAt 0 (0x30000 + 8 * j.toNat) &&& (s.barAt 0 (0x30000 + 8 * i.toNat) ^^^ v) = 0 ∨
        ∀ l ∈ s.launches, l.part = j → l.done = true) := by
  unfold State.pcfgAllows
  rw [if_neg (toNat_ne h), BitVec.ofNat_toNat, BitVec.setWidth_eq]
  simp [State.jobsOf_eq_nil]

theorem State.pcfgAllows_all (s : State) (i : BitVec 3) (v : Word) :
    (List.range 8).all (s.pcfgAllows i v) = true ↔ s.PcfgFree i v := by
  simp only [List.all_eq_true, List.mem_range]
  rw [forall_lt_eight]
  constructor
  · exact fun h => ⟨(s.pcfgAllows_self i v).1 (h i), fun j hj => (s.pcfgAllows_other v hj).1 (h j)⟩
  · intro ⟨self, other⟩ j
    by_cases e : j = i
    · rw [e]
      exact (s.pcfgAllows_self i v).2 self
    · exact (s.pcfgAllows_other v e).2 (other j e)

theorem State.pcfg_setBar_status (s : State) (v : Word) (j : BitVec 3) :
    (s.setBar 0 0x30040 v).barAt 0 (0x30000 + 8 * j.toNat) = s.barAt 0 (0x30000 + 8 * j.toNat) := by
  have hj := j.isLt
  exact s.barAt_setBar_other v (by decide) (by omega) (.inr (by omega))

/-- A mask that may be taken is taken, and PCFGS is clear. -/
theorem pcfg_taken {s : State} {i : BitVec 3} {v : Word} (h : s.PcfgFree i v) :
    ∃ t, exec (.pcfgWrite i v) s = .next t ∧ t = { s with bar0 := t.bar0 } ∧
      t.barAt 0 (0x30000 + 8 * i.toNat) = v ∧ t.barAt 0 0x30040 = 0 ∧
      ∀ j : BitVec 3, j ≠ i → t.barAt 0 (0x30000 + 8 * j.toNat) = s.barAt 0 (0x30000 + 8 * j.toNat) := by
  refine ⟨_, congrArg Host.Outcome.next ((s.writePcfg_allows i v).trans (if_pos ((s.pcfgAllows_all i v).2 h))), rfl, ?_,
    State.barAt_setBar_same _ _ _ _, fun j hj => ?_⟩
  · rw [State.pcfg_setBar_status, State.barAt_setBar_same]
  · have hi := i.isLt
    have hj' := j.isLt
    have ne : j.toNat ≠ i.toNat := toNat_ne hj
    rw [State.pcfg_setBar_status, State.barAt_setBar_other _ _ (by omega) (by omega) (.inr (by omega))]

/-- One that may not is refused: PCFGS is set and every mask stays. -/
theorem pcfg_refused {s : State} {i : BitVec 3} {v : Word} (h : ¬ s.PcfgFree i v) :
    ∃ t, exec (.pcfgWrite i v) s = .next t ∧ t = { s with bar0 := t.bar0 } ∧ t.barAt 0 0x30040 = 1 ∧
      ∀ j : BitVec 3, t.barAt 0 (0x30000 + 8 * j.toNat) = s.barAt 0 (0x30000 + 8 * j.toNat) := by
  exact ⟨_, congrArg Host.Outcome.next ((s.writePcfg_allows i v).trans (if_neg (mt (s.pcfgAllows_all i v).1 h))), rfl,
    State.barAt_setBar_same _ _ _ _,
    fun j => s.pcfg_setBar_status 1 j⟩

/-- TWIN's fields of partitions, as the masked word that is written holds them. -/
theorem twin_fields (v : Word) : ufield (v &&& 0x7F) 0 3 = ufield v 0 3 ∧ ufield (v &&& 0x7F) 3 3 = ufield v 3 3 ∧
    (v &&& 0x7F).getLsbD 6 = v.getLsbD 6 := by
  refine ⟨ufield_and_of_ones _ _ _ _ (by decide), ufield_and_of_ones _ _ _ _ (by decide), ?_⟩
  rw [BitVec.getLsbD_and]
  exact Bool.and_true _

/-- The partitions that a write of TWIN names: those it pairs, and those paired until now. -/
def State.twinNamed (s : State) (v : Word) : List Nat :=
  [ufield v 0 3, ufield v 3 3] ++
    (if s.twinOn then [ufield (s.barAt 0 regTWIN) 0 3, ufield (s.barAt 0 regTWIN) 3 3] else [])

theorem State.writeTwin_eq (s : State) (v : Word) : s.writeTwin v =
    if (s.twinNamed v).any (fun j => !(s.jobsOf (BitVec.ofNat 3 j)).isEmpty) ||
        (v.getLsbD 6 && s.groupCount (ufield v 0 3) != s.groupCount (ufield v 3 3)) then s
    else ({ s with cmpKeys := [] }).setBar 0 regTWIN (v &&& 0x7F) := by
  obtain ⟨h0, h3, h6⟩ := twin_fields v
  unfold State.writeTwin State.twinNamed
  dsimp only
  simp only [h0, h3, h6]
  rfl

theorem twin_held {s : State} {v : Word}
    (h : ∃ l ∈ s.launches, l.done = false ∧ (l.part.toNat = ufield v 0 3 ∨ l.part.toNat = ufield v 3 3)) :
    exec (.twinWrite v) s = .next s := by
  obtain ⟨l, hl, hd, hp⟩ := h
  have busy : (fun j => !(s.jobsOf (BitVec.ofNat 3 j)).isEmpty) l.part.toNat = true := by
    have : s.jobsOf l.part ≠ [] := fun e => by simpa [hd] using (s.jobsOf_eq_nil _).1 e l hl rfl
    simpa using this
  have named : l.part.toNat ∈ s.twinNamed v := by
    rcases hp with e | e <;> simp [State.twinNamed, e]
  refine congrArg Host.Outcome.next ((s.writeTwin_eq v).trans (if_pos ?_))
  rw [List.any_eq_true.2 ⟨_, named, busy⟩, Bool.true_or]

theorem twin_unequal {s : State} {v : Word}
    (h : ¬ (v.getLsbD 6 = true → s.groupCount (ufield v 0 3) = s.groupCount (ufield v 3 3))) :
    exec (.twinWrite v) s = .next s := by
  obtain ⟨h6, ne⟩ := Classical.not_imp.1 h
  exact congrArg Host.Outcome.next ((s.writeTwin_eq v).trans (if_pos (by simp [h6, ne])))

theorem twin_taken {s : State} {v : Word} (idle : ∀ l ∈ s.launches, l.done = true)
    (h : v.getLsbD 6 = true → s.groupCount (ufield v 0 3) = s.groupCount (ufield v 3 3)) :
    ∃ t, exec (.twinWrite v) s = .next t ∧ t = { s with bar0 := t.bar0, cmpKeys := [] } ∧ t.barAt 0 0x30048 = v &&& 0x7F := by
  have noJobs : ∀ p, s.jobsOf p = [] := fun p => (s.jobsOf_eq_nil p).2 fun l hl _ => idle l hl
  exact ⟨_, congrArg Host.Outcome.next ((s.writeTwin_eq v).trans (if_neg (by simpa [noJobs] using h))), rfl,
    State.barAt_setBar_same _ _ _ _⟩

/-- STOP and KIND of CMPST are cleared, its other bits stay. -/
theorem cmpst_cleared (s : State) : ∃ t, exec .cmpstClear s = .next t ∧ t = { s with bar0 := t.bar0 } ∧
    ufield (t.barAt 0 0x30050) 0 2 = 0 ∧ ufield (t.barAt 0 0x30050) 2 2 = ufield (s.barAt 0 0x30050) 2 2 := by
  have word : (s.setBar 0 regCMPST (s.barAt 0 regCMPST &&& 0xC)).barAt 0 0x30050 = s.barAt 0 0x30050 &&& 0xC :=
    State.barAt_setBar_same _ _ _ _
  refine ⟨_, rfl, rfl, ?_⟩
  rw [word]
  exact ⟨ufield_and_of_zeros _ _ _ _ (by decide), ufield_and_of_ones _ _ _ _ (by decide)⟩

theorem cgspan_taken {s : State} {g : BitVec 8} (v : Word) (h : ∀ x ∈ s.groups, ¬ (x.part = s.part ∧ x.gid = g)) :
    ∃ t, exec (.cgspanWrite g v) s = .next t ∧ t = { s with bar0 := t.bar0 } ∧
      t.bar (0x10700 + 8 * g.toNat) = v &&& 0xFFFFFFFF001FFFFF := by
  have hg := g.isLt
  refine ⟨_, congrArg Host.Outcome.next (s.writeSpan_free v h), rfl, ?_⟩
  unfold State.bar
  rw [s.part_setBar _ (by omega) (by omega), State.barAt_setBar_same]

end Sys2Proof.Machine
end

section
/-! SUPPORT. Windows onto memory (R389, R391): the bytes of a word, which layer backs them, and what a read or a write of
the host leaves as it was. -/

namespace Sys2Proof.Machine

/-! ### The bytes of a word (R6) -/

@[simp] theorem length_natBytes (n v : Nat) : (natBytes n v).length = n := by
  induction n generalizing v with
  | zero => rfl
  | succ n ih => exact congrArg (· + 1) (ih _)

theorem bytesNat_natBytes (n v : Nat) : bytesNat (natBytes n v) = v % 256 ^ n := by
  induction n generalizing v with
  | zero => exact (Nat.mod_one v).symm
  | succ n ih =>
    show (BitVec.ofNat 8 v).toNat + 256 * bytesNat (natBytes n (v / 256)) = _
    rw [ih, BitVec.toNat_ofNat, (Nat.pow_succ' : 256 ^ (n + 1) = 256 * 256 ^ n), Nat.mod_mul]

theorem Store.setRun_append {β : Type} [DecidableEq β] (d : β) (m : Store β) (k : Nat) (l r : List β) :
    Store.setRun d m k (l ++ r) = Store.setRun d (Store.setRun d m k l) (k + l.length) r := by
  induction l generalizing m k with
  | nil => rfl
  | cons v l ih =>
    rw [List.length_cons, Nat.add_comm l.length 1, ← Nat.add_assoc]
    exact ih _ _

theorem Store.getRun_setRun {β : Type} [DecidableEq β] (d : β) (m : Store β) (k : Nat) (l : List β) :
    Store.getRun d (Store.setRun d m k l) k l.length = l := by
  refine List.ext_getElem (by simp [Store.getRun]) fun i _ h2 => ?_
  simp only [Store.getRun, List.getElem_map, List.getElem_range]
  exact Store.get_setRun_same d m k i l h2

/-- Where memory took the eight bytes of a word, it reads as that word there and as before elsewhere. -/
theorem State.memWord_of_setRun {s t : State} {pa : Nat} {v : Word} (h : t.mem = s.mem.setRun memDefault pa (natBytes 8 v.toNat)) :
    t.memWord pa = v ∧ ∀ a, a < pa ∨ pa + 8 ≤ a → t.memByte a = s.memByte a := by
  constructor
  · have bytes : t.memBytes pa 8 = natBytes 8 v.toNat := by
      have := Store.getRun_setRun memDefault s.mem pa (natBytes 8 v.toNat)
      rwa [← h, length_natBytes] at this
    unfold State.memWord State.memNat
    rw [bytes, bytesNat_natBytes, show 256 ^ 8 = 2 ^ 64 from rfl, Nat.mod_eq_of_lt v.isLt, BitVec.ofNat_toNat, BitVec.setWidth_eq]
  · intro a ha
    unfold State.memByte
    rw [h, Store.get_setRun_other _ _ _ _ _ (by rwa [length_natBytes])]

/-! ### The layer that backs an address (R67, R86) -/

/-- One layer, on or off, backs all of a 64-byte unit. -/
theorem State.layerGone_unit (s : State) {a b : Nat} (h : a / 64 = b / 64) : s.layerGone a = s.layerGone b := by
  have hbm : inHbm a = inHbm b := decide_eq_decide.2 (by omega)
  have near : inNear a = inNear b := decide_eq_decide.2 (by unfold nearBase; omega)
  have host : inHost a = inHost b := decide_eq_decide.2 (by omega)
  have jirum : inJirum a = inJirum b := decide_eq_decide.2 (by omega)
  have stack : hbmStack a = hbmStack b := by unfold hbmStack; omega
  have group : nearGroup a = nearGroup b := by unfold nearGroup nearBase; omega
  have peer : a / 2 ^ 43 = b / 2 ^ 43 := by omega
  have size (n : Nat) : decide (n * 2 ^ 32 ≤ a % 2 ^ 43) = decide (n * 2 ^ 32 ≤ b % 2 ^ 43) := decide_eq_decide.2 (by omega)
  unfold State.layerGone
  rw [hbm, near, host, jirum, stack, group, peer]
  simp only [size]

theorem State.layerOff_unit (s : State) {a b : Nat} (h : a / 64 = b / 64) : s.layerOff a = s.layerOff b :=
  congrArg (s.flitLost || ·) (s.layerGone_unit h)

theorem State.layerGone_of_layerOff {s : State} {a : Nat} (h : s.layerOff a = false) : s.layerGone a = false :=
  (Bool.or_eq_false_iff.1 h).2

/-! ### Frames of what is done below the cores -/

/-- From s to t no more changes than a read that no core makes may change: the slices, and what a report of it leaves. -/
def State.ReadEffects (s t : State) : Prop :=
  t = { s with hbmSleep := t.hbmSleep, l2 := t.l2, fresh := t.fresh, cmpSaved := t.cmpSaved, snap := t.snap, bar0 := t.bar0,
               msi := t.msi, faultLog := t.faultLog, flitLost := t.flitLost }

theorem State.ReadEffects.refl (s : State) : s.ReadEffects s := rfl

theorem State.ReadEffects.trans {s t u : State} (h : s.ReadEffects t) (g : t.ReadEffects u) : s.ReadEffects u :=
  Eq.trans g (congrArg (fun x : State =>
    { x with hbmSleep := u.hbmSleep, l2 := u.l2, fresh := u.fresh, cmpSaved := u.cmpSaved, snap := u.snap, bar0 := u.bar0,
             msi := u.msi, faultLog := u.faultLog, flitLost := u.flitLost }) h)

theorem State.ReadEffects.mem {s t : State} (h : s.ReadEffects t) : t.mem = s.mem := (congrArg State.mem h).trans rfl
theorem State.ReadEffects.ctx {s t : State} (h : s.ReadEffects t) : t.ctx = s.ctx := (congrArg State.ctx h).trans rfl
theorem State.ReadEffects.cancelQ {s t : State} (h : s.ReadEffects t) : t.cancelQ = s.cancelQ :=
  (congrArg State.cancelQ h).trans rfl

theorem State.ReadEffects.fold {α : Type} {f : State → α → State} (h : ∀ (s : State) (a : α), s.ReadEffects (f s a)) (l : List α)
    (s : State) : s.ReadEffects (l.foldl f s) := by
  induction l generalizing s with
  | nil => exact .refl s
  | cons a r ih => exact (h s a).trans (ih (f s a))

theorem State.latchSnapshot_readEffects (s : State) : s.ReadEffects s.latchSnapshot := by
  unfold State.ReadEffects
  rw [s.latchSnapshot_frame]

theorem State.machineCheck_readEffects (s : State) : s.ReadEffects s.machineCheck := by
  unfold State.machineCheck State.snapCause
  split
  · exact s.latchSnapshot_readEffects
  · exact .refl s

theorem State.logFault_readEffects (s : State) (r : FaultRec) : s.ReadEffects (s.logFault r) := rfl

theorem State.report_readEffects (s : State) (c : Cause) (d : Word) : s.ReadEffects (s.report c d) :=
  (State.logFault_readEffects s _).trans (State.machineCheck_readEffects _)

theorem State.dropAccess_readEffects (s : State) (pa : Nat) : s.ReadEffects (s.dropAccess pa) :=
  (s.report_readEffects _ _).trans rfl

theorem State.wakeStack_readEffects (s : State) (pa : Nat) : s.ReadEffects (s.wakeStack pa) := by
  unfold State.wakeStack
  split <;> rfl

theorem State.l2Access_readEffects (s : State) (pa : Nat) (hint : BitVec 2) (cls : BitVec 4) (un write : Bool) :
    s.ReadEffects (s.l2Access pa hint cls un write) := by
  unfold State.l2Access
  split <;> rfl

theorem State.feltLines_readEffects (s : State) (pa n : Nat) (cls : BitVec 4) (un : Bool) :
    s.ReadEffects (s.feltLines pa n cls un) :=
  .fold (fun s a => (s.wakeStack_readEffects a).trans (State.l2Access_readEffects _ _ _ _ _ _)) _ s

theorem State.machineCheck_faultLog (s : State) : s.machineCheck.faultLog = s.faultLog := by
  unfold State.machineCheck State.snapCause
  split
  · rw [s.latchSnapshot_frame]
  · rfl

theorem State.report_logged (s : State) (c : Cause) (d : Word) : ∃ r : FaultRec, r.cause = c ∧ r ∈ (s.report c d).faultLog := by
  unfold State.report
  dsimp only
  rw [State.machineCheck_faultLog]
  exact ⟨_, rfl, List.mem_append_right _ (List.mem_singleton.2 rfl)⟩

/-- An access that no layer serves stands in the fault log. -/
theorem State.dropAccess_logged (s : State) (pa : Nat) : ∃ f ∈ (s.dropAccess pa).faultLog,
    f.cause = if s.flitLost = true then .linkFail else .layerOff := by
  obtain ⟨r, hc, hr⟩ := s.report_logged (if s.flitLost then .linkFail else .layerOff) (BitVec.ofNat 64 pa)
  exact ⟨r, hr, hc⟩

/-! ### A read and a write of the host -/

theorem State.sysRead_served (s : State) {pa : Nat} (h : s.layerOff pa = false) (h7 : s.layerOff (pa + 7) = false) :
    ∃ t, s.sysRead pa = t ∧ t.hostRead = some (s.memWord pa) ∧ t.mem = s.mem ∧ t.ctx = s.ctx := by
  have frame := s.feltLines_readEffects pa 8 0 false
  refine ⟨_, if_neg ?_, rfl, ?_, ?_⟩
  · rw [h, State.layerGone_of_layerOff h7]
    decide
  · exact frame.mem
  · exact frame.ctx

theorem State.sysRead_dropped (s : State) {pa : Nat} (h : s.layerOff pa = true) :
    ∃ t, s.sysRead pa = t ∧ t.hostRead ≠ none ∧ t.mem = s.mem ∧
      ∃ f ∈ t.faultLog, f.cause = if s.flitLost = true then .linkFail else .layerOff := by
  have e : s.sysRead pa = { (s.dropAccess pa).bump with hostRead := some (s.dropAccess pa).freeWord } :=
    if_pos (by rw [h, Bool.true_or])
  have kept := (s.dropAccess_readEffects pa).mem
  have logged := s.dropAccess_logged pa
  rw [e]
  generalize s.dropAccess pa = u at kept logged
  exact ⟨_, rfl, Option.some_ne_none _, kept, logged⟩

/-- From s to t the context and the layers that back memory stay as they are. -/
def State.SameReach (s t : State) : Prop := t.ctx = s.ctx ∧ ∀ a, t.layerOff a = s.layerOff a

theorem State.SameReach.trans {s t u : State} (h : s.SameReach t) (g : t.SameReach u) : s.SameReach u :=
  ⟨g.1.trans h.1, fun a => (g.2 a).trans (h.2 a)⟩

theorem State.touchVersion_sameReach (s : State) (line : Nat) : s.SameReach (s.touchVersion line) := by
  unfold State.touchVersion
  split <;> exact ⟨rfl, fun _ => rfl⟩

theorem State.memWrite_sameReach (s : State) (pa : Nat) (bs : List Byte) (p : Bool) : s.SameReach (s.memWrite pa bs p) :=
  State.SameReach.trans ⟨rfl, fun _ => rfl⟩ (State.touchVersion_sameReach _ (pa / 128))

theorem State.wakeStack_sameReach (s : State) (pa : Nat) : s.SameReach (s.wakeStack pa) := by
  unfold State.wakeStack
  split <;> exact ⟨rfl, fun _ => rfl⟩

theorem State.l2Access_sameReach (s : State) (pa : Nat) (hint : BitVec 2) (cls : BitVec 4) (un write : Bool) :
    s.SameReach (s.l2Access pa hint cls un write) := by
  unfold State.l2Access
  split <;> exact ⟨rfl, fun _ => rfl⟩

/-- A write for the Felt where a layer backs memory. -/
theorem State.feltWrite_served (s : State) {pa : Nat} (bs : List Byte) (cls : BitVec 4) (un : Bool) (h : s.layerOff pa = false) :
    (s.feltWrite pa bs cls un).mem = s.mem.setRun memDefault pa bs ∧ s.SameReach (s.feltWrite pa bs cls un) := by
  have e : s.feltWrite pa bs cls un = ((s.memWrite pa bs false).wakeStack pa).l2Access pa 0 cls un true := if_neg (by simp [h])
  rw [e]
  constructor
  · have frame := ((s.memWrite pa bs false).wakeStack_readEffects pa).trans (State.l2Access_readEffects _ pa 0 cls un true)
    exact frame.mem.trans (s.memWrite_mem pa bs false)
  · exact ((s.memWrite_sameReach pa bs false).trans (State.wakeStack_sameReach _ pa)).trans (State.l2Access_sameReach _ _ _ _ _ _)

/-- The write of a word, in one 64-byte unit or in two, where a layer backs each. -/
theorem State.sysWrite_served (s : State) {pa : Nat} (v : Word) (h : s.layerOff pa = false) (h7 : s.layerOff (pa + 7) = false) :
    ∃ t, s.sysWrite pa v = t ∧ t.memWord pa = v ∧ t.ctx = s.ctx ∧ ∀ a, a < pa ∨ pa + 8 ≤ a → t.memByte a = s.memByte a := by
  suffices H : (s.sysWrite pa v).mem = s.mem.setRun memDefault pa (natBytes 8 v.toNat) ∧ (s.sysWrite pa v).ctx = s.ctx by
    obtain ⟨word, rest⟩ := State.memWord_of_setRun H.1
    exact ⟨_, rfl, word, H.2, rest⟩
  unfold State.sysWrite
  dsimp only
  split
  case isTrue one =>
    obtain ⟨m, r⟩ := s.feltWrite_served (natBytes 8 v.toNat) 0 false h
    exact ⟨m, r.1⟩
  case isFalse two =>
    obtain ⟨m1, r1⟩ := s.feltWrite_served ((natBytes 8 v.toNat).take (64 - pa % 64)) 0 false h
    have second : (s.feltWrite pa ((natBytes 8 v.toNat).take (64 - pa % 64)) 0 false).layerOff (pa + (64 - pa % 64)) = false := by
      rw [r1.2, ← h7]
      exact s.layerOff_unit (by omega)
    obtain ⟨m2, r2⟩ := State.feltWrite_served _ ((natBytes 8 v.toNat).drop (64 - pa % 64)) 0 false second
    refine ⟨?_, (r1.trans r2).1⟩
    have len : ((natBytes 8 v.toNat).take (64 - pa % 64)).length = 64 - pa % 64 := by
      rw [List.length_take, length_natBytes]
      omega
    have whole := Store.setRun_append memDefault s.mem pa ((natBytes 8 v.toNat).take (64 - pa % 64))
      ((natBytes 8 v.toNat).drop (64 - pa % 64))
    rw [List.take_append_drop, len] at whole
    rw [m2, m1, whole]

/-! ### The target of BAR2 (R82, R389) -/

/-- Every byte of an access at an offset of a function's BAR2 may be reached. -/
def State.Bar2Reaches (s : State) (p : RegPlace) : Prop :=
  p.off + 8 ≤ 2 ^ 36 ∧ s.hostMay ((s.barAt p.fn.toNat 0x10600).toNat + p.off) = true ∧
    s.hostMay ((s.barAt p.fn.toNat 0x10600).toNat + p.off + 7) = true

theorem State.hostMay_iff (s : State) (a : Nat) : s.hostMay a = true ↔ inHbm a = true ∨ (inNear a = true ∧
    (s.barAt 0 (0x20010 + 0x1000 * (nearGroup a / 32))).getLsbD (nearGroup a % 32) = true) := by
  unfold State.hostMay State.nearReserved
  rw [Bool.or_eq_true, Bool.and_eq_true]

theorem exec_bar2_reached {s : State} {p : RegPlace} (h : s.Bar2Reaches p) (v : Word) :
    exec (.bar2Read p) s = .next (s.sysRead ((s.barAt p.fn.toNat 0x10600).toNat + p.off)) ∧
    exec (.bar2Write p v) s = .next (s.sysWrite ((s.barAt p.fn.toNat 0x10600).toNat + p.off) v) := by
  have e : s.bar2 p = some ((s.barAt p.fn.toNat 0x10600).toNat + p.off) := if_pos h
  constructor
  · show execBar2Read p s = _
    unfold execBar2Read
    rw [e]
  · show execBar2Write p v s = _
    unfold execBar2Write
    rw [e]

theorem exec_bar2_refused {s : State} {p : RegPlace} (h : ¬ s.Bar2Reaches p) (v : Word) :
    exec (.bar2Read p) s = .next { s with hostRead := none } ∧ exec (.bar2Write p v) s = .next s := by
  have e : s.bar2 p = none := if_neg h
  constructor
  · show execBar2Read p s = _
    unfold execBar2Read
    rw [e]
  · show execBar2Write p v s = _
    unfold execBar2Write
    rw [e]

theorem exec_remoteWindow_read (s : State) {pa : Nat} (h : pa % 8 = 0) :
    exec (.remoteWindowAccess pa none) s = .next (s.sysRead pa) := congrArg Host.Outcome.next (if_neg (by omega))

theorem exec_remoteWindow_write (s : State) {pa : Nat} (v : Word) (h : pa % 8 = 0) :
    exec (.remoteWindowAccess pa (some v)) s = .next (s.sysWrite pa v) := congrArg Host.Outcome.next (if_neg (by omega))

end Sys2Proof.Machine
end

section
/-! SUPPORT. The function-level reset (R354, R383, R388): which registers it puts back, and which cancels it leaves. -/

namespace Sys2Proof.Machine

/-! ### Parts of a sparse map -/

section
variable {β : Type} (d : β)

theorem Store.get_filter_kept (c : Nat × β → Bool) (m : Store β) (k : Nat) (h : ∀ v, c (k, v) = true) :
    Store.get d (m.filter c) k = Store.get d m k := by
  induction m with
  | nil => rfl
  | cons x r ih =>
    obtain ⟨i, v⟩ := x
    by_cases e : k = i
    · subst e
      rw [List.filter_cons_of_pos (h v)]
      simp [Store.get]
    · by_cases hc : c (i, v) = true
      · rw [List.filter_cons_of_pos hc]
        simp [Store.get, e, ih]
      · rw [List.filter_cons_of_neg hc]
        simp [Store.get, e, ih]

/-- A number that stands nowhere in a map reads as the default. -/
theorem Store.get_of_not_mem (m : Store β) (k : Nat) (h : k ∉ m.map Prod.fst) : Store.get d m k = d := by
  induction m with
  | nil => rfl
  | cons x r ih =>
    obtain ⟨i, v⟩ := x
    simp only [List.map_cons, List.mem_cons, not_or] at h
    simp [Store.get, h.1, ih h.2]

theorem Store.get_filter_dropped (c : Nat × β → Bool) (m : Store β) (k : Nat) (h : ∀ v, c (k, v) = false) :
    Store.get d (m.filter c) k = d := by
  refine Store.get_of_not_mem d _ k fun hk => ?_
  obtain ⟨⟨i, v⟩, hm, rfl⟩ := List.mem_map.1 hk
  have := (List.mem_filter.1 hm).2
  simp [h v] at this

/-- The entries of a list put into a map one after the other. -/
def Store.insertAll (m : Store β) (l : List (Nat × β)) : Store β := l.foldl (fun m p => m.insert p.1 p.2) m

theorem Store.get_insertAll_other (m : Store β) (l : List (Nat × β)) (k : Nat) (h : k ∉ l.map Prod.fst) :
    Store.get d (Store.insertAll m l) k = Store.get d m k := by
  induction l generalizing m with
  | nil => rfl
  | cons x r ih =>
    simp only [List.map_cons, List.mem_cons, not_or] at h
    exact (ih (m.insert x.1 x.2) h.2).trans (Store.get_insert_other d m x.1 k x.2 h.1)

/-- Where the map reads as the default, it then reads as the list did. -/
theorem Store.get_insertAll (m : Store β) (l : List (Nat × β)) (k : Nat) (nd : (l.map Prod.fst).Nodup) (h : Store.get d m k = d) :
    Store.get d (Store.insertAll m l) k = Store.get d l k := by
  induction l generalizing m with
  | nil => exact h
  | cons x r ih =>
    obtain ⟨i, v⟩ := x
    rw [List.map_cons, List.nodup_cons] at nd
    obtain ⟨ni, nd⟩ := nd
    by_cases e : k = i
    · subst e
      have : Store.get d ((k, v) :: r) k = v := if_pos rfl
      rw [this]
      exact (Store.get_insertAll_other d _ r k ni).trans (Store.get_insert_same d m k v)
    · have : Store.get d ((i, v) :: r) k = Store.get d r k := if_neg e
      rw [this]
      exact ih _ nd ((Store.get_insert_other d m i k v e).trans h)

end

/-- The keys of a map in its canonical form differ. -/
theorem Store.keys_of_wfFrom {β : Type} [DecidableEq β] (d : β) {lo : Nat} {m : Store β} (w : Store.wfFrom d lo m = true) :
    (∀ k ∈ m.map Prod.fst, lo ≤ k) ∧ (m.map Prod.fst).Nodup := by
  induction m generalizing lo with
  | nil => exact ⟨fun k hk => absurd hk List.not_mem_nil, List.nodup_nil⟩
  | cons x r ih =>
    obtain ⟨i, v⟩ := x
    simp only [Store.wfFrom, Bool.and_eq_true, decide_eq_true_eq] at w
    obtain ⟨⟨hi, -⟩, hr⟩ := w
    obtain ⟨above, nd⟩ := ih hr
    rw [List.map_cons]
    refine ⟨fun k hk => ?_, List.nodup_cons.2 ⟨fun hk => Nat.not_succ_le_self i (above i hk), nd⟩⟩
    rcases List.mem_cons.1 hk with rfl | hk
    · exact hi
    · exact Nat.le_trans hi (Nat.le_of_succ_le (above k hk))

/-- The reset values of BAR0 stand in the canonical form. -/
theorem bar0Reset_wf : Store.wf 0 bar0Reset = true := by decide +kernel

theorem bar0Reset_nodup : (bar0Reset.map Prod.fst).Nodup := (Store.keys_of_wfFrom 0 bar0Reset_wf).2

/-! ### The registers after a function-level reset -/

/-- The register of a key is one that a reset of function f puts back. -/
def flrCut (f : Nat) (p : Nat × Word) : Bool := p.1 / 2097152 == f && !isModule (p.1 % 2097152)

theorem flrCut_iff (f fn off : Nat) (v : Word) (h : off < 2097152) :
    flrCut f (barKey fn off, v) = true ↔ fn = f ∧ ¬ (0x20000 ≤ off ∧ off < 0x80000) := by
  have q : barKey fn off / 2097152 = fn := by unfold barKey; omega
  have r : barKey fn off % 2097152 = off := by unfold barKey; omega
  unfold flrCut
  rw [q, r, Bool.and_eq_true, beq_iff_eq, Bool.not_eq_true', ← Bool.not_eq_true, isModule_iff]

/-- The registers that a reset of function f leaves. -/
def flrBar0 (f : Nat) (m : Store Word) : Store Word :=
  Store.insertAll (m.filter (fun p => !flrCut f p)) (bar0Reset.filter (flrCut f))

theorem flrBar0_kept (f : Nat) (m : Store Word) {fn off : Nat} (h : off < 2097152) (k : fn ≠ f ∨ (0x20000 ≤ off ∧ off < 0x80000)) :
    Store.get 0 (flrBar0 f m) (barKey fn off) = Store.get 0 m (barKey fn off) := by
  have keep : ∀ v, flrCut f (barKey fn off, v) = false := fun v => by
    rw [← Bool.not_eq_true, flrCut_iff f fn off v h]
    exact fun ⟨same, plain⟩ => k.elim (absurd same) plain
  refine (Store.get_insertAll_other 0 _ _ _ fun hk => ?_).trans (Store.get_filter_kept 0 _ m _ fun v => by rw [keep v]; rfl)
  obtain ⟨⟨i, v⟩, hm, rfl⟩ := List.mem_map.1 hk
  have := (List.mem_filter.1 hm).2
  simp [keep v] at this

theorem flrBar0_reset (f : Nat) (m : Store Word) {off : Nat} (h : off < 2097152) (k : ¬ (0x20000 ≤ off ∧ off < 0x80000)) :
    Store.get 0 (flrBar0 f m) (barKey f off) = Store.get 0 bar0Reset (barKey f off) := by
  have cut : ∀ v, flrCut f (barKey f off, v) = true := fun v => (flrCut_iff f f off v h).2 ⟨rfl, k⟩
  have gone : Store.get 0 (m.filter (fun p => !flrCut f p)) (barKey f off) = 0 :=
    Store.get_filter_dropped 0 _ m _ fun v => by rw [cut v]; rfl
  have nd : ((bar0Reset.filter (flrCut f)).map Prod.fst).Nodup := bar0Reset_nodup.sublist (List.filter_sublist.map _)
  exact (Store.get_insertAll 0 _ _ _ nd gone).trans (Store.get_filter_kept 0 _ bar0Reset _ cut)

/-! ### What reading a descriptor leaves as it was -/

/-- From s to t the running context stays as it is, and no cancel that waits is lost. -/
def State.KeepsCancels (s t : State) : Prop := t.ctx = s.ctx ∧ ∀ c ∈ s.cancelQ, c ∈ t.cancelQ

theorem State.KeepsCancels.refl (s : State) : s.KeepsCancels s := ⟨rfl, fun _ => id⟩

theorem State.KeepsCancels.trans {s t u : State} (h : s.KeepsCancels t) (g : t.KeepsCancels u) : s.KeepsCancels u :=
  ⟨g.1.trans h.1, fun c hc => g.2 c (h.2 c hc)⟩

theorem State.KeepsCancels.of_eq {s t : State} (hc : t.ctx = s.ctx) (hq : t.cancelQ = s.cancelQ) : s.KeepsCancels t :=
  ⟨hc, fun _ h => hq ▸ h⟩

theorem State.ReadEffects.keepsCancels {s t : State} (h : s.ReadEffects t) : s.KeepsCancels t := .of_eq h.ctx h.cancelQ

theorem State.touchVersion_keepsCancels (s : State) (line : Nat) : s.KeepsCancels (s.touchVersion line) := by
  unfold State.touchVersion
  split
  · exact .of_eq rfl rfl
  · exact .refl s

theorem State.orEntry_keepsCancels (s : State) (ent : Nat) (bits : Word) : s.KeepsCancels (s.orEntry ent bits) :=
  State.KeepsCancels.trans (t := { s with mem := s.mem.setRun memDefault ent (natBytes 8 (s.memWord ent ||| bits).toNat) })
    (.of_eq rfl rfl) ((State.touchVersion_keepsCancels _ _).trans
      ((State.wakeStack_readEffects _ _).trans (State.l2Access_readEffects _ _ _ _ _ _)).keepsCancels)

theorem State.walkRead_readEffects (s : State) (ent : Nat) : s.ReadEffects (s.walkRead ent) := by
  unfold State.walkRead
  split
  · exact s.dropAccess_readEffects ent
  · exact (s.wakeStack_readEffects ent).trans (State.l2Access_readEffects _ _ _ _ _ _)

theorem State.walkAccess_keepsCancels (s : State) (root : Nat) (va : Word) : s.KeepsCancels (s.walkAccess root va) :=
  (State.ReadEffects.fold State.walkRead_readEffects _ s).keepsCancels

theorem State.install_keepsCancels (s : State) (t : Tlb) : s.KeepsCancels (s.install t) := by
  unfold State.install
  dsimp only
  split
  · exact .of_eq rfl rfl
  · exact (s.orEntry_keepsCancels t.ent 0x100).trans (.of_eq rfl rfl)

theorem State.lookup_keepsCancels (s : State) (asid : BitVec 12) (root : Nat) (va : Word) :
    s.KeepsCancels (s.lookup asid root va).2 := by
  unfold State.lookup
  split
  · exact .refl s
  · split
    · exact .of_eq rfl rfl
    · dsimp only
      split
      · exact (s.walkAccess_keepsCancels root va).trans (State.install_keepsCancels _ _)
      · exact s.walkAccess_keepsCancels root va

theorem State.markWritten_keepsCancels (s : State) (t : Tlb) : s.KeepsCancels (s.markWritten t) := by
  unfold State.markWritten
  split
  · exact .refl s
  · exact (s.orEntry_keepsCancels t.ent 0x200).trans (.of_eq rfl rfl)

theorem State.translate_keepsCancels (s : State) (asid : BitVec 12) (root : Nat) (va : Word) (acc : Access) :
    s.KeepsCancels (s.translate asid root va acc).2 := by
  have h := s.lookup_keepsCancels asid root va
  unfold State.translate
  split
  · exact .refl s
  · revert h
    rcases s.lookup asid root va with ⟨t | _ | _, s1⟩ <;> intro h
    case leaf =>
      dsimp only
      split
      · exact h
      · split
        · exact h.trans (State.markWritten_keepsCancels _ _)
        · exact h
    case absent =>
      dsimp only
      split <;> exact h
    case bad => exact h

theorem State.feltRead_keepsCancels (s : State) (pa n : Nat) (cls : BitVec 4) (un : Bool) :
    s.KeepsCancels (s.feltRead pa n cls un).2 := by
  unfold State.feltRead
  split
  · exact (s.dropAccess_readEffects pa).keepsCancels
  · exact (s.feltLines_readEffects pa (8 * n) cls un).keepsCancels

theorem State.pageWords_keepsCancels (s : State) (asid : BitVec 12) (root : Nat) (va : Word) (n : Nat) (acc : Access)
    (cls : BitVec 4) : s.KeepsCancels (s.pageWords asid root va n acc cls).2 := by
  have h := s.translate_keepsCancels asid root va acc
  unfold State.pageWords
  revert h
  rcases s.translate asid root va acc with ⟨⟨pa, t⟩ | c, s1⟩ <;> intro h
  case ok =>
    have g := s1.feltRead_keepsCancels pa n cls (t.kind == 2)
    dsimp only
    revert g
    rcases s1.feltRead pa n cls (t.kind == 2) with ⟨_ | l, s2⟩ <;> intro g <;> exact h.trans g
  case fault =>
    dsimp only
    split
    · exact h.trans (s1.report_readEffects c va).keepsCancels
    · exact h

theorem State.wordsAt_keepsCancels (s : State) (asid : BitVec 12) (root : Nat) (va : Word) (n : Nat) (acc : Access)
    (cls : BitVec 4) : s.KeepsCancels (s.wordsAt asid root va n acc cls).2 := by
  have h := s.pageWords_keepsCancels asid root va (onPage va n) acc cls
  unfold State.wordsAt
  revert h
  rcases s.pageWords asid root va (onPage va n) acc cls with ⟨_ | a, s1⟩ <;> intro h
  case error => exact h
  case ok =>
    have g := s1.pageWords_keepsCancels asid root (pastPage va n) (n - onPage va n) acc cls
    dsimp only
    split
    · exact h
    · revert g
      rcases s1.pageWords asid root (pastPage va n) (n - onPage va n) acc cls with ⟨_ | b, s2⟩ <;> intro g <;> exact h.trans g

theorem State.jobWords_keepsCancels (s : State) (jd : Word) : s.KeepsCancels (s.jobWords jd).2 := by
  unfold State.jobWords
  split
  · exact s.wordsAt_keepsCancels _ _ _ _ _ _
  · exact .refl s

/-! ### The cancels of a partition's jobs -/

/-- Where the job's JCB is, for a launch: known since its first read, or read now. -/
def State.jcbOf (s : State) (l : Launch) : Option Word × State := match l.job with
  | some j => (some j.jjcb, s)
  | none => match s.jobWords l.jd with
    | (.ok d, s1) => (some (jobOf d).jjcb, s1)
    | (.error _, s1) => (none, s1)

/-- The job of one launch is cancelled. -/
def State.cancelJob (s : State) (l : Launch) : State := match s.jcbOf l with
  | (some va, s1) => if s1.cancelQ.contains (4, l.jd, va, 0) then s1 else s1.queueCancel 4 l.jd va 0
  | (none, s1) => s1

theorem State.cancelJobs_eq (s : State) :
    s.cancelJobs = (s.launches.filter (fun l => l.part == s.part && !l.done)).foldl State.cancelJob s := rfl

theorem State.jcbOf_keepsCancels (s : State) (l : Launch) : s.KeepsCancels (s.jcbOf l).2 := by
  have h := s.jobWords_keepsCancels l.jd
  unfold State.jcbOf
  split
  · exact .refl s
  · revert h
    rcases s.jobWords l.jd with ⟨_ | d, s1⟩ <;> exact id

theorem State.queueCancel_keepsCancels (s : State) (lvl : Nat) (jd target : Word) (idx : Nat) :
    s.KeepsCancels (s.queueCancel lvl jd target idx) := ⟨rfl, fun _ h => List.mem_append_left _ h⟩

theorem State.cancelJob_keepsCancels (s : State) (l : Launch) : s.KeepsCancels (s.cancelJob l) := by
  have h := s.jcbOf_keepsCancels l
  unfold State.cancelJob
  revert h
  rcases s.jcbOf l with ⟨_ | va, s1⟩ <;> intro h
  case none => exact h
  case some =>
    dsimp only
    split
    · exact h
    · exact h.trans (s1.queueCancel_keepsCancels _ _ _ _)

/-- Once a launch's JCB is known, a cancel of its job waits. -/
theorem State.cancelJob_queued (s : State) {l : Launch} {va : Word} (h : (s.jcbOf l).1 = some va) :
    (4, l.jd, va, 0) ∈ (s.cancelJob l).cancelQ := by
  unfold State.cancelJob
  revert h
  rcases s.jcbOf l with ⟨o, s1⟩
  rintro (rfl : o = some va)
  dsimp only
  split
  case isTrue there => exact List.contains_iff_mem.1 there
  case isFalse => exact List.mem_append_right _ (List.mem_singleton.2 rfl)

theorem State.cancelAll_keepsCancels (s : State) (l : List Launch) : s.KeepsCancels (l.foldl State.cancelJob s) := by
  induction l generalizing s with
  | nil => exact .refl s
  | cons a r ih => exact (s.cancelJob_keepsCancels a).trans (ih _)

/-- A launch that has been read has its job cancelled, wherever it stands in the table. -/
theorem State.cancelAll_queued (s : State) {ls : List Launch} {l : Launch} {j : JobDesc} (hl : l ∈ ls) (hj : l.job = some j) :
    (4, l.jd, j.jjcb, 0) ∈ (ls.foldl State.cancelJob s).cancelQ := by
  induction ls generalizing s with
  | nil => simp at hl
  | cons a r ih =>
    rcases List.mem_cons.1 hl with rfl | hr
    · have known : (s.jcbOf l).1 = some j.jjcb := by
        unfold State.jcbOf
        rw [hj]
      exact (State.cancelAll_keepsCancels _ r).2 _ (s.cancelJob_queued known)
    · exact ih _ hr

/-- Where every launch has been read, cancelling changes nothing but the queue of cancels. -/
theorem State.cancelAll_frame (s : State) {ls : List Launch} (h : ∀ l ∈ ls, l.job ≠ none) :
    ls.foldl State.cancelJob s = { s with cancelQ := (ls.foldl State.cancelJob s).cancelQ } := by
  induction ls generalizing s with
  | nil => rfl
  | cons a r ih =>
    have one : s.cancelJob a = { s with cancelQ := (s.cancelJob a).cancelQ } := by
      obtain ⟨j, hj⟩ := Option.ne_none_iff_exists'.1 (h a (by simp))
      have known : s.jcbOf a = (some j.jjcb, s) := by
        unfold State.jcbOf
        rw [hj]
      unfold State.cancelJob
      rw [known]
      dsimp only
      split <;> rfl
    exact (ih (s.cancelJob a) fun l hl => h l (by simp [hl])).trans
      (congrArg (fun x : State => { x with cancelQ := (r.foldl State.cancelJob (s.cancelJob a)).cancelQ }) one)

/-! ### The reset as a whole -/

theorem State.cancelPart_own (s : State) {f : BitVec 3} (h : f = s.part) :
    s.cancelPart f = (s.launches.filter (fun l => l.part == s.part && !l.done)).foldl State.cancelJob s :=
  (if_pos h).trans s.cancelJobs_eq

theorem State.cancelPart_other (s : State) {f : BitVec 3} (h : f ≠ s.part) : s.cancelPart f =
    { s with launches := s.launches.map (fun l => if l.part = f ∧ !l.done then { l with cancelled := true } else l) } := if_neg h

theorem State.cancelPart_keepsCancels (s : State) (f : BitVec 3) : s.KeepsCancels (s.cancelPart f) := by
  by_cases h : f = s.part
  · rw [s.cancelPart_own h]
    exact s.cancelAll_keepsCancels _
  · rw [s.cancelPart_other h]
    exact .of_eq rfl rfl

/-- The cancelling leaves all but the launches and the queue of cancels, where it reads no descriptor. -/
theorem State.cancelPart_frame (s : State) {f : BitVec 3}
    (h : f ≠ s.part ∨ ∀ l ∈ s.launches, l.part = f → l.done = false → l.job ≠ none) :
    s.cancelPart f = { s with launches := (s.cancelPart f).launches, cancelQ := (s.cancelPart f).cancelQ } := by
  by_cases e : f = s.part
  · rw [s.cancelPart_own e]
    have frame := s.cancelAll_frame (ls := s.launches.filter (fun l => l.part == s.part && !l.done)) fun l hl => by
      simp only [List.mem_filter, Bool.and_eq_true, beq_iff_eq, Bool.not_eq_true'] at hl
      exact h.resolve_left (fun other => other e) l hl.1 (hl.2.1.trans e.symm) hl.2.2
    rw [frame]
  · rw [s.cancelPart_other e]

theorem State.cancelPart_cancelled (s : State) {f : BitVec 3} (h : f ≠ s.part) :
    ∀ l ∈ (s.cancelPart f).launches, l.part = f → l.done = false → l.cancelled = true := by
  rw [s.cancelPart_other h]
  intro l hl hp hd
  obtain ⟨x, -, rfl⟩ := List.mem_map.1 hl
  by_cases e : x.part = f ∧ (!x.done) = true
  · rw [if_pos e]
  · rw [if_neg e] at hp hd
    exact absurd ⟨hp, by rw [hd]; rfl⟩ e

theorem mem_openLaunches {s : State} {l : Launch} (hl : l ∈ s.launches) (hp : l.part = s.part) (hd : l.done = false) :
    l ∈ s.launches.filter (fun l => l.part == s.part && !l.done) := by
  simp [hl, hp, hd]

/-- The state after a function-level reset of the function that the host names. -/
def State.afterReset (s : State) : State :=
  { s.cancelPart s.flrFn with
    bar0 := flrBar0 s.flrFn.toNat (s.cancelPart s.flrFn).bar0
    cmpSaved := (s.cancelPart s.flrFn).cmpSaved.set 0 s.flrFn.toNat 0
    lpRun := if s.flrFn = s.part then [] else (s.cancelPart s.flrFn).lpRun
    trace := if s.flrFn = s.part then [] else (s.cancelPart s.flrFn).trace
    inval := if s.flrFn = s.part then none else (s.cancelPart s.flrFn).inval }

theorem exec_functionLevelReset (s : State) : exec .functionLevelReset s = .next s.afterReset := rfl

theorem State.afterReset_kept (s : State)
    (h : s.flrFn ≠ s.part ∨ ∀ l ∈ s.launches, l.part = s.flrFn → l.done = false → l.job ≠ none) :
    s.afterReset.mem = s.mem ∧ s.afterReset.l2 = s.l2 ∧
      ∀ fn off : Nat, fn < 8 → off < 0x200000 → (fn ≠ s.flrFn.toNat ∨ (0x20000 ≤ off ∧ off < 0x80000)) →
        s.afterReset.barAt fn off = s.barAt fn off := by
  have frame := s.cancelPart_frame h
  have bar0 : (s.cancelPart s.flrFn).bar0 = s.bar0 := by rw [frame]
  refine ⟨?mem, ?l2, fun fn off _ ho hk => (flrBar0_kept _ _ ho hk).trans (by rw [bar0]; rfl)⟩
  case mem =>
    show (s.cancelPart s.flrFn).mem = _
    rw [frame]
  case l2 =>
    show (s.cancelPart s.flrFn).l2 = _
    rw [frame]

theorem State.afterReset_barAt (s : State) {off : Nat} (h : off < 0x200000) (k : ¬ (0x20000 ≤ off ∧ off < 0x80000)) :
    s.afterReset.barAt s.flrFn.toNat off = State.reset.barAt s.flrFn.toNat off := flrBar0_reset _ _ h k

theorem State.afterReset_cmpSaved (s : State) : s.afterReset.cmpSaved.get 0 s.flrFn.toNat = 0 :=
  Store.get_set_same 0 (s.cancelPart s.flrFn).cmpSaved s.flrFn.toNat 0

theorem State.afterReset_own (s : State) (h : s.flrFn = s.part) :
    s.afterReset.lpRun = [] ∧ s.afterReset.trace = [] ∧ s.afterReset.inval = none := ⟨if_pos h, if_pos h, if_pos h⟩

theorem State.afterReset_cancels_read (s : State) (h : s.flrFn = s.part) {l : Launch} (hl : l ∈ s.launches) (hp : l.part = s.part)
    (hd : l.done = false) {j : JobDesc} (hj : l.job = some j) : (4, l.jd, j.jjcb, 0) ∈ s.afterReset.cancelQ := by
  show _ ∈ (s.cancelPart s.flrFn).cancelQ
  rw [s.cancelPart_own h]
  exact s.cancelAll_queued (mem_openLaunches hl hp hd) hj

theorem State.afterReset_cancels_unread (s : State) (h : s.flrFn = s.part) {l : Launch} {dws : List Word} {s1 : State}
    (hl : s.launches = [l]) (hp : l.part = s.part) (hd : l.done = false) (hj : l.job = none)
    (hw : s.jobWords l.jd = (.ok dws, s1)) :
    (4, l.jd, (jobOf dws).jjcb, 0) ∈ s.afterReset.cancelQ := by
  show _ ∈ (s.cancelPart s.flrFn).cancelQ
  have open1 : s.launches.filter (fun l => l.part == s.part && !l.done) = [l] := by
    rw [hl, List.filter_cons_of_pos (by simp [hp, hd]), List.filter_nil]
  have known : (s.jcbOf l).1 = some (jobOf dws).jjcb := by
    unfold State.jcbOf
    rw [hj, hw]
  rw [s.cancelPart_own h, open1]
  exact s.cancelJob_queued known

end Sys2Proof.Machine
end

section
/-! SUPPORT. The statement about the host's windows and registers, settled. -/

namespace Sys2Proof.Machine

/-- R389, R391: BAR2 and the remote window. -/
theorem bar2_served {s : State} {p : RegPlace} (v : Word) (h : s.Bar2Reaches p)
    (off : s.layerOff ((s.barAt p.fn.toNat 0x10600).toNat + p.off) = false)
    (off7 : s.layerOff ((s.barAt p.fn.toNat 0x10600).toNat + p.off + 7) = false) :
    (∃ t, exec (.bar2Read p) s = .next t ∧ t.hostRead = some (s.memWord ((s.barAt p.fn.toNat 0x10600).toNat + p.off)) ∧
      t.mem = s.mem ∧ t.ctx = s.ctx) ∧
    (∃ t, exec (.bar2Write p v) s = .next t ∧ t.memWord ((s.barAt p.fn.toNat 0x10600).toNat + p.off) = v ∧ t.ctx = s.ctx ∧
      ∀ a, a < (s.barAt p.fn.toNat 0x10600).toNat + p.off ∨ (s.barAt p.fn.toNat 0x10600).toNat + p.off + 8 ≤ a →
        t.memByte a = s.memByte a) := by
  obtain ⟨rd, wr⟩ := exec_bar2_reached h v
  obtain ⟨t, ht, hrd⟩ := s.sysRead_served off off7
  obtain ⟨u, hu, hwr⟩ := s.sysWrite_served v off off7
  exact ⟨⟨t, by rw [rd, ht], hrd⟩, ⟨u, by rw [wr, hu], hwr⟩⟩

theorem remoteWindow_served {s : State} {pa : Nat} (v : Word) (off : s.layerOff pa = false) (a : pa % 8 = 0) :
    (∃ t, exec (.remoteWindowAccess pa none) s = .next t ∧ t.hostRead = some (s.memWord pa) ∧ t.mem = s.mem ∧ t.ctx = s.ctx) ∧
    (∃ t, exec (.remoteWindowAccess pa (some v)) s = .next t ∧ t.memWord pa = v ∧ t.ctx = s.ctx ∧
      ∀ a, a < pa ∨ pa + 8 ≤ a → t.memByte a = s.memByte a) := by
  have off7 : s.layerOff (pa + 7) = false := (s.layerOff_unit (by omega)).trans off
  obtain ⟨t, ht, hrd⟩ := s.sysRead_served off off7
  obtain ⟨u, hu, hwr⟩ := s.sysWrite_served v off off7
  exact ⟨⟨t, by rw [exec_remoteWindow_read s a, ht], hrd⟩, ⟨u, by rw [exec_remoteWindow_write s v a, hu], hwr⟩⟩

end Sys2Proof.Machine

open Sys2Proof Sys2Proof.Machine

/-- Settles O53: each clause is what the lemmas on the windows, on register writes, on partitions and on the reset say. -/
theorem hostRegisters : Obligations.HostRegisters := by
  unfold Obligations.HostRegisters
  refine ⟨⟨fun p v s => ?windows, fun pa v s h a => remoteWindow_served v h a⟩, fun fn v s => ?registers, fun s => ?partitions,
    fun s => ?reset⟩
  case windows =>
    intro pa may there
    have reach : there ↔ s.Bar2Reaches p :=
      and_congr_right' (and_congr (s.hostMay_iff _).symm (s.hostMay_iff _).symm)
    refine ⟨fun h => bar2_served v (reach.1 h), fun h off => ?_, fun h => exec_bar2_refused (mt reach.2 h) v⟩
    obtain ⟨t, ht, hrd⟩ := s.sysRead_dropped off
    exact ⟨t, by rw [(exec_bar2_reached (reach.1 h) v).1, ht], hrd⟩
  case registers =>
    refine ⟨fun off a => registerWrite_dropped (s.writeReg_unaligned fn v a),
      fun off h => registerWrite_dropped (s.writeReg_readOnly fn v h),
      fun off h => registerWrite_dropped (s.writeReg_gap fn v h),
      fun off lo hi hf => registerWrite_dropped (s.writeReg_module_other v ⟨lo, hi⟩ hf),
      fun om h => registerWrite_takes (s.writeReg_plain fn v h),
      fun g => ⟨fun h => registerWrite_dropped ((s.writeReg_span fn g v).trans (s.writeSpan_held v h)),
        fun h => registerWrite_takes ((s.writeReg_span fn g v).trans (s.writeSpan_free v h))⟩,
      fun h => registerWrite_takes ((s.writeReg_snpctl fn v).trans (s.writeSnpctl_quiet fn.toNat h)),
      fun h31 h0 => snpctl_fired fn h31 h0,
      fun h => ⟨registerWrite_dropped ((s.writeReg_trcbase fn v).trans (s.writeTrcbase_enabled v h)),
        registerWrite_dropped ((s.writeReg_trcsize fn v).trans (if_neg h))⟩,
      fun h => ⟨trcbase_taken v h, fun nz => registerWrite_takes ((s.writeReg_trcsize fn v).trans ((if_pos h).trans ?trcsize))⟩,
      fun h => ?dswin, fun h => ?dswinOut, fun h => ?dsage, fun die hd => ⟨fun h => ?nsep, fun h => ?nsepOut⟩⟩
    case trcsize =>
      have low : (v &&& 0xFFFFF).toNat = ufield v 0 20 := toNat_and_low v 20 (by decide)
      have lt := ufield_lt v 0 20
      exact s.putRange_in _ _ (by omega)
    case dswin =>
      have low : (v &&& 7).toNat = ufield v 0 3 := toNat_and_low v 3 (by decide)
      obtain ⟨t, ht, frame, hb⟩ := registerWrite_takes ((s.writeReg_dswin fn v).trans (s.putRange_in _ _ (by omega)))
      exact ⟨t, ht, frame, by rw [hb]; exact low⟩
    case dswinOut =>
      have low : (v &&& 7).toNat = ufield v 0 3 := toNat_and_low v 3 (by decide)
      exact registerWrite_dropped ((s.writeReg_dswin fn v).trans (s.putRange_out _ _ (by omega)))
    case dsage =>
      have low : (v &&& 0xFFFF).toNat = ufield v 0 16 := toNat_and_low v 16 (by decide)
      exact registerWrite_dropped ((s.writeReg_dsage fn v).trans (s.putRange_out _ _ (by omega)))
    case nsep =>
      obtain ⟨t, ht, frame, hb⟩ := registerWrite_takes (fn := 0) ((s.writeReg_nsep hd v).trans (if_pos h))
      exact ⟨t, ht, frame, (congrArg BitVec.toNat hb).trans (toNat_and_low v 5 (by decide))⟩
    case nsepOut => exact registerWrite_dropped ((s.writeReg_nsep hd v).trans (if_neg h))
  case partitions =>
    exact ⟨fun i v => ⟨pcfg_taken, pcfg_refused⟩, ⟨_, rfl, rfl, State.barAt_setBar_same _ _ _ _⟩,
      fun v => ⟨twin_held, twin_unequal, twin_taken⟩, cmpst_cleared s,
      fun g v => ⟨fun h => congrArg Host.Outcome.next (s.writeSpan_held v h), cgspan_taken v⟩⟩
  case reset =>
    have cancels := s.cancelPart_keepsCancels s.flrFn
    exact ⟨_, exec_functionLevelReset s, cancels.1, s.afterReset_kept, fun off => s.afterReset_barAt,
      s.afterReset_cmpSaved, s.afterReset_own, cancels.2, s.cancelPart_cancelled,
      fun h l hl hp hd j hj => s.afterReset_cancels_read h hl hp hd hj,
      fun h l dws s1 hl hp hd hj hw => s.afterReset_cancels_unread h hl hp hd hj hw⟩
end
